-- ==== Sys2Proof/Word.lean ====
section
/-!
DEFINITION. The word types of the Verikor segment controller and the plain container every keyed record of the model
is kept in. Numbers the manual counts (indexes, levels, instants, lengths) are `Nat` or `Int`; words that software sees
bit by bit are bit vectors.
-/

namespace Sys2Proof

/-- One byte of a message, a payload or a parameter value (R9). -/
abbrev Byte := BitVec 8

/-- A MAC address, its octets in wire order, the first octet most significant (Table 3.2). -/
abbrev Mac := BitVec 48

/-- A Place Identifier (R22). -/
abbrev Pid := BitVec 48

/-- An EUI-64 of a node (R324), most significant byte first. -/
abbrev Eui := BitVec 64

/-- A host-link register word (R111). -/
abbrev Word := BitVec 32

/-- A Lead Claim (Table 2.2). -/
abbrev Claim := BitVec 64

/-- A Shotas lane sequence number, modulo 2³² (R60). -/
abbrev Seq32 := BitVec 32

/-- A Stamp64 or any other instant or duration in nanoseconds (R13). -/
abbrev Ns := Nat

/-- Sparse data by key: entries with strictly rising keys. -/
abbrev Table (α : Type) := List (Nat × α)

/-- Nanoseconds in a microsecond. -/
abbrev us : Nat := 1000
/-- Nanoseconds in a millisecond. -/
abbrev ms : Nat := 1000000
/-- Nanoseconds in a second. -/
abbrev sec : Nat := 1000000000

/-- The modulus of a u32 event counter. -/
abbrev pow32 : Nat := 4294967296

end Sys2Proof
end

