-- ==== Sys2Proof/Syntax.lean ====
section
/-!
DEFINITION. The commands of the block: one constructor of `Instr` per row of spec/opcode_table.json, with the operands
the outside world gives each. Every constructor but the Shotas requests carries `dt` first, the nanoseconds that have
passed since the command before it; a request carries it in `Req.dt`. Where a row is an event inside the module (a
timer, a cell, a cycle), its operands are what only the physical world decides: which samples the converters took,
whether a readback passed, what a node sent.
-/

namespace Sys2Proof

/-! ## Shotas requests -/

/-- A ring port (R419). -/
inductive Port where
  | A | B
  deriving DecidableEq, Repr

/-- The destination address of an Ethernet frame, as the module tells it apart (R45). -/
inductive Dest where
  | module
  | group
  | other (mac : Mac)
  deriving DecidableEq, Repr

/-- Where a Shotas message arrived. The class of the port is fixed by it (R18, Table 0.4). -/
inductive Source where
  /-- Source MAC address, 802.1Q tag if the frame had one, destination, and the port it arrived on. -/
  | ring (mac : Mac) (vlan : Option (BitVec 16)) (dest : Dest) (port : Port)
  | host
  | uart
  deriving DecidableEq, Repr

/-- A partner's endpoint: a source MAC address on the ring, the host link, or the service UART. -/
inductive Endpoint where
  | ring (mac : Mac)
  | host
  | uart
  deriving DecidableEq, Repr

/-- The endpoint a message from `s` belongs to. -/
def Source.endpoint : Source → Endpoint
  | .ring m _ _ _ => .ring m
  | .host => .host
  | .uart => .uart

/-- A Shotas request whose CRC is valid, whose header version is 0x01 and whose length field is the length of its
payload. Its opcode is the row's. `status` is the header's status field, 0 in requests (Table 2.2). `waits` says that the unit the command acts on cannot start it at once, so that the
command is admitted and stays executing until its FINAL_RESPONSE (log entry 4). -/
structure Req where
  dt : Ns
  src : Source
  lane : Byte
  flags : BitVec 16
  seq : Seq32
  claim : Claim
  payload : List Byte
  status : BitVec 16
  waits : Bool
  deriving DecidableEq, Repr

/-- The image files a card holds, in directory order: header and payload of each (R534, R548). -/
structure ImageFile where
  header : List Byte
  payload : List Byte
  deriving DecidableEq, Repr

/-! ## Host link -/

/-- One host-link transaction: instruction byte, 16-bit address, clock in MHz (R110, Table 17.10). -/
structure HlTx where
  instr : Byte
  addr : BitVec 16
  sckMHz : Nat
  deriving DecidableEq, Repr

/-- A read burst: the transaction and how many bits of data it shifts out (R111). -/
structure HlRead where
  tx : HlTx
  bits : Nat
  deriving DecidableEq, Repr

/-- A failure that the scan finds: of the parity of a firmware-written register, named by its parameter ID and its index, or
of a host-link register, whose duplicate may have failed as well (R106, R107); or a memory error of the control core, corrected
in place or costing it some of its function (R43; log entry 80). -/
inductive ParityFail where
  | parameter (id index : Nat)
  | core (corrected : Bool)
  | hlCtrl (duplicateToo : Bool)
  | hlAttnMask (duplicateToo : Bool)
  deriving DecidableEq, Repr

/-! ## Flow engines -/

/-- A memory error in a queue's cells that the access meets: the queue whose head cell it is, the cell's number, and
whether SECDED corrected it (R253). -/
structure CellError where
  queue : Nat
  cell : Nat
  corrected : Bool
  deriving DecidableEq, Repr

/-- What of the engines' memories an error of FLOW_STATE_ERROR lies in: the flow's state (R235), or its n-th checkpoint or n-th
log entry, counted from the oldest, in the Backstep store (R285). -/
inductive FlowMemory where
  | state
  | checkpoint (n : Nat)
  | logEntry (n : Nat)
  deriving DecidableEq, Repr

/-- Such an error, and whether SECDED corrected it. -/
structure FlowError where
  memory : FlowMemory
  corrected : Bool
  deriving DecidableEq, Repr

/-- A push a lighting program makes: queue, flow, and 56 payload bytes (R216). -/
structure Push where
  queue : Nat
  flow : Nat
  payload : List Byte
  deriving DecidableEq, Repr

/-- What a lighting program did with the item it served (R237): its effects and the accesses that are judged. -/
structure ItemOutcome where
  /-- The flow state it leaves, 64 bytes; `none` leaves the state as it was. -/
  state : Option (List Byte)
  /-- The program ends the flow (R233). -/
  endFlow : Bool
  pushes : List Push
  /-- Queues the program popped itself (R237, R251). -/
  pops : List Nat
  /-- An alarm it set for its flow (R238). -/
  alarm : Option Ns
  /-- Operations it ran. -/
  ops : Nat
  /-- Performance counters it read (R499). -/
  perfReads : List Nat
  /-- It made an access that R237 does not list. -/
  badAccess : Bool
  /-- The program's node that served the item. -/
  node : Nat
  /-- Memory errors its own pops meet (R253). -/
  errors : List CellError
  deriving DecidableEq, Repr

/-! ## Mesh -/

/-- An uplink frame as a radio receives it: what its checks found and what it carries. The link-layer CCM* check is the
radio's hardware, so its verdict is an operand (log entry 12); the LPP PDUs are raw octets. -/
structure UplinkFrame where
  fcsOk : Bool
  /-- Only features of Table 8.2 are used (R302). -/
  supported : Bool
  /-- Link security level, 0 for join frames. -/
  level : Nat
  keyIndex : Nat
  /-- The link CCM* check passed under the key the index names. -/
  ccmOk : Bool
  /-- Short address of the neighbour that sent the frame; 0xFFFE before join. -/
  neighbour : Nat
  counter : Nat
  mic : Word
  /-- Measured offset from the expected start, ns. -/
  offset : Int
  /-- The cell was dedicated to the neighbour (R318). -/
  dedicated : Bool
  rssi : Int
  pdus : List (List Byte)
  deriving DecidableEq, Repr

/-- What the radio found when it came to use a cell: the channel is busy (R299), and the memory errors its pops meet (R253). -/
structure CellUse where
  busy : Bool
  errors : List CellError
  deriving DecidableEq, Repr

/-! ## Metering -/

/-- One circuit's current samples about a cycle (R358), nV at the input. -/
structure CurrentCycle where
  circuit : Nat
  samples : List Int
  deriving DecidableEq, Repr

/-- One cycle of a voltage input as its converters saw it: the length in ns between the crossings that the island located and whether
it tracked them (R366), the samples of the input and of the paired currents, and the converters that end their calibration in it with
constants beyond R388. All converters sample at the same instants, 125 µs apart (R358); the first sample lies `first` ns after the
cycle's start, before it where negative. Samples are in nV at the input, at the calibration of the gain each was taken at. -/
structure CycleData where
  length : Ns
  sync : Bool
  first : Int
  volts : List Int
  currents : List CurrentCycle
  calFails : List Nat
  deriving DecidableEq, Repr

/-- The newest half cycle of a voltage input: its length in ns and its samples, as in `CycleData` (R382). -/
structure HalfWindow where
  length : Ns
  first : Int
  volts : List Int
  deriving DecidableEq, Repr

/-! ## Ring and network time -/

/-- A tagged ring frame (R425). `lsdu` is what follows the HSR tag. -/
structure RingFrame where
  src : Mac
  dst : Dest
  hsrSeq : BitVec 16
  vlan : Option (BitVec 16)
  etherType : BitVec 16
  supervision : Bool
  lsdu : List Byte
  deriving DecidableEq, Repr

/-- A PTP Sync as it arrives: the master, its origin timestamp and correction, and the sequence (R445, R446). `age` is
how long before the command the start-of-frame delimiter crossed the MAC-PHY interface. -/
structure SyncMsg where
  master : BitVec 64
  seconds : Nat
  nanos : Nat
  correction : Int
  sequence : BitVec 16
  twoStep : Bool
  domain : Nat
  /-- The sync interval it announces. -/
  interval : Ns
  age : Ns
  deriving DecidableEq, Repr

/-- A Follow_Up: the precise origin timestamp of a two-step Sync. -/
structure FollowUpMsg where
  master : BitVec 64
  seconds : Nat
  nanos : Nat
  correction : Int
  sequence : BitVec 16
  domain : Nat
  deriving DecidableEq, Repr

/-- An Announce, the data set the BMCA compares (R443, R450). -/
structure AnnounceMsg where
  source : BitVec 64
  grandmaster : BitVec 64
  priority1 : Nat
  clockClass : Nat
  accuracy : Nat
  variance : Nat
  priority2 : Nat
  steps : Nat
  utcOffset : Int
  utcValid : Bool
  domain : Nat
  deriving DecidableEq, Repr

/-- An untagged peer-delay message on a port (R444). A response carries the four stamps' result: the link delay and the
rate ratio the exchange measured, in ns and in parts per 10¹². -/
inductive PeerDelayMsg where
  | request (sequence : BitVec 16)
  | response (sequence : BitVec 16) (delay : Ns) (ratioPpt : Int)
  deriving DecidableEq, Repr

/-- A link's state after a change: its speed (0 down, 1 10, 2 100, 3 1000 Mb/s) and what the partner's end is. -/
structure LinkInfo where
  speed : Nat
  partnerCopper : Bool
  partnerAuto : Bool
  partnerEee : Bool
  halfDuplexOnly : Bool
  deriving DecidableEq, Repr

/-- The mean load of a link over an interval, each direction, in 0.01 % of the speed named (R422). -/
structure LinkLoad where
  /-- Of the next lower speed, over the last 60 s. -/
  inLower : Nat
  outLower : Nat
  /-- Of the present speed, highest over any 1 s. -/
  inNow : Nat
  outNow : Nat
  /-- A preemptable frame waited more than 100 ms. -/
  waited : Bool
  deriving DecidableEq, Repr

/-- The two traffic classes (R433). -/
inductive TrafficClass where
  | express | preemptable
  deriving DecidableEq, Repr

/-! ## History Store, recorder, counters -/

/-- What the medium did with an append, a scrub, a refresh or a relocation step (R471–R476). -/
structure MediumOutcome where
  /-- The step programmed or read what it set out to. -/
  ok : Bool
  /-- The block failed a program or an erase (R472). -/
  blockFailed : Bool
  /-- Codewords corrected, and of those the ones that needed soft decoding. -/
  corrected : Nat
  softReads : Nat
  /-- Most corrected bits in one codeword. -/
  worstBits : Nat
  /-- A codeword could not be corrected. -/
  uncorrectable : Bool
  /-- Pages programmed, pages read and time busy in ns, of package 0 and of package 1 (Tables 13.4, 13.5). -/
  programmed : Nat × Nat
  read : Nat × Nat
  busy : Ns × Ns
  deriving DecidableEq, Repr

/-- An append: what the medium did, and the memory errors that the pops of queue 0x0A met (R253). -/
structure AppendOutcome where
  medium : MediumOutcome
  errors : List CellError
  deriving DecidableEq, Repr

/-- The kinds of background step of the store (R476). -/
inductive ScrubKind where
  | scrub | refresh | relocate
  deriving DecidableEq, Repr

/-- What the capture of a counter sample saw (R498). -/
structure SampleCapture where
  engine : Nat
  graph : Nat
  node : Nat
  flow : Nat
  operation : Nat
  deriving DecidableEq, Repr

/-! ## Starts -/

/-- What a start finds (R583): engines that fail the self-test (R228), cells that fail their retest (R254), key slots
whose selected record fails its CRC, with whether the other record is good (R520), slots whose write was cut short
(R521), parameter-store copies with a bad CRC (R96), firmware copies of the selected slot whose digest fails (R538), the
port mode straps (R419), the radios whose transmitter fails its self-test (R595), metering checkpoint slots with a bad CRC, 0 and 1
(R376), recorder records that are read back with a CRC that fails, by sequence, with that CRC (R488), and whether the firmware gets to
RUN (R539). -/
structure StartReport where
  engineFails : List Nat
  cellFails : List Nat
  badKeyRecords : List (Nat × Bool)
  abandonedWrites : List Nat
  badStoreCopies : List Nat
  badFirmwareCopies : List Nat
  modeA : Nat
  modeB : Nat
  radioFails : List Nat
  badMeterSlots : List Nat
  badRecords : List (Nat × BitVec 32)
  runs : Bool
  deriving DecidableEq, Repr

/-! ## The commands -/

/-- The commands of the block, one constructor per row of spec/opcode_table.json, in the table's order. -/
inductive Instr where
  -- groups 0x10 and 0x20
  | identify (r : Req)
  | health (r : Req)
  | paramGet (r : Req)
  | paramSet (r : Req)
  | paramCommit (r : Req)
  | paramAbort (r : Req)
  | warmReset (r : Req)
  | bind (r : Req)
  | release (r : Req)
  | forceRelease (r : Req)
  | subscribe (r : Req)
  | sessionClose (r : Req)
  | noticeAck (r : Req)
  -- group 0x30
  | overrideSet (r : Req)
  | overrideClear (r : Req)
  | overrideList (r : Req)
  | typeSet (r : Req)
  | typeGet (r : Req)
  | lampSet (r : Req)
  | lampGet (r : Req)
  | lampRemove (r : Req)
  | targetQuery (r : Req)
  | nightQuery (r : Req)
  | diagList (r : Req)
  -- group 0x40
  | sectionSet (r : Req)
  | junctionSet (r : Req)
  | placeSet (r : Req)
  | graphGet (r : Req)
  | graphRemove (r : Req)
  | trackList (r : Req)
  | handover (r : Req)
  | handoverTaken (r : Req)
  | handoverCancel (r : Req)
  | peerResponse (r : Req) (opcode status : Nat)
  -- groups 0x48 and 0x4C
  | graphList (r : Req)
  | graphLoad (r : Req)
  | graphStart (r : Req)
  | graphStop (r : Req)
  | graphSwap (r : Req)
  | graphUnload (r : Req)
  | engineStatus (r : Req)
  | queueStatus (r : Req)
  | backstepStatus (r : Req)
  -- group 0x50
  | nodeMapSet (r : Req)
  | nodeMapGet (r : Req)
  | nodeMapRemove (r : Req)
  | nodeList (r : Req)
  | nodeProbe (r : Req)
  | nodeLeave (r : Req)
  | radioStatus (r : Req)
  -- group 0x60
  | meterTake (r : Req)
  | meterRead (r : Req)
  | pqList (r : Req)
  | spanSet (r : Req)
  | spanGet (r : Req)
  | reconQuery (r : Req)
  -- group 0x68
  | circuitForce (r : Req)
  | circuitStatus (r : Req)
  | latchStatus (r : Req)
  -- group 0x70
  | ringHealth (r : Req)
  | ringPeerSet (r : Req)
  | ringPeerGet (r : Req)
  | timeStatus (r : Req)
  | timeSeed (r : Req)
  -- group 0x78
  | histQuery (r : Req)
  | histNext (r : Req)
  | histClose (r : Req)
  | histStatus (r : Req)
  -- groups 0x80 and 0x84
  | recRead (r : Req)
  | recStatus (r : Req)
  | perfRead (r : Req)
  | perfSamples (r : Req)
  | wmeterRead (r : Req)
  -- group 0x90
  | keyWrite (r : Req)
  | keyErase (r : Req)
  | keyDisable (r : Req)
  | keyDerive (r : Req)
  | keyStatus (r : Req)
  | attest (r : Req)
  | lifecycleSet (r : Req)
  -- group 0x98
  | imageList (r : Req)
  | updateArm (r : Req)
  | updateDisarm (r : Req)
  | updateRollback (r : Req)
  | updateStatus (r : Req)
  | imageErase (r : Req)
  | sdScan (r : Req) (files : List ImageFile)
  | chainOffer (r : Req)
  | chainFetch (r : Req)
  | chainArm (r : Req)
  -- group 0xA0
  | rtcGet (r : Req)
  | rtcSet (r : Req)
  | powerStatus (r : Req)
  | powerHold (r : Req)
  -- the Shotas link's own events
  | interimResponse (dt : Ns) (ep : Endpoint) (lane : Byte)
  | finalResponse (dt : Ns) (ep : Endpoint) (lane : Byte)
  | uartFrameTimeout (dt : Ns) (frame : List Byte) (age : Ns)
  | sessionLapse (dt : Ns) (ep : Endpoint)
  | noticeResend (dt : Ns) (ep : Endpoint)
  | stagingTimeout (dt : Ns)
  | warmResetDue (dt : Ns)
  | snapshotLapse (dt : Ns) (ep : Endpoint)
  | cursorIdle (dt : Ns) (cursor : Nat)
  -- the host link
  | hlCmdApertureWrite (dt : Ns) (tx : HlTx) (bytes : List Byte)
  | hlRspApertureRead (dt : Ns) (tx : HlTx) (count : Nat)
  | ring (dt : Ns) (tx : HlTx) (clearToo : Bool)
  | clear (dt : Ns) (tx : HlTx)
  | pop (dt : Ns) (tx : HlTx)
  | linkReset (dt : Ns) (tx : HlTx) (moduleToo : Bool)
  | moduleReset (dt : Ns) (tx : HlTx)
  | sdTimeRead (dt : Ns) (burst : HlRead)
  | hlNowLoRead (dt : Ns) (burst : HlRead)
  | registerWrite (dt : Ns) (tx : HlTx) (values : List Word) (bits : Nat)
  | hlBufferTaken (dt : Ns)
  | parityScan (dt : Ns) (fails : List ParityFail)
  -- flow engines and queues
  | itemDispatch (dt : Ns) (engine : Nat) (errors : List CellError)
  | itemComplete (dt : Ns) (engine : Nat) (out : ItemOutcome)
  | itemOpsLimit (dt : Ns) (engine : Nat) (node : Nat)
  | engineStall (dt : Ns) (engine : Nat) (retestPasses : Bool)
  | engineMemoryError (dt : Ns) (engine : Nat)
  | engineRetest (dt : Ns) (engine : Nat) (passes : Bool)
  | flowStateError (dt : Ns) (graph flow : Nat) (error : FlowError)
  | alarmDue (dt : Ns) (graph flow : Nat)
  | dispatchBoundary (dt : Ns) (graph : Nat)
  | queueLevelSecondEnd (dt : Ns) (queue : Nat)
  | paceLowerStep (dt : Ns)
  | reviseMissed (dt : Ns) (point : Pid) (launch : Ns)
  -- Promenade
  | trackTick (dt : Ns) (track : Nat)
  | trackCoastTimeout (dt : Ns) (track : Nat)
  | tentativeTimeout (dt : Ns) (track : Nat)
  | shadowTimeout (dt : Ns) (track : Nat)
  | untrackedCoverExpiry (dt : Ns)
  | holdExpiry (dt : Ns) (point : Pid)
  | flapHoldExpiry (dt : Ns) (point : Pid)
  | fallDeferExpiry (dt : Ns) (point : Pid)
  | handoverCrossing (dt : Ns) (id : Nat)
  | peerResend (dt : Ns) (peer : Mac) (lane : Byte)
  -- light plan
  | nightResolve (dt : Ns)
  | planCommandDue (dt : Ns)
  | photoDebounce (dt : Ns)
  | photoWindowExpiry (dt : Ns)
  | overrideEnd (dt : Ns) (handle : Nat)
  | circuitDemandDue (dt : Ns) (circuit : Nat)
  | diagDue (dt : Ns) (point : Pid) (channel : Nat)
  | undiagnosed (dt : Ns) (point : Pid) (channel : Nat)
  | lateDiscard (dt : Ns) (point : Pid) (launch : Ns)
  -- mesh
  | uplinkFrame (dt : Ns) (radio : Nat) (frame : UplinkFrame)
  | nodeAckReceive (dt : Ns) (radio : Nat) (frame : Nat)
  | beaconCell (dt : Ns) (radio : Nat) (use : CellUse)
  | driveCell (dt : Ns) (radio : Nat) (use : CellUse)
  | otherDownlinkCell (dt : Ns) (radio : Nat) (use : CellUse)
  | e2eResend (dt : Ns) (frame : Nat)
  | nodeSilent (dt : Ns) (point : Pid)
  | keyRoll (dt : Ns) (key : List Byte)
  | netkeyActivation (dt : Ns)
  | oldKeyDiscard (dt : Ns)
  | radioSelfTestFail (dt : Ns) (radio : Nat)
  | activationBroadcast (dt : Ns) (kind : Nat)
  -- metering
  | meterCycleEnd (dt : Ns) (input : Nat) (cycle : CycleData)
  | halfCycleWindow (dt : Ns) (windows : List HalfWindow)
  | pqEventOpenTimeout (dt : Ns) (kind : Nat)
  | frequencyInterval (dt : Ns) (input : Nat)
  | ledgerBoundary (dt : Ns)
  | meterCheckpoint (dt : Ns)
  | calibrationStart (dt : Ns) (converter : Nat)
  | calibrationForced (dt : Ns) (converter : Nat)
  | recWaitExpiry (dt : Ns) (circuit : Nat)
  -- output chain
  | chainCycle (dt : Ns) (words : List (BitVec 128))
  | dwellExpiry (dt : Ns) (circuit : Nat)
  | inrushExpiry (dt : Ns)
  | circuitForceEnd (dt : Ns) (circuit : Nat)
  -- ring and network time
  | ringFrameReceive (dt : Ns) (port : Port) (frame : RingFrame)
  | secondCopyTimeout (dt : Ns) (src : Mac) (hsrSeq : BitVec 16)
  | supervisionSend (dt : Ns)
  | supervisionTimeout (dt : Ns)
  | peerDelayExchange (dt : Ns) (port : Port)
  | sync (dt : Ns) (port : Port) (m : SyncMsg)
  | followUp (dt : Ns) (port : Port) (m : FollowUpMsg)
  | followUpHoldExpiry (dt : Ns)
  | announce (dt : Ns) (port : Port) (m : AnnounceMsg)
  | syncMissTimeout (dt : Ns)
  | holdoverTimeout (dt : Ns)
  | ppsInEdge (dt : Ns) (highNs : Ns)
  | ppsInMissing (dt : Ns)
  | stampExtendRead (dt : Ns)
  | linkChange (dt : Ns) (port : Port) (info : LinkInfo)
  | pause (dt : Ns) (port : Port) (quanta : BitVec 16)
  | pauseExpiry (dt : Ns) (port : Port)
  | macMergeVerify (dt : Ns) (port : Port) (answered : Bool)
  | lpiEntry (dt : Ns) (port : Port)
  | speedLowerEval (dt : Ns) (port : Port) (load : LinkLoad)
  | renegotiation (dt : Ns) (port : Port)
  | launchQueueFrame (dt : Ns) (port : Port) (cls : TrafficClass)
  -- History Store, recorder, performance counters
  | histProgram (dt : Ns) (outcome : AppendOutcome)
  | writeStallTimeout (dt : Ns)
  | scrubStep (dt : Ns) (kind : ScrubKind) (block : Nat) (outcome : MediumOutcome)
  | packageFailure (dt : Ns) (package : Nat)
  | recorderWrite (dt : Ns) (readbackOk : Bool) (mirrorOk : Bool)
  | mirrorCopy (dt : Ns) (ok : Bool)
  | mramRetry (dt : Ns) (readbackOk : Bool)
  | perfSample (dt : Ns) (counter : Nat) (capture : SampleCapture)
  | windowMeterBoundary (dt : Ns) (meter : Nat)
  -- keys
  | shuffle (dt : Ns) (masks : List (List Byte))
  -- updates
  | imageReceived (dt : Ns) (readbackOk : Bool)
  | chainReceiveTimeout (dt : Ns)
  | partialImageExpiry (dt : Ns)
  | armMissed (dt : Ns) (kind : Nat)
  | switchOver (dt : Ns)
  | trialTimeout (dt : Ns)
  | cardInsert (dt : Ns) (files : List ImageFile)
  | cardRemove (dt : Ns)
  -- clock, power and reset
  | lastGaspEntry (dt : Ns) (vinMv : Nat)
  | vinBelow4v (dt : Ns) (vinMv vbatMv : Nat)
  | brownOut (dt : Ns) (vinMv : Nat)
  | slowDomainLost (dt : Ns)
  | vinReturn (dt : Ns) (vinMv : Nat)
  | nreset (dt : Ns) (lowNs : Ns)
  | watchdog (dt : Ns)
  | start (dt : Ns) (found : StartReport)
  | periodicWake (dt : Ns)
  | quietEntry (dt : Ns)
  | quietExit (dt : Ns)
  | vbatSample (dt : Ns) (vbatMv : Nat)
  | operatingSecond (dt : Ns)
  | rtcSecond (dt : Ns)
  | rtcDiscipline (dt : Ns)
  | rtcTempCorrection (dt : Ns) (celsius : Int)
  | doorChange (dt : Ns) (isOpen : Bool)
  | photoChange (dt : Ns) (dark : Bool)
  -- rows added to the table's end
  | unsupportedOpcode (dt : Ns) (src : Source) (message : List Byte)
  | overrideStart (dt : Ns) (handle : Nat)
  | circuitForceStart (dt : Ns) (circuit : Nat)
  | vpaChange (dt : Ns) (vpaMv : Nat)
  | islandSupplyOrLinkChange (dt : Ns) (working : Bool)
  | peerDelayMessage (dt : Ns) (port : Port) (m : PeerDelayMsg)
  | trialRunTimeout (dt : Ns)
  deriving DecidableEq, Repr

end Sys2Proof
end

