-- ==== Sys2Proof/Decode.lean ====
section
/-!
DEFINITION. The command a table word spells. No row of spec/opcode_table.json gives bits or fields: a command of this block
is a Shotas message, a register access, a frame or an event, not a word. Every word therefore spells no command.
-/

namespace Sys2Proof

/-- The command the word of `nbits` bits spells: none, for the table gives no row any bits. -/
def decodeTableWord (_nbits _w : Nat) : Option Instr := none

end Sys2Proof
end

