-- ==== Sys2Proof/Config.lean ====
section
/-!
DEFINITION. What the spec leaves open and an implementation or the physical world fixes: opaque constants without a body.
A claim that holds in this model holds whatever they are. `Config.free n` is the value drawn when the state's counter
`free` stands at `n` (log entry 3); the others are fixed properties of the module or the world.
-/

namespace Sys2Proof

/-- The value drawn at count `n` (log entry 3). -/
opaque Config.free (n : Nat) : Nat

/-- The solar elevation in 0.001° that the module computes for a place, latitude and longitude in 10⁻⁶ degree, at a UTC second (R126;
log entry 7). -/
opaque Config.elevation (latitude longitude : Int) (utc : Int) : Int

/-- What the module reads from the payload of a lighting-graph image: nodes, flows, code bytes, queue masks, queues with
capacity, reserve, deadline and priority, edges, push limits and ORDERED ranges; `none` if it is not a graph (log entry 8). -/
opaque Config.graph (payload : List Byte) :
  Option (Nat × Nat × Nat × Nat × Nat × Nat × List (Nat × Nat × Nat × Nat) × List (Nat × Nat) ×
    List (Nat × Nat × Nat) × List (Nat × Nat))

/-- The code of a lighting graph, as its image's payload holds it, the standard graph's for the empty payload (R215; log entries 6 and
8). -/
opaque Config.graphCode (payload : List Byte) : List Byte

/-- The rate of one engine in operations per second that the module measures at a fabric supply in mV and a temperature in °C, within
the bounds of Table 1.5 (R29, R227; log entry 16). -/
opaque Config.engineRate (millivolts : Nat) (celsius : Int) : Nat

/-- Airtime in ns of a frame of so many octets under a PHY and an OFDM MCS (log entry 22). -/
opaque Config.airtime (phy mcs octets : Nat) : Nat

/-- Droop, d_min and diag_ms of the factory type defaults (R350; log entry 28). -/
opaque Config.factoryType (field : Nat) : Nat

/-- Clock accuracy (0) and variance (1) of the module in the BMCA's comparison (log entry 36). -/
opaque Config.ownClock (field : Nat) : Nat

/-- The files on the card at the reading drawn at count `n`, where an SD_SCAN comes as plain bytes (log entry 55). -/
opaque Config.cardFiles (n : Nat) : List ImageFile

/-- An Ed25519 signature verifies (R535): key, message, signature (log entry 9). -/
opaque Config.ed25519 (key message signature : List Byte) : Bool

end Sys2Proof
end

