-- ==== Sys2Proof/Machine/Table.lean ====
section
/-!
DEFINITION. Keyed records: reading, writing and erasing an entry of a `Table`, whose keys rise strictly, and the same for
lists used as fixed arrays.
-/

namespace Sys2Proof.Machine

/-- The entry under `k`. -/
def tget {α : Type} (t : Table α) (k : Nat) : Option α :=
  match t with
  | [] => none
  | (j, v) :: rest => if j = k then some v else tget rest k

/-- `t` with `v` under `k`, in key order. -/
def tput {α : Type} (t : Table α) (k : Nat) (v : α) : Table α :=
  match t with
  | [] => [(k, v)]
  | (j, w) :: rest =>
    if k < j then (k, v) :: (j, w) :: rest else if k = j then (k, v) :: rest else (j, w) :: tput rest k v

/-- `t` without an entry under `k`. -/
def tdel {α : Type} (t : Table α) (k : Nat) : Table α :=
  t.filter (fun e => e.1 != k)

/-- Keys rise strictly: the one form in which a table is written down. -/
def twf {α : Type} (t : Table α) : Bool :=
  match t with
  | [] => true
  | [_] => true
  | a :: b :: rest => a.1 < b.1 && twf (b :: rest)

/-- Change the entry under `k`, if there is one. -/
def tmap {α : Type} (t : Table α) (k : Nat) (f : α → α) : Table α :=
  t.map (fun e => if e.1 = k then (e.1, f e.2) else e)

/-- Keep the entries whose key and value satisfy `p`. -/
def tkeep {α : Type} (t : Table α) (p : Nat → α → Bool) : Table α :=
  t.filter (fun e => p e.1 e.2)

/-- The values in key order. -/
def tvals {α : Type} (t : Table α) : List α := t.map Prod.snd

/-- The numeric entry under `k`, where an absent entry means 0. -/
def cget (t : Table Nat) (k : Nat) : Nat := (tget t k).getD 0

/-- Store a numeric entry, an entry of 0 being absent. -/
def cput (t : Table Nat) (k v : Nat) : Table Nat := if v = 0 then tdel t k else tput t k v

/-- The list with its `i`-th element changed, if it has one. -/
def lmod {α : Type} (l : List α) (i : Nat) (f : α → α) : List α :=
  match l, i with
  | [], _ => []
  | a :: rest, 0 => f a :: rest
  | a :: rest, i + 1 => a :: lmod rest i f

/-- The list with its `i`-th element replaced, if it has one. -/
def lset {α : Type} (l : List α) (i : Nat) (v : α) : List α := lmod l i (fun _ => v)

/-- The last `n` elements. -/
def lastN {α : Type} (n : Nat) (l : List α) : List α := l.drop (l.length - n)

/-- The greatest element, 0 of none. -/
def maxOf (l : List Nat) : Nat := l.foldl max 0

/-- The sum. -/
def sumOf (l : List Nat) : Nat := l.foldl (· + ·) 0

/-- The least element, if there is one. -/
def minOf (l : List Nat) : Option Nat :=
  match l with
  | [] => none
  | a :: rest => some (rest.foldl min a)

/-- Insert into a list kept in the order of `key`, after entries with an equal key. -/
def insertBy {α : Type} (key : α → Nat) (a : α) (l : List α) : List α :=
  match l with
  | [] => [a]
  | b :: rest => if key a < key b then a :: b :: rest else b :: insertBy key a rest

/-- Sort by `key`, equal keys in their first order. -/
def sortBy {α : Type} (key : α → Nat) (l : List α) : List α :=
  l.reverse.foldl (fun acc a => insertBefore key a acc) []
where
  /-- Insert before entries with an equal key. -/
  insertBefore {α : Type} (key : α → Nat) (a : α) : List α → List α
    | [] => [a]
    | b :: rest => if key a ≤ key b then a :: b :: rest else b :: insertBefore key a rest

end Sys2Proof.Machine
end

