-- ==== Sys2Proof/Machine/Operands.lean ====
section
/-!
DEFINITION. Operand forms: little-endian fields of a payload (R9), PID48 fields (R22), MAC octets (Table 3.2), and UTF-8.
-/

namespace Sys2Proof.Machine

/-- `n` little-endian bytes of `v` modulo 256ⁿ. -/
def le (n v : Nat) : List Byte :=
  match n with
  | 0 => []
  | n + 1 => BitVec.ofNat 8 v :: le n (v / 256)

/-- `n` little-endian bytes of a signed value in two's complement. -/
def leI (n : Nat) (v : Int) : List Byte := le n (v % (256 ^ n : Nat)).toNat

/-- The unsigned value of little-endian bytes. -/
def fromLe (bs : List Byte) : Nat :=
  match bs with
  | [] => 0
  | b :: rest => b.toNat + 256 * fromLe rest

/-- The unsigned value of big-endian bytes. -/
def fromBe (bs : List Byte) : Nat := bs.foldl (fun a b => 256 * a + b.toNat) 0

/-- `n` big-endian bytes of `v`. -/
def be (n v : Nat) : List Byte := (le n v).reverse

/-- The signed reading of an `n`-byte unsigned value. -/
def signed (n v : Nat) : Int := if 2 * v < 256 ^ n then v else (v : Int) - (256 ^ n : Nat)

/-- The `n` bytes of `bs` from `off`. -/
def slice (bs : List Byte) (off n : Nat) : List Byte := (bs.drop off).take n

/-- The unsigned field of `n` bytes at `off`. -/
def fld (bs : List Byte) (off n : Nat) : Nat := fromLe (slice bs off n)

/-- The signed field of `n` bytes at `off`. -/
def fldI (bs : List Byte) (off n : Nat) : Int := signed n (fld bs off n)

/-- A byte of value `n` modulo 256. -/
def u8 (n : Nat) : List Byte := le 1 n
/-- Two little-endian bytes. -/
def u16 (n : Nat) : List Byte := le 2 n
/-- Four little-endian bytes. -/
def u32 (n : Nat) : List Byte := le 4 n
/-- Eight little-endian bytes. -/
def u64 (n : Nat) : List Byte := le 8 n
/-- `n` zero bytes. -/
def zeros (n : Nat) : List Byte := List.replicate n 0#8
/-- `bs` padded with zeros to a multiple of `k` bytes. -/
def padTo (k : Nat) (bs : List Byte) : List Byte := bs ++ zeros ((k - bs.length % k) % k)
/-- `bs` cut or zero-padded to exactly `n` bytes. -/
def fit (n : Nat) (bs : List Byte) : List Byte := bs.take n ++ zeros (n - bs.length)

/-- 1 or 0. -/
def bit (b : Bool) : Nat := if b then 1 else 0
/-- Bit `i` of `n`. -/
def hasBit (n i : Nat) : Bool := n.testBit i

/-! ## COBS (Table 2.1)

A frame of the service UART: each zero byte is replaced by the distance to the next, a run of 254 bytes without a zero by the
distance 255, which stands for no zero. -/

/-- Encode `bs` after the bytes `run`, newest first, that have no zero among them. -/
def cobsFrom (run bs : List Byte) : List Byte :=
  match bs with
  | [] => u8 (run.length + 1) ++ run.reverse
  | b :: rest =>
    if b = 0#8 then u8 (run.length + 1) ++ run.reverse ++ cobsFrom [] rest
    else if run.length = 253 then u8 255 ++ (b :: run).reverse ++ (if rest.isEmpty then [] else cobsFrom [] rest)
    else cobsFrom (b :: run) rest

/-- A message as the UART carries it: COBS-encoded and followed by one 0x00 delimiter. -/
def cobsFrame (bs : List Byte) : List Byte := cobsFrom [] bs ++ [0#8]

/-- The message of a COBS frame without its delimiter, `none` where it is no such frame. `fuel` bounds the runs. -/
def cobsDecode (fuel : Nat) (bs : List Byte) : Option (List Byte) :=
  match fuel, bs with
  | fuel + 1, c :: rest =>
    let n := c.toNat - 1
    let run := rest.take n
    if c = 0#8 ∨ rest.length < n ∨ run.contains 0#8 then none
    else if (rest.drop n).isEmpty then some run
    else (cobsDecode fuel (rest.drop n)).map (fun more => run ++ (if c = 255#8 then [] else [0#8]) ++ more)
  | _, _ => none

/-! ## PID48 (R22) -/

def pidBytes (p : Pid) : List Byte := le 6 p.toNat
def pidAt (bs : List Byte) (off : Nat) : Pid := BitVec.ofNat 48 (fld bs off 6)
def pidPrefix (p : Pid) : Nat := p.toNat / 2 ^ 14
def pidRing (p : Pid) : Nat := p.toNat / 2 ^ 20 % 1024
def pidSegment (p : Pid) : Nat := p.toNat / 2 ^ 14 % 64
def pidCircuit (p : Pid) : Nat := p.toNat / 256 % 64
def pidPoint (p : Pid) : Nat := p.toNat % 256

/-- The key of a point of the module's own prefix: circuit and point field. -/
def pointKey (p : Pid) : Nat := pidCircuit p * 256 + pidPoint p
/-- The PID48 of a prefix, a circuit field and a point field. -/
def mkPid (pre circuit point : Nat) : Pid := BitVec.ofNat 48 (pre * 2 ^ 14 + circuit % 64 * 256 + point % 256)

/-! ## MAC addresses -/

/-- Octets in wire order. -/
def macBytes (m : Mac) : List Byte := be 6 m.toNat
def macAt (bs : List Byte) (off : Nat) : Mac := BitVec.ofNat 48 (fromBe (slice bs off 6))
/-- The group bit of the first octet is set. -/
def macIsGroup (m : Mac) : Bool := m.toNat.testBit 40

/-! ## Well-formed UTF-8 (Table 3.2) -/

/-- Reads `bs` as UTF-8: `need` continuation bytes are still due, the next one within `lo..hi`. -/
def utf8From (bs : List Byte) (need lo hi : Nat) : Bool :=
  match bs with
  | [] => need == 0
  | b :: rest =>
    let n := b.toNat
    match need with
    | k + 1 => lo ≤ n && n ≤ hi && utf8From rest k 0x80 0xBF
    | 0 =>
      if n < 0x80 then utf8From rest 0 0x80 0xBF
      else if n < 0xC2 then false
      else if n < 0xE0 then utf8From rest 1 0x80 0xBF
      else if n = 0xE0 then utf8From rest 2 0xA0 0xBF
      else if n = 0xED then utf8From rest 2 0x80 0x9F
      else if n < 0xF0 then utf8From rest 2 0x80 0xBF
      else if n = 0xF0 then utf8From rest 3 0x90 0xBF
      else if n < 0xF4 then utf8From rest 3 0x80 0xBF
      else if n = 0xF4 then utf8From rest 3 0x80 0x8F
      else false

def utf8 (bs : List Byte) : Bool := utf8From bs 0 0x80 0xBF

end Sys2Proof.Machine
end

