-- ==== Sys2Proof/Machine/Crc.lean ====
section
/-!
DEFINITION. The checksums: CRC-32C of R51, and the CRC-16/CCITT-FALSE of the output chain (Table 10.1, Table 10.2).
-/

namespace Sys2Proof.Machine

/-- One bit of the reflected CRC-32C. -/
def crcBit (c : Nat) : Nat := if c % 2 = 1 then (c / 2) ^^^ 0x82F63B78 else c / 2

/-- `k` bits of the reflected CRC-32C. -/
def crcBits (k c : Nat) : Nat :=
  match k with
  | 0 => c
  | k + 1 => crcBits k (crcBit c)

/-- The CRC-32C register after `bs`, without the final XOR. -/
def crcRun (bs : List Byte) (c : Nat) : Nat :=
  match bs with
  | [] => c
  | b :: rest => crcRun rest (crcBits 8 (c ^^^ b.toNat))

/-- CRC-32C (R51). -/
def crc32c (bs : List Byte) : Nat := crcRun bs 0xFFFFFFFF ^^^ 0xFFFFFFFF

/-- One bit of CRC-16 with polynomial 0x1021, most significant bit first. -/
def crc16Bit (c : Nat) : Nat := if c ≥ 0x8000 then ((c * 2) % 0x10000) ^^^ 0x1021 else c * 2

/-- `k` bits of CRC-16. -/
def crc16Bits (k c : Nat) : Nat :=
  match k with
  | 0 => c
  | k + 1 => crc16Bits k (crc16Bit c)

/-- CRC-16 with polynomial 0x1021 and initial value 0xFFFF. -/
def crc16 (bs : List Byte) : Nat := bs.foldl (fun c b => crc16Bits 8 (c ^^^ (b.toNat * 256))) 0xFFFF

end Sys2Proof.Machine
end

