-- ==== Sys2Proof/Machine/State.lean ====
section
/-!
DEFINITION. The state of the block as plain data: every register, buffer, table, queue, counter and mode the spec gives
the Verikor module, gathered by unit, and the queue of commands that wait. `State.reset` is the module as shipped, right
after it has come up (log entry 2).
-/

namespace Sys2Proof.Machine

/-! ## Identity, clocks, outputs -/

/-- The two order codes (Table 0.1). -/
inductive OrderCode where
  | vkm48F | vkm16C
  deriving DecidableEq, Repr, Inhabited

/-- What manufacture fixes: order code, serial number, ring MAC address and the factory RTC curve (Table 2.9, R567). No command
writes it. -/
structure Ident where
  order : OrderCode
  serial : Nat
  mac : Mac
  curve : List Byte
  deriving DecidableEq, Repr, Inhabited

/-- The clocks: `mono` counts the nanoseconds that have passed, `timeBase` is the module time base of R216 and R439, which runs
at the rate the servo last set (`Ptp.freq`, 0.01 ppb). -/
structure Clock where
  mono : Ns
  timeBase : Ns
  deriving DecidableEq, Repr, Inhabited

/-- The drive code of a lamp (Table 4.7). -/
structure DriveCode where
  cur0 : Nat
  duty0 : Nat
  cur1 : Nat
  duty1 : Nat
  deriving DecidableEq, Repr, Inhabited

/-- What the block hands to the outside during one command. -/
inductive Out where
  /-- A Shotas message on the port `dest`; `express` is its ring traffic class (R47). -/
  | message (dest : Source) (express : Bool) (bytes : List Byte)
  /-- Data of a host-link read. -/
  | hostData (bytes : List Byte)
  /-- Frames shifted into the PLX-8 chain, latch 0 first (Table 10.1). -/
  | latchFrames (frames : List (BitVec 128))
  /-- An Enhanced Ack: time correction in ns and a HOLD_OFF body when one is in force (R312, R321). -/
  | enhancedAck (radio neighbour : Nat) (correction : Int) (holdOff : Option (Nat × Nat))
  | beacon (radio : Nat)
  /-- A downlink frame, to a node's short address (0xFFFF for image PDUs). -/
  | radioFrame (radio node : Nat) (pdus : List (List Byte))
  /-- A frame sent on a ring port, or forwarded to it. -/
  | ringFrame (port : Port) (express : Bool) (frame : RingFrame)
  /-- A PTP message forwarded with its correction field, or sent. -/
  | ptp (port : Port) (kind : Nat) (correction : Int) (sequence : BitVec 16)
  | peerDelayResponse (port : Port) (sequence : BitVec 16)
  | peerDelayRequest (port : Port)
  | macMergeVerify (port : Port)
  /-- ATTN is active for 1 µs (R116). -/
  | attnPulse
  deriving DecidableEq, Repr

/-! ## Shotas link -/

/-- A value of a parameter: a number, or text and bytes. -/
inductive PVal where
  | num (n : Int)
  | blob (b : List Byte)
  deriving DecidableEq, Repr, Inhabited

/-- A notice waiting in a session, with its sequence and when it was last sent (R68). -/
structure Notice where
  seq : Nat
  opcode : Nat
  payload : List Byte
  sentAt : Option Ns
  deriving DecidableEq, Repr, Inhabited

/-- Where a lane's current command stands: none in progress, admitted and waiting for its unit, begun, or waiting and
overtaken by a Holder transition (R77). -/
inductive LanePhase where
  | idle | waiting | begun | superseded
  deriving DecidableEq, Repr, Inhabited

/-- One command lane of a session (Table 2.3, R59–R61): `cached` is the final response kept for a resend. -/
structure Lane where
  synced : Bool
  seq : Seq32
  cmd : Option (Nat × Req)
  phase : LanePhase
  /-- When it was admitted, on `mono` and on the time base. -/
  admittedAt : Ns
  admittedTb : Ns
  interimSent : Bool
  cached : Option (Nat × List Byte)
  deriving DecidableEq, Repr

/-- An entry of METER_READ, as a snapshot holds it (Table 9.12). -/
structure MeterRow where
  circuit : Nat
  phase : Nat
  gain : Nat
  flags : Nat
  freq : Nat
  vRms : Nat
  cycleEnd : Ns
  imp : Nat
  exp : Nat
  lag : Nat
  lead : Nat
  iRms : Nat
  p : Int
  q1 : Int
  pf : Int
  thdV : Nat
  deriving DecidableEq, Repr, Inhabited

/-- A session's metering snapshot (R377). -/
structure Snapshot where
  id : Nat
  stamp : Ns
  takenAt : Ns
  rows : List MeterRow
  deriving DecidableEq, Repr, Inhabited

/-- A partner's session on one port: seven command lanes and a notice queue (R57–R70). -/
structure Session where
  ep : Endpoint
  src : Source
  lanes : List Lane
  notices : List Notice
  nextNotice : Nat
  dropped : Nat
  mask : BitVec 256
  lastRx : Ns
  snapshot : Option Snapshot
  deriving DecidableEq, Repr

/-- A peer message the module has sent on a lane of a neighbour session (R210, R541); `sync` says that it left with SYNC set. -/
structure PeerMsg where
  sync : Bool
  opcode : Nat
  payload : List Byte
  sentAt : Ns
  resends : Nat
  /-- Handover the message belongs to. -/
  handover : Option Nat
  deriving DecidableEq, Repr, Inhabited

/-- A lane of the module's own session to a neighbour. -/
structure PeerLane where
  peer : Mac
  lane : Nat
  seq : Seq32
  synced : Bool
  outstanding : Option PeerMsg
  deriving DecidableEq, Repr

/-- Discards the manual counts without naming a parameter (R45, R49, R52, R54, Table 2.2 RETRY). -/
structure LinkCounts where
  groupFrames : Nat
  crcDiscards : Nat
  dirDiscards : Nat
  uartDiscards : Nat
  retries : Nat
  deriving DecidableEq, Repr, Inhabited

/-- The Shotas link: sessions, the Holder (Table 2.5), staging (R92), a pending WARM_RESET (R622), the UART rate in force
(R48) and the module's own peer lanes. -/
structure Link where
  sessions : List Session
  floor : Claim
  floorEp : Option Endpoint
  bound : Bool
  /-- The F of the Holder that was bound when the last reset came, if one was (R82). -/
  heldAtReset : Option Claim
  warmDue : Option Ns
  uartRate : Nat
  staged : Table PVal
  stagedAt : Ns
  peers : List PeerLane
  counts : LinkCounts
  deriving DecidableEq, Repr

/-! ## Parameters and host link -/

/-- One copy of the parameter store in MRAM (R96). -/
structure StoreCopy where
  vals : Table PVal
  seq : Nat
  deriving DecidableEq, Repr, Inhabited

/-- The parameter space: committed values that differ from their reset value, read-only counters that differ from 0, both
keyed by ID × 65,536 + index, the two store copies, and the parity record of R105–R108. -/
structure Params where
  vals : Table PVal
  counts : Table Nat
  copyA : StoreCopy
  copyB : StoreCopy
  parityTimes : Table (List Ns)
  failed : List Nat
  /-- Registers whose parity has failed and that are being restored (R106). -/
  restoring : List Nat
  deriving DecidableEq, Repr, Inhabited

/-- The host-link window's registers and buffers (Table 3.5). -/
structure HostLink where
  scratch : Word
  ctrl : Word
  attnMask : Word
  ctrlBadParity : Bool
  maskBadParity : Bool
  ctrlTimes : List Ns
  maskTimes : List Ns
  ctrlFailed : Bool
  maskFailed : Bool
  /-- HL_COUNT_A. -/
  crcShort : BitVec 16
  dropped : BitVec 16
  /-- HL_COUNT_B. -/
  pastEnd : BitVec 16
  resetIgnored : BitVec 16
  /-- HL_COUNT_C. -/
  parityFails : BitVec 16
  reservedWrites : BitVec 16
  cmd : List Byte
  overrun : Bool
  /-- The buffer a RING has handed over and the firmware has not taken (R114). -/
  handed : Option (List Byte)
  /-- Response buffer, head first, at most 8 messages (R115). -/
  rsp : List (List Byte)
  /-- Bytes of the head message already read. -/
  readPos : Nat
  /-- Messages that wait for room in the buffer. -/
  waiting : List (List Byte)
  lgSelect : BitVec 6
  sdDate : Word
  sdSub : Word
  nowHi : Word
  /-- HL_ATTN_CAUSE as it last stood (R116). -/
  lastCause : Nat
  deriving DecidableEq, Repr

/-! ## Health -/

/-- Health states (Table 1.7). -/
inductive Health where
  | good | masked | degraded | out
  deriving DecidableEq, Repr, Inhabited

/-- The reported state of a unit and its entry counts (R38). -/
structure UnitHealth where
  state : Health
  masked : Nat
  degraded : Nat
  out : Nat
  deriving DecidableEq, Repr, Inhabited

/-! ## Items -/

/-- A detection as the tracker uses it (Table 5.4). -/
structure Detection where
  stamp : Ns
  point : Pid
  sensor : Nat
  kind : Nat
  direction : Nat
  confidence : Nat
  offset : Int
  speed : Nat
  deriving DecidableEq, Repr, Inhabited

/-- A drive command on its way to a node (R158). `rise` orders Promenade rises before falls before others (R308). -/
structure DriveCmd where
  point : Pid
  launch : Ns
  code : DriveCode
  fade : Nat
  tol : Nat
  shape : Nat
  source : Nat
  /-- 0 Promenade rise, 1 Promenade fall, 2 other. -/
  class_ : Nat
  /-- The final level it realises, for the order of levels (R281). -/
  level : Nat
  /-- The source it was first issued with, where `source` says that it is a revision in place (R161). -/
  base : Nat := 0
  deriving DecidableEq, Repr, Inhabited

/-- A History Store record (Table 12.1): stamp, place, type, info bits above the size field, and body. -/
structure HistRec where
  stamp : Ns
  place : Pid
  type : Nat
  body : List Byte
  deriving DecidableEq, Repr, Inhabited

/-- A downlink PDU other than drive and image PDUs: short address and EUI-64 of the node it is for, the radio that sends
it, ENC (R335), and its element. -/
structure OtherPdu where
  node : Nat
  eui : Eui
  radio : Nat
  enc : Bool
  element : List Byte
  deriving DecidableEq, Repr, Inhabited

/-- What an item carries after its descriptor and origin stamp. -/
inductive Body where
  | raw (bytes : List Byte)
  | drive (c : DriveCmd)
  | detect (d : Detection) (arrival : Ns)
  | record (r : HistRec)
  /-- A plan, override or floor change for one point: launch, fade, tolerance, shape, source and class of the command that
  is to carry it. -/
  | plan (c : DriveCmd)
  /-- A track's coverage of one point opens or closes at a batch's launch instant. -/
  | cover (point : Pid) (opens : Bool) (track : Nat) (at_ : Ns)
  | other (p : OtherPdu)
  /-- The section flow opens the track of the item's flow (R180). -/
  | birth (d : Detection)
  /-- A peer message to, or from, a neighbour (Tables 5.8 and 5.9). -/
  | peer (mac : Mac) (opcode handover : Nat) (payload : List Byte)
  deriving DecidableEq, Repr

/-- A work item (Table 6.1, R260). `order` is its place among all pushes, by which R218 and R261 order items. -/
structure Item where
  flow : Nat
  graph : Nat
  flags : Nat
  enq : Nat
  origin : Ns
  body : Body
  order : Nat := 0
  deriving DecidableEq, Repr

/-! ## Light plan -/

/-- An override (Table 4.4), `start` its effective start. -/
structure Override where
  handle : Nat
  kind : Nat
  mode : Nat
  target : Pid
  section_ : Nat
  flags : Nat
  level : Nat
  cct : Nat
  start : Ns
  finish : Ns
  lateTol : Nat
  fade : Nat
  /-- The fade its end uses. -/
  endFade : Nat
  /-- It has taken effect. -/
  begun : Bool
  /-- The commands for its start and for its end have been issued. -/
  startSent : Bool
  endSent : Bool
  deriving DecidableEq, Repr, Inhabited

/-- A lamp type record (Table 4.5). -/
structure LampType where
  type : Nat
  channels : Nat
  crossover : Nat
  droop : Nat
  dMin : Nat
  diagMs : Nat
  knee : Nat
  slope : Nat
  deriving DecidableEq, Repr, Inhabited

/-- A lamp record (Table 4.6). -/
structure Lamp where
  point : Pid
  section_ : Nat
  type : Nat
  flux0 : Nat
  flux1 : Nat
  cct0 : Nat
  cct1 : Nat
  deriving DecidableEq, Repr, Inhabited

/-- The diagnostic record of a lamp channel (R164–R167): state 0 GOOD, 1 OPEN, 2 UNDIAGNOSED, 3 UNKNOWN; `litRef` is the
module's lit time at the last result. -/
structure ChannelDiag where
  state : Nat
  litRef : Ns
  last : Ns
  /-- A pulse is in progress until this instant. -/
  pulseUntil : Option Ns
  deriving DecidableEq, Repr, Inhabited

/-- A resolved night (R126–R133): civil day number, profile, sun crossings, switch instants, band starts 0–5. -/
structure Night where
  day : Nat
  profile : Nat
  dusk : Option Ns
  dawn : Option Ns
  lit : Bool
  on : Ns
  off : Ns
  bands : List (Option Ns)
  skipped : Nat
  /-- What the photocell has done to it (R129): the switch-on it has moved, that it holds the switch-off back, and the switch-off
  it has moved. -/
  movedOn : Option Ns := none
  offHeld : Bool := false
  movedOff : Option Ns := none
  deriving DecidableEq, Repr, Inhabited

/-- The photocell (R129): its reading, and the reading that counts. -/
structure Photo where
  dark : Bool
  since : Ns
  /-- The reading that has held for lp.photo_debounce: `some true` dark. -/
  counted : Option Bool
  deriving DecidableEq, Repr, Inhabited

/-- Temperature a node last reported (R153). -/
structure TempReport where
  celsius : Int
  at_ : Ns
  deriving DecidableEq, Repr, Inhabited

/-- A notice that is raised at most once per second: when it was last raised, and the counts of the past second with their
instants (R618). -/
structure SecondCounts where
  since : Ns
  recent : List (Ns × Nat × Nat × Nat × Nat)
  deriving DecidableEq, Repr, Inhabited

/-- The light plan and the lamp model. -/
structure Plan where
  overrides : List Override
  types : Table LampType
  lamps : Table Lamp
  diag : Table ChannelDiag
  temps : Table TempReport
  /-- Nights resolved and not yet over, the present one first. -/
  nights : List Night
  /-- Launch instants of the plan commands already issued. -/
  issued : List Ns
  photo : Photo
  /-- Drive commands issued whose launch has not passed, oldest first (R124, R281). -/
  live : List DriveCmd
  /-- Items of changes that wait for room in queue 0x07 (Table 6.2), each with the lane that is answered after it. -/
  held : List (Item × Option (Endpoint × Nat × List Byte))
  /-- Commands the control core is to compute itself (R247), the second of the time base in which it last computed one, and how
  many in that second. -/
  coreHeld : List DriveCmd
  coreSecond : Nat
  coreCount : Nat
  /-- Nanoseconds the base layer has been lit. -/
  litTime : Ns
  late : SecondCounts
  deriving DecidableEq, Repr, Inhabited

/-! ## Promenade -/

/-- A road section (Table 5.1). -/
structure Section where
  number : Nat
  flags : Nat
  start : Nat
  finish : Nat
  length : Nat
  vmax : Nat
  deriving DecidableEq, Repr, Inhabited

/-- A junction (Table 5.2). -/
structure Junction where
  number : Nat
  kind : Nat
  portal : Nat
  neighbour : Nat
  peerPortal : Nat
  deriving DecidableEq, Repr, Inhabited

/-- Track states (Table 5.5). -/
inductive TrackState where
  | tentative | confirmed | shadow
  deriving DecidableEq, Repr, Inhabited

/-- The part of a track that a handover gives it (R204–R209). -/
structure Handover where
  id : Nat
  /-- Local portal. -/
  portal : Nat
  /-- MAC address of the neighbour. -/
  peer : Mac
  crossing : Ns
  launch : Ns
  leadBeyond : Nat
  gate : Nat
  /-- Some message of it has been answered (R210); it has been counted as lost. -/
  answered : Bool
  lost : Bool
  deriving DecidableEq, Repr, Inhabited

/-- A live track (R177–R188). Positions in 10⁻⁹ cm, signed speeds in 0.01 m/s. `heard` is the instant of the newest evidence
that it is alive. -/
structure Track where
  number : Nat
  state : TrackState
  /-- Kind last reported, 0 if none. -/
  reported : Nat
  section_ : Nat
  pos : Int
  speed : Int
  tLast : Ns
  heard : Ns
  lastBatch : Ns
  since : Ns
  /-- Stamp of the detection that opened it. -/
  opened : Ns
  covered : List Pid
  /-- Open handovers of a confirmed track, one for each portal its rise window reaches. -/
  sent : List Handover
  /-- Handover that made the shadow. -/
  received : Option Handover
  deriving DecidableEq, Repr, Inhabited

/-- A point's Promenade level and what governs it (R189–R197). -/
structure PointCover where
  /-- Direction of its last change: up. -/
  active : Bool
  /-- Instant its present covering opened. -/
  openAt : Ns
  /-- Tracks that cover it. -/
  tracks : List Nat
  /-- Instant its last covering closed, and the instant that covering had opened; the fall launches pm.hold_s after the close. -/
  closedAt : Option Ns
  heldFrom : Ns := 0
  /-- Instants of its direction changes in the last 60 s. -/
  changes : List Ns
  flapUntil : Option Ns
  /-- A deferred fall waits since this instant. -/
  deferredAt : Option Ns
  /-- Launch instant and level of the newest command sent to it (R195, R281). -/
  lastLaunch : Ns
  lastLevel : Nat := 0
  /-- Commands that R195 has moved, newest last: the launch asked for and the one given. -/
  moved : List (Ns × Ns) := []
  deriving DecidableEq, Repr, Inhabited

/-- Coverage that belongs to no track (R202, R207): points, and when it closes. -/
structure LooseCover where
  /-- Its number among the coverers of a point, from 1000. -/
  number : Nat
  points : List Pid
  until_ : Ns
  /-- The sender and ID of the handover it stands for (R207 result 1). -/
  handover : Option (Mac × Nat)
  deriving DecidableEq, Repr, Inhabited

/-- The launch instant of a track's batch (R192): as the track flow set it, and once its first command has entered the egress
queue, the one that all its commands carry. -/
structure BatchLaunch where
  track : Nat
  launch : Ns
  settled : Option Ns
  deriving DecidableEq, Repr, Inhabited

/-- Promenade. -/
structure Prom where
  sections : Table Section
  junctions : Table Junction
  places : Table Nat
  tracks : Table Track
  cover : Table PointCover
  loose : List LooseCover
  batches : List BatchLaunch
  nextHandover : Nat
  load : SecondCounts
  deriving DecidableEq, Repr, Inhabited

/-! ## Flow engines, queues, Backstep -/

/-- A queue of the queue manager (R248–R253): `last` is the item most recently popped; `second` the second of its last
QUEUE_LEVEL; `later` says that crossings came after that notice in the same second. -/
structure Queue where
  items : List Item
  last : Option Item
  second : Nat
  later : Bool
  /-- Operations of the last 1,024 completed items taken from it (R227). -/
  ops : List Nat
  deriving DecidableEq, Repr

/-- A graph's internal queue as its image declares it (R240, R257). -/
structure QueueSpec where
  capacity : Nat
  reserve : Nat
  deadline : Nat
  priority : Nat
  deriving DecidableEq, Repr, Inhabited

/-- The queue manager: queues by number, the pool's retired cells and their error instants (R254). -/
structure Qm where
  queues : Table Queue
  specs : Table QueueSpec
  retired : List Nat
  corrected : Table (List Ns)
  /-- Pushes made. -/
  pushed : Nat
  /-- Room a radio has reserved for the items of the frame being delivered: queue and number (R225). -/
  claims : List (Nat × Nat)
  deriving DecidableEq, Repr

/-- Why an item is served (Table 7.3). -/
inductive Pass where
  | first | replayed | late | tick
  deriving DecidableEq, Repr, Inhabited

/-- An item waiting in its flow's hold list, or on an engine: its queue, pass, context flags, the instant of its first
service when it is replayed, and whether an engine was retired while serving it (R230). -/
structure Work where
  item : Item
  queue : Nat
  pass : Pass
  /-- Table 7.3 flags: [0] STRAGGLER, [1] UNSTAMPED, [2] CAPPED, [3] UNPROTECTED. -/
  context : Nat
  behind : Nat
  firstAt : Option Ns
  retiredOnce : Bool
  /-- Descriptor bits NO_STATE and STATE_LOST the scheduler set. -/
  mark : Nat
  /-- The stamp under which the flow's log holds it, where that is not its own (R270), and its place among the flow's services. -/
  place : Option Ns := none
  serial : Nat := 0
  /-- Checkpoints its flow held when it was dispatched (Table 7.3). -/
  ckpts : Nat := 0
  /-- Room the scheduler has reserved for its pushes: queue and number (R221). -/
  room : List (Nat × Nat) := []
  /-- Its graph has stopped: its flow is freed when it completes (R244), and after a swap the flow of the same number in graph `heir`
  waits for it (R243). -/
  freed : Bool := false
  heir : Option Nat := none
  /-- It runs on the code of a graph that has handed its queues over: their first number, how many, and the first of the graph that
  has them now (R243, R245). -/
  moved : Option (Nat × Nat × Nat) := none
  /-- The graph that serves it runs Promenade (log entry 6). -/
  standard : Bool := false
  deriving DecidableEq, Repr

/-- A flow engine (R215, R219, R228–R232). State as fe.engine_state; `scratch` is the draw (log entry 3) whose value its scratch
memory held when its item started, and `old` the parameters its item completes on where they have changed since (R95). -/
structure Engine where
  state : Nat
  cur : Option Work
  next : Option Work
  items : Nat
  retirements : Nat
  times : List Ns
  scratch : Nat
  old : Option (Table PVal)
  deriving DecidableEq, Repr

/-- What the module reads from an accepted graph image (R240, R262, Table 6.8). `limits` gives, for the queue a node
consumes and a queue it pushes to, the declared most pushes; `ordered` the flow ranges declared ORDERED; `edges` the queue an internal queue's consumers push
to. -/
structure GraphInfo where
  imageId : Nat
  version : Nat
  layout : Nat
  nodes : Nat
  flows : Nat
  codeBytes : Nat
  consumes : Nat
  produces : Nat
  queues : List QueueSpec
  edges : List (Nat × Nat)
  limits : List (Nat × Nat × Nat)
  ordered : List (Nat × Nat)
  deriving DecidableEq, Repr, Inhabited

/-- Graph slot states (Table 6.8). -/
inductive SlotState where
  | empty | loaded | armed | running | suspended
  deriving DecidableEq, Repr, Inhabited

/-- A graph slot (R239–R246). `change` is a stop or a swap that waits for its boundary: instant and swap target. -/
structure GraphSlot where
  state : SlotState
  info : GraphInfo
  firstQueue : Nat
  instant : Ns
  change : Option (Ns × Option Nat)
  faultTimes : List Ns
  lastFaultRecord : Option Nat
  deriving DecidableEq, Repr, Inhabited

/-- A live flow's state: 64 bytes, its alarm, and the reset mark of R235. -/
structure FlowState where
  bytes : List Byte
  alarm : Option Ns
  lost : Bool
  deriving DecidableEq, Repr, Inhabited

/-- The flow engines, graph slots, flow state and the pace governor. Flows are keyed by graph × 65,536 + flow. -/
structure Fe where
  engines : List Engine
  /-- The instruction store of each Quadrille: the code of the graph in each slot that holds one (R215). -/
  stores : List (Table (List Byte))
  slots : List GraphSlot
  flows : Table FlowState
  hold : Table (List Work)
  fabricMv : Nat
  lastLower : Ns
  deadlineMisses : Nat
  /-- Some queue is past its deadline at 0.90 V (R32). -/
  pastDeadline : Bool
  /-- Dispatches since the last replay dispatch, per Quadrille (Table 1.6). -/
  sinceReplay : List Nat
  forced : Nat
  missed : Nat
  /-- Items of internal queues that were emptied when their graph stopped (R244). -/
  emptied : Nat
  deriving DecidableEq, Repr

/-- A push an item made, as the log keeps it (R264); `removed` says that a rewind has taken it out of its queue (R288). -/
structure PushRec where
  queue : Nat
  item : Item
  removed : Bool := false
  deriving DecidableEq, Repr

/-- A checkpoint (R263): the flow as it stood before its item of stamp `stamp`, whose service was number `serial`. One that an
error has cost its contents is `lost`: its record is free, and a rewind that needs it is unprotected (R285). -/
structure Checkpoint where
  stamp : Ns
  serial : Nat
  lost : Bool
  bytes : List Byte
  alarm : Option Ns
  /-- The track the flow keeps, where it is a track flow of the standard graph. -/
  track : Option Track
  /-- The cover of the point, where it is a point flow of the standard graph. -/
  cover : Option PointCover
  deriving DecidableEq, Repr, Inhabited

/-- A log entry (R264), in the order of services; `context` holds the flags the item was served with (R270), and `lost` is as a
checkpoint's. -/
structure LogEntry where
  stamp : Ns
  serial : Nat
  context : Nat
  lost : Bool
  item : Item
  queue : Nat
  firstAt : Ns
  pushes : List PushRec
  deriving DecidableEq, Repr

/-- A replay in progress (R271–R275): the number of services at its start, the stamp of the checkpoint it began from, what was retracted,
and what the replay has made, each with the number of the service that made it. -/
structure Replay where
  since : Nat
  from_ : Ns
  retracted : List PushRec
  made : List (Nat × PushRec)
  late : Ns
  queue : Nat
  left : Nat
  deriving DecidableEq, Repr

/-- A revision in place that a node has not acknowledged: its point, launch and tolerance in ms, the stamp of the late item that
brought it, and the level of the command that the node then still holds (R282). -/
structure Revision where
  point : Pid
  launch : Ns
  tol : Nat
  late : Ns
  level : Nat
  deriving DecidableEq, Repr, Inhabited

/-- Backstep: horizon, checkpoints and log per flow, newest completed stamps, replays (R260–R292). -/
structure Backstep where
  horizon : Ns
  ckpts : Table (List Checkpoint)
  log : Table (List LogEntry)
  newest : Table Ns
  replays : Table Replay
  revisions : List Revision
  /-- The item being served is replayed: its pushes are gathered for the reconciliation (R279). -/
  replaying : Bool
  /-- Graph, flow and origin stamp of the item whose program runs, and what it has pushed beside what it answers (R260, R264). -/
  serving : Option (Nat × Nat × Ns)
  gathered : List PushRec
  /-- Services of ORDERED items so far. -/
  serial : Nat
  /-- Retracted pushes whose consuming flow has an item in service, which its rewind waits for (R271, R280), each with the stamp of the
  late item. -/
  waiting : List (PushRec × Ns)
  load : SecondCounts
  deriving DecidableEq, Repr

/-! ## Mesh -/

/-- The five parameters a radio adopts when it starts afresh (R298). -/
structure BandPlan where
  phy : Nat
  panId : Nat
  ch0 : Nat
  spacing : Nat
  hop : List Byte
  deriving DecidableEq, Repr, Inhabited

/-- A radio (R296–R300, R317). `skipping` counts the kinds of transmission that it skips for its duty (R300), and `sent` lists its
transmissions of the last hour: instant and duration. -/
structure Radio where
  selfTestFailed : Bool
  skipping : Nat
  sent : List (Ns × Ns)
  counter : Nat
  committed : Nat
  rx : Nat
  tx : Nat
  ccaBusy : Nat
  acksWithheld : Nat
  deriving DecidableEq, Repr, Inhabited

/-- A cell of a node's schedule (Table 8.13). -/
structure Cell where
  slotframe : Nat
  timeslot : Nat
  offset : Nat
  options : Nat
  neighbour : Nat
  deriving DecidableEq, Repr, Inhabited

/-- A node of the mesh (R313–R334, Table 8.15): state 0 NONE, 1 JOINED, 2 SILENT, 3 LEAVING. -/
structure Node where
  point : Pid
  eui : Eui
  short : Nat
  state : Nat
  radio : Nat
  backup : Nat
  parent : Nat
  depth : Nat
  rssi : Int
  drift : Nat
  caps : Nat
  imageType : Nat
  imageId : Nat
  /-- Instants of `mono`: last contact (R319) and last accepted PDU (R334). -/
  lastContact : Ns
  lastPdu : Ns
  /-- Link counters per key index: index, c_max, MIC of the frame at c_max. -/
  links : List (Nat × Nat × Word)
  /-- Origin window: o_max and the map of the 64 counters below (R314). -/
  oMax : Option Nat
  oMap : BitVec 64
  schedule : List Cell
  /-- Counters of its last STATUS, modulo 2¹⁶, once it has sent one. -/
  reported : Bool
  lateExec : Nat
  lateDisc : Nat
  /-- Its last ENERGY report: boundary, mWh counter, v_avg. -/
  energyAt : Ns
  energy : Nat
  vAvg : Nat
  /-- Its ENERGY reports of the last windows, newest last: boundary in mesh time, mWh counter, v_avg (R391). -/
  reports : List (Ns × Nat × Nat)
  /-- Reason of a LEAVE that waits to be sent, 0 for none, and that it has been sent since the node was last heard. -/
  leave : Nat
  leaveSent : Bool
  /-- A NETKEY waits to be sent. -/
  rekey : Bool
  /-- Its last IMAGE_STATUS: image ID, result, first missing block. -/
  imageFor : Nat
  imageResult : Nat
  imageMissing : Nat
  /-- Image ID of the activation it was last judged against (R546). -/
  judged : Nat
  /-- An admission whose STATUS has not come yet (Table 8.7). -/
  joining : Bool
  deriving DecidableEq, Repr, Inhabited

/-- A downlink frame that waits for its acknowledgement (R315): the neighbour it goes to, the node its PDU is for, the
PDU's origin counter, and the drive entries it carries. `attempts` counts its transmissions. -/
structure Flight where
  id : Nat
  radio : Nat
  neighbour : Nat
  target : Eui
  pdu : List Byte
  ctr : Nat
  entries : List DriveCmd
  attempts : Nat
  /-- It was first sent in an other-downlink cell, and is repeated in these. -/
  inOther : Bool := false
  sentAt : Ns
  acked : Bool
  /-- Reason of the LEAVE it carries, 0 for none; it carries a SCHEDULE. -/
  leave : Nat
  schedule : Bool
  deriving DecidableEq, Repr, Inhabited

/-- A probe in progress (R352, R355): `waiter` is the lane that its reply answers, none once the session has lapsed. -/
structure Probe where
  point : Pid
  kind : Nat
  tag : Nat
  sentAt : Ns
  waiter : Option (Endpoint × Nat)
  deriving DecidableEq, Repr

/-- A node image being broadcast (R544): image ID, kind, and per radio the next block or half block and when the last one
left. `done` counts whole passes. -/
structure Broadcast where
  imageId : Nat
  kind : Nat
  next : List Nat
  sentAt : List Ns
  deriving DecidableEq, Repr, Inhabited

/-- The mesh. -/
structure Mesh where
  band : BandPlan
  radios : List Radio
  /-- Nodes by EUI-64. -/
  nodes : Table Node
  /-- EUI-64 to PID48 (R325). -/
  map : Table Pid
  /-- Mesh time and Δ (R305): the instant of `mono`, the mesh time and Δ at the start of each stretch in which the time
  base has not stepped, newest last, over the last 16 s. -/
  stretches : List (Ns × Ns × Int)
  keyIndex : Nat
  /-- A rolled key: its index and activation instant. -/
  nextKey : Option (Nat × Ns)
  oldKey : Option (Nat × Ns)
  keyMadeAt : Ns
  flights : List Flight
  nextFlight : Nat
  probes : List Probe
  nextTag : Nat
  broadcasts : List Broadcast
  /-- Activation blocks that wait for a cell: radio, image ID, instant (R546). -/
  activations : List (Nat × Nat × Ns)
  /-- When NODE_UNKNOWN was last raised for an EUI-64 (R326). -/
  unknownAt : Table Ns
  /-- The highest origin counter of a join seen from an EUI-64 (Table 8.7). -/
  joinCtr : Table Nat
  /-- Downlink origin counters by EUI-64 (R336). -/
  downCtr : Table Nat
  /-- The second of the time base in which LEAVEs of R329 were last sent, and how many. -/
  leaveSecond : Nat
  leaveCount : Nat
  load : SecondCounts
  deriving DecidableEq, Repr

/-! ## Metering -/

/-- The four energy registers of a circuit, in µWh and µvarh, with their residues in 2⁻³² (R371, R372). -/
structure Registers where
  imp : Nat
  exp : Nat
  lag : Nat
  lead : Nat
  impRes : Nat
  expRes : Nat
  lagRes : Nat
  leadRes : Nat
  deriving DecidableEq, Repr, Inhabited

/-- A cycle summary being gathered (Table 9.4): sums over its cycles, of squares in (0.01 V)² and (0.1 mA)² for the RMS
values, each cycle weighted once (R380, R381). -/
structure Summary where
  flags : Nat
  cycles : Nat
  v2 : Nat
  freq : Nat
  i2 : Nat
  p : Int
  q1 : Int
  p1 : Int
  dImp : Nat
  dExp : Nat
  dLag : Nat
  dLead : Nat
  thdV : Nat
  thdI : Nat
  gain : Nat
  deriving DecidableEq, Repr, Inhabited

/-- What a circuit's metering gave at an end of a reconciliation window: the mesh instant, the two active registers, and the
voltage sum and cycle count of the phase since power came up (R390, R395). -/
structure WindowEnd where
  mesh : Ns
  imp : Nat
  exp : Nat
  vSum : Nat
  vCount : Nat
  deriving DecidableEq, Repr, Inhabited

/-- Reconciliation of a circuit (R390–R396): its last result (Table 9.14), the run of ANOMALY or NEGATIVE windows, whether the
notice stands, the window ends metered and not yet judged, and the end of the last window judged. -/
structure Recon where
  state : Nat
  start : Ns
  finish : Ns
  reported : Nat
  expected : Nat
  eM : Int
  eL : Int
  eC : Int
  eU : Int
  loc : Nat
  fraction : Nat
  upstream : Pid
  downstream : Pid
  iX : Nat
  fit : Nat
  position : Nat
  run : Nat
  raised : Bool
  ends : List WindowEnd
  judgedTo : Ns
  deriving DecidableEq, Repr, Inhabited

/-- What one cycle of a circuit measured: raw sums whose unit the scales give (Metering.lean), squares in (0.01 V)² and
(0.1 mA)², the frequency in mHz and both THDs in 0.01 % (R368). -/
structure CycleVals where
  p : Int
  q1 : Int
  p1 : Int
  v2 : Nat
  i2 : Nat
  freq : Nat
  thdV : Nat
  thdI : Nat
  deriving DecidableEq, Repr, Inhabited

/-- What a record over a second or a minute is made from: the registers at its start, and over its cycles the number, the sums of the
squared voltage and current and of the powers, the flags, and the gain of the last; for a minute also the least and the greatest power
of its seconds, their number, and of those the ones the circuit was commanded ON in. -/
structure RecordSum where
  base : Registers
  cycles : Nat
  v2 : Nat
  i2 : Nat
  p : Int
  q1 : Int
  flags : Nat
  gain : Nat
  pMin : Int
  pMax : Int
  seconds : Nat
  on : Nat
  deriving DecidableEq, Repr, Inhabited

/-- A circuit's metering state: its registers, and as they stood at the start of the last cycle, with that cycle's two ends
(R374); its readings; gain step 0–3, peaks of the last 8 cycles, cycles since the gain last changed (R363, R386); RMS current
of the last cycle and whether the last two lay within 10 %; what waits for a gap fill to end: time and cycles (R389). -/
structure MeterCircuit where
  regs : Registers
  prev : Registers
  cycleStart : Ns
  cycleEnd : Ns
  row : MeterRow
  gain : Nat
  peaks : List Nat
  sinceSwitch : Nat
  lastI : Nat
  steadyI : Bool
  last : CycleVals
  gapNs : Ns
  gapCycles : Nat
  summary : Summary
  /-- The unsent summary of a full queue (R381). -/
  folded : Option Summary
  /-- Its registers at the last Ledger boundary that a cycle has reached: the boundary and the values. -/
  ledger : Option (Ns × Registers)
  vSum : Nat
  vCount : Nat
  recon : Recon
  /-- What the second and the minute under way have gathered for CIRCUIT_SECOND and DIGEST_CIRCUIT. -/
  second : RecordSum
  minute : RecordSum
  /-- Samples at the start of the next cycle that still settle (R364). -/
  settling : Nat
  deriving DecidableEq, Repr, Inhabited

/-- A voltage input: sums of 1 / T_c in µHz and their number since the last report, and the last report (R369); sums for the
10-cycle voltage; v_rms of the latest summary; Urms(1/2) in nV at the input times mt.v_scale and the points of the last half cycle
(R382); least and greatest 10-cycle voltage of the present interval (R375); whether its last cycle was NO_SYNC. -/
structure MeterInput where
  freqSum : Nat
  freqCount : Nat
  freq : Nat
  half : List Int
  vRms : Nat
  tenV2 : Nat
  tenN : Nat
  vMin : Nat
  vMax : Nat
  urms : Nat
  noSync : Bool
  freqDone : Ns
  deriving DecidableEq, Repr, Inhabited

/-- A voltage event (Table 9.13): `extreme` in the units of Urms(1/2), `since` its start on `mono`, `raised` once PQ_EVENT flagged
OPEN has gone. -/
structure PqEvent where
  kind : Nat
  inputs : Nat
  flags : Nat
  extreme : Nat
  start : Ns
  since : Ns
  duration : Nat
  seq : Nat
  raised : Bool
  deriving DecidableEq, Repr, Inhabited

/-- A converter: 0–47 the circuits', 48–50 the voltage inputs' (R386–R389). `lastCal` is the instant on `mono` of its last
completed calibration and `calStamp` its Stamp64; `step` counts the cycles of a running calibration. -/
structure Converter where
  lastCal : Ns
  calStamp : Ns
  step : Option Nat
  forced : Bool
  gapFill : Bool
  failed : Bool
  standIn : Bool
  deriving DecidableEq, Repr, Inhabited

/-- A checkpoint slot of the energy registers (R376). -/
structure MeterSlot where
  regs : Table Registers
  stamp : Ns
  seq : Nat
  final : Bool
  deriving DecidableEq, Repr, Inhabited

/-- A span record (Table 9.8). -/
structure Span where
  point : Pid
  upstream : Pid
  rLoop : Nat
  deriving DecidableEq, Repr, Inhabited

/-- The metering island and reconciliation. -/
structure Meter where
  working : Bool
  circuits : Table MeterCircuit
  inputs : List MeterInput
  converters : Table Converter
  slotA : MeterSlot
  slotB : MeterSlot
  opened : List PqEvent
  ended : List PqEvent
  pqSeq : Nat
  nextSnapshot : Nat
  spans : Table Span
  offsets : Table Int
  /-- Event counts of the present Ledger interval: sag, swell, interruption. -/
  counts : List Nat
  /-- The restored checkpoint's stamp and the restart instant the next Ledger record carries (R376). -/
  restart : Option (Ns × Ns)
  /-- Circuits clipped since the last Ledger boundary. -/
  clippedSince : List Nat
  /-- The last Ledger boundary handed over or stepped past. -/
  ledgerDone : Ns
  lastCheckpoint : Ns
  /-- Spare converters that have failed. -/
  sparesFailed : Nat
  deriving DecidableEq, Repr, Inhabited

/-! ## Output chain -/

/-- A circuit as the output chain switches it (R413–R416). -/
structure ChainCircuit where
  plan : Bool
  commanded : Bool
  lastChange : Option Ns
  lastStamp : Ns
  dwellWait : Bool
  inrushWait : Bool
  sensed : Nat
  deriving DecidableEq, Repr, Inhabited

/-- A circuit force (R415): mode 0 AUTO, 1 ON, 2 OFF. -/
structure Force where
  mode : Nat
  start : Ns
  finish : Ns
  begun : Bool
  deriving DecidableEq, Repr, Inhabited

/-- A latch as its readback shows it (R409): state 0 OK, 1 NO_READBACK, 2 CLAIM_REJECT, 3 FALLBACK. -/
structure Latch where
  state : Nat
  bad : Nat
  claim : Claim
  straps : Nat
  sensed : Nat
  shorts : Nat
  lastSeq : Nat
  deriving DecidableEq, Repr, Inhabited

/-- The output chain. `phase` 0: the next cycle sends NOP; 1: the next sends the sensed levels; 2: commanded states. -/
structure Chain where
  circuits : Table ChainCircuit
  forces : Table Force
  /-- The force in effect while a later one waits for its start (as R142). -/
  current : Table Force
  latches : List Latch
  seq : BitVec 8
  phase : Nat
  lastCycle : Ns
  /-- A cycle is due at once (R406). -/
  due : Bool
  lastOn : Option Ns
  deriving DecidableEq, Repr, Inhabited

/-! ## Ring and network time -/

/-- An entry of a port's duplicate table (R427): source, sequence, when seen, delivered locally, left by the port. -/
structure DupEntry where
  src : Mac
  seq : BitVec 16
  at_ : Ns
  deriving DecidableEq, Repr, Inhabited

/-- A frame in a launch-time queue (R437). -/
structure LaunchFrame where
  launch : Ns
  tol : Ns
  frame : RingFrame
  deriving DecidableEq, Repr

/-- A frame delivered and waiting for its second copy (R428). -/
structure SecondCopy where
  src : Mac
  seq : BitVec 16
  port : Port
  crc : Word
  at_ : Ns
  deriving DecidableEq, Repr

/-- A ring port (Tables 11.1, 11.2, 11.9). -/
structure RingPort where
  mode : Nat
  link : LinkInfo
  target : Nat
  lastSpeedChange : Option Ns
  verified : Bool
  verifyTries : Nat
  verifyAt : Ns
  verifyFailed : Bool
  lpi : Bool
  /-- Both ends advertised EEE when the link last came up, this one as ring.lpi_enable then stood (R424, R452). -/
  eee : Bool
  pausedUntil : Option Ns
  renegotiating : Bool
  delayValid : Bool
  delayInvalidSince : Ns
  okRun : Nat
  failRun : Nat
  delays : List Ns
  delay : Ns
  ratio : Int
  /-- A request waits for its response, and when the last one left. -/
  asked : Bool
  askedAt : Ns
  mismatchAt : Option Ns
  returnedAt : Option Ns
  tx : Nat
  rx : Nat
  firsts : Nat
  seconds : Nat
  lone : Nat
  mismatches : Nat
  returned : Nat
  drops : Nat
  left : List DupEntry
  expressQ : List LaunchFrame
  preemptQ : List LaunchFrame
  /-- Forwarded preemptable frames that a pause holds back (R435, R436). -/
  fwdQ : List RingFrame
  txEmptySince : Ns
  deriving DecidableEq, Repr

/-- The ring. -/
structure Ring where
  a : RingPort
  b : RingPort
  closed : Bool
  /-- Segment to MAC address (R432). -/
  peers : Table Mac
  /-- Last instant each MAC was heard on A and on B (R429). -/
  heardA : List (Mac × Ns)
  heardB : List (Mac × Ns)
  delivered : List DupEntry
  copies : List SecondCopy
  seq : BitVec 16
  mismatchSecond : Option Nat
  supSeq : Nat
  /-- When the last supervision frame was made (R429). -/
  lastSup : Ns
  deriving DecidableEq, Repr

/-- Time states (Table 11.6). -/
inductive TimeState where
  | free | locking | locked | holdover | grandmaster
  deriving DecidableEq, Repr, Inhabited

/-- A held correction of a two-step Sync (R445), with the ingress stamp for the offset. -/
structure HeldSync where
  port : Port
  master : BitVec 64
  seq : BitVec 16
  sum : Int
  /-- The Sync's own correction field. -/
  corr : Int
  ingress : Int
  at_ : Ns
  deriving DecidableEq, Repr

/-- Network time. -/
structure Ptp where
  state : TimeState
  master : Option AnnounceMsg
  /-- Announce data sets last heard on A and B, with their instants. -/
  heard : List (Port × AnnounceMsg × Ns)
  offset : Int
  freq : Int
  bias : Int
  active : Port
  lockRun : Nat
  outlierRun : Nat
  outliers : List Int
  lastSync : Option Ns
  lastA : Option Ns
  lastB : Option Ns
  oA : Option (BitVec 16 × Int)
  oB : Option (BitVec 16 × Int)
  missed : Nat
  bothRun : Nat
  holdoverSince : Ns
  lastStep : Ns
  ignore : Option (BitVec 64)
  held : List HeldSync
  utcAnnounced : Option Int
  ppsEdge : Option Ns
  ppsSteady : Option Ns
  ppsMissing : Bool
  secondsSet : Bool
  /-- Its time was valid when it became grandmaster (R439). -/
  gmValid : Bool
  /-- A TIME_SEED that waits for the next PPS_IN edge, and the lanes to be answered then (R451). -/
  seed : Option Ns
  seedWaiters : List (Endpoint × Nat)
  /-- The sync interval its master announces (Table 11.6). -/
  interval : Ns
  /-- What follows from network time becoming valid has been done. -/
  validTold : Bool
  /-- VKM-16C extension pair and its instant (R441). -/
  rawRef : Nat
  extRef : Nat
  refAt : Ns
  deriving DecidableEq, Repr

/-! ## History Store -/

/-- A stored record: its index stamp, its NO_TIME mark, its append sequence. -/
structure Stored where
  index : Ns
  noTime : Bool
  append : Nat
  rec_ : HistRec
  /-- Its codeword can no longer be corrected. -/
  lost : Bool
  deriving DecidableEq, Repr, Inhabited

/-- A block of the medium in a tier (R463, R472–R475). -/
structure Block where
  number : Nat
  package : Nat
  erases : Nat
  reads : Nat
  recs : List Stored
  /-- Bytes its records take. -/
  used : Nat
  refresh : Bool
  deriving DecidableEq, Repr, Inhabited

/-- A tier: its blocks, oldest first, and its size in blocks. -/
structure Tier where
  blocks : List Block
  size : Nat
  newestProgrammed : Ns
  /-- Bytes appended in the hour under way, its start on `mono`, and the bytes of the last whole hour, for hs.retain_est. -/
  hourBytes : Nat
  hourStart : Ns
  lastHour : Option Nat
  deriving DecidableEq, Repr, Inhabited

/-- Records that a cursor can no longer return (R469): least and greatest index stamp, cause of the GAP, number. -/
structure GoneRecs where
  first : Ns
  last : Ns
  cause : Nat
  count : Nat
  deriving DecidableEq, Repr

/-- A cursor (R466–R470). -/
structure Cursor where
  id : Nat
  ep : Endpoint
  tier : Nat
  hide : Bool
  mode : Nat
  place : Pid
  types : Nat
  from_ : Ns
  to_ : Ns
  cutoff : Ns
  /-- Records appended before this are the cursor's. -/
  appended : Nat
  /-- Index stamp and append sequence of the last record returned. -/
  after : Option (Ns × Nat)
  lastUse : Ns
  /-- hs.oldest of the tier when it was opened. -/
  agedTold : Bool
  oldest : Ns
  /-- What has been turned over or lost since. -/
  gone : List GoneRecs
  deriving DecidableEq, Repr

/-- A block's background work under way, in steps of 1 MiB (R476): what it is, the block, the steps run, and whether one of them met an
uncorrectable codeword or failed a program or an erase. -/
structure BackWork where
  kind : ScrubKind
  block : Nat
  done : Nat
  uncorrectable : Bool
  failed : Bool
  deriving DecidableEq, Repr

/-- The minute under way for DIGEST_SEGMENT: its end, records appended in it by type, the counters at its start, the worst health and
the least and greatest fabric supply met. -/
structure MinuteSum where
  finish : Ns
  counts : Table Nat
  base : Table Nat
  worst : Nat
  low : Nat
  high : Nat
  deriving DecidableEq, Repr

/-- The History Store. -/
structure Hist where
  tiers : List Tier
  cursors : List Cursor
  nextCursor : Nat
  appendSeq : Nat
  spare : Nat
  /-- The first block no tier has used yet; erased blocks that are free; erase counts by block. -/
  nextBlock : Nat
  freed : List Nat
  erases : Table Nat
  packages : List Bool
  /-- A tier has given a block to replace a retired one (R478); no block is left for the Ledger. -/
  shrunk : Bool
  ledgerStuck : Bool
  /-- Ledger records staged in MRAM (R459). -/
  staged : List HistRec
  /-- Instant since which queue 0x0A has waited without programming (R460). -/
  stallSince : Option Ns
  /-- Records discarded since it stalled: least and greatest stamp, number, and a mask of their types. -/
  discarded : Option (Ns × Ns × Nat × Nat)
  lastScrub : Ns
  work : Option BackWork
  /-- Steps forced ahead of the query or append that waits (R476). -/
  forced : Nat
  minute : MinuteSum
  /-- HIST_GAP notices: cause and second of the last (Table 12.6). -/
  gapSeconds : Table Nat
  deriving DecidableEq, Repr

/-! ## Recorder and counters -/

/-- A recorder record (Table 13.1) before it is written. `badCrc` is the CRC it is stored with, where that fails (R488). -/
structure RecEntry where
  seq : Nat
  /-- It has its sequence. -/
  numbered : Bool
  /-- Its place among all events. -/
  order : Nat
  opSeconds : Nat
  cycles : Nat
  event : Nat
  unit : Nat
  flags : Nat
  stamp : Ns
  data : List Byte
  badCrc : Option Word
  deriving DecidableEq, Repr, Inhabited

/-- The event recorder (R481–R492). Regions hold records oldest first. -/
structure Recorder where
  general : List RecEntry
  pinned : List RecEntry
  queue : List RecEntry
  lastGasp : List RecEntry
  /-- The MRAM copy of step 3 of Table 16.5. -/
  lastGaspCopy : List RecEntry
  mirror : List RecEntry
  /-- Records not yet mirrored, and since when. -/
  unmirrored : List RecEntry
  mirrorSince : Option Ns
  mirrorBehind : Bool
  /-- Sequences of records that have been overwritten, by region (R491). -/
  goneGeneral : List Nat
  gonePinned : List Nat
  /-- Places written, by region. -/
  headGeneral : Nat
  headPinned : Nat
  /-- Sequence of the next record; events recorded. -/
  seq : Nat
  made : Nat
  state : Nat
  failRun : Nat
  lastRetry : Ns
  /-- General records dropped since the last RECORDER_FAULT of cause 3. -/
  overflow : Nat
  deriving DecidableEq, Repr, Inhabited

/-- A counter sample (R498). -/
structure PerfSampleRec where
  counter : Nat
  capture : SampleCapture
  stamp : Ns
  deriving DecidableEq, Repr

/-- A window meter (R500). -/
structure WindowMeter where
  bytes : Nat
  last : Nat
  windowEnd : Ns
  windows : List (Ns × Nat)
  valid : Bool
  window : Nat
  windowStart : Ns
  deriving DecidableEq, Repr, Inhabited

/-- Performance counters and window meters. Counter values are 48 bits. -/
structure Perf where
  values : Table Nat
  /-- Events counted since the last sample. -/
  sinceSample : Table Nat
  samples : List PerfSampleRec
  meters : List WindowMeter
  deriving DecidableEq, Repr, Inhabited

/-! ## Keys -/

/-- A record of a key slot in MRAM (R504–R506, R520): type 0 where it holds no key; the parent slot and its generation where
the key was derived. -/
structure KeyRecord where
  type : Nat
  attrs : Nat
  gen : Nat
  disabled : Bool
  key : List Byte
  parent : Option (Nat × Nat)
  deriving DecidableEq, Repr, Inhabited

/-- A key slot: the record the selector names, the other record (R520), the Shuffle mask of the working copy and when it was
drawn (R524), and whether the last start took the other record or found none (R523). -/
structure KeySlot where
  rec_ : KeyRecord
  older : KeyRecord
  mask : List Byte
  maskedAt : Ns
  recovered : Bool
  lost : Bool
  deriving DecidableEq, Repr, Inhabited

/-- The key store and the life cycle (R527). -/
structure KeyStore where
  slots : List KeySlot
  lifecycle : Nat
  /-- 0 or 1: which of the two network-key role slots is the current one (R510). -/
  netkeyTurn : Nat
  /-- Instants of the ATTESTs answered in the last second (R526). -/
  attests : List Ns
  /-- K_nodes cached by the mesh crypto: EUI-64 and key (R519). -/
  cache : List (Eui × List Byte)
  deriving DecidableEq, Repr, Inhabited

/-! ## Updates -/

/-- An image held or being received: its header and the payload bytes held (R534–R542). -/
structure Image where
  header : List Byte
  payload : List Byte
  accepted : Bool
  deriving DecidableEq, Repr, Inhabited

/-- A firmware slot (R538): 0 EMPTY, 1 VERIFIED, 2 FAILED. -/
structure FirmwareSlot where
  state : Nat
  image : Image
  deriving DecidableEq, Repr, Inhabited

/-- A receipt in progress (R541, R542). `from_ = none` reads the card. -/
structure Receipt where
  image : Image
  from_ : Option Mac
  lastFetch : Ns
  stoppedAt : Option Ns
  deriving DecidableEq, Repr, Inhabited

/-- An arm (R549–R552). -/
structure Arm where
  imageId : Nat
  instant : Ns
  immediate : Bool
  pending : Bool
  rollback : Bool
  deriving DecidableEq, Repr, Inhabited

/-- A card's reading in progress (R548): the files not yet checked, how many there were, how many have been accepted, whether
a check has failed, and the SD_SCAN that waits for its end. -/
structure CardRead where
  left : List ImageFile
  files : Nat
  accepted : Nat
  failed : Bool
  waiter : Option (Endpoint × Nat)
  deriving DecidableEq, Repr

/-- Updates. Firmware state as Table 15.6: 0 IDLE, 1 RECEIVING, 2 VERIFIED, 3 ARMED, 4 TRIAL. -/
structure Update where
  active : Nat
  slots : List FirmwareSlot
  images : List Image
  receipt : Option Receipt
  /-- Receipts that have stopped and keep what they hold (R542). -/
  stopped : List Receipt
  /-- When the next CHAIN_FETCH may be launched (R541). -/
  nextFetch : Ns
  /-- Chain messages that wait for a lane: neighbour, opcode, payload. -/
  waiting : List (Mac × Nat × List Byte)
  arms : Table Arm
  /-- Firmware received stands VERIFIED since (Table 15.3). -/
  fwVerified : Bool
  trialSince : Option Ns
  trialWatchdogs : Nat
  startAt : Ns
  ranSince : Bool
  selectorTurned : Bool
  card : Option CardRead
  /-- Node activations whose instant has passed: kind, image ID, instant. -/
  activated : List (Nat × Nat × Ns)
  /-- When an activation block of a kind was last broadcast (R546). -/
  lastActivation : Table Ns
  deriving DecidableEq, Repr, Inhabited

/-! ## Clock, power, pins -/

/-- Power states (Table 16.4). -/
inductive Power where
  | run | quiet | lastGasp | hold | off
  deriving DecidableEq, Repr, Inhabited

/-- The supervisor. `resetKind` is the kind of a start that is pending; `holdByCommand` tells the two HOLDs apart. -/
structure Supervisor where
  state : Power
  vinMv : Nat
  vbatMv : Nat
  vpaMv : Nat
  /-- pwr.vbat_mv, as last sampled. -/
  vbatShown : Nat
  opSeconds : Nat
  cycles : Nat
  /-- MRAM copies of the two counts (R574). -/
  opCopy : Nat
  cyclesCopy : Nat
  lastReset : Nat
  pendingStart : Option Nat
  holdByCommand : Bool
  /-- VIN has fallen below 4.00 V in a commanded HOLD (R579). -/
  vinLost : Bool
  offByBrownOut : Bool
  slowLost : Bool
  lastGaspSince : Ns
  lastGaspStep : Nat
  shortGasp : Option (Nat × Nat)
  /-- The conditions of R575 other than darkness have held since this instant. -/
  idleSince : Option Ns
  /-- Reading of the RTC, in ns since 2000, at the last periodic wake. -/
  wokeAt : Ns
  /-- A memory error has cost the control core some of its function since the last start (R43). -/
  coreReduced : Bool
  /-- Instant of the last operating second, and when the main domain last lost its supply. -/
  opSecondAt : Ns
  downAt : Ns
  deriving DecidableEq, Repr, Inhabited

/-- A pending RTC_SET (R566): the value, the second 32.768 kHz edge after it reached the slow domain, and the commands that wait for
its load. -/
structure RtcSetReq where
  value : List Byte
  at_ : Ns
  waiters : List (Endpoint × Nat)
  class_ : Nat
  deriving DecidableEq, Repr, Inhabited

/-- The RTC (R564–R570): seconds since 2000-01-01 00:00:00 in the RTC's own count, the weekday counter, and the instant its
running second began. -/
structure Rtc where
  seconds : Nat
  weekday : Nat
  secondAt : Ns
  valid : Bool
  set : Option RtcSetReq
  /-- Last load or comparison, or the instant network time became valid (R568). -/
  lastCompare : Ns
  lastError : Int
  /-- A discipline load waits for the next UTC second. -/
  load : Bool
  correction : Int
  celsius : Int
  /-- Slow-domain values that a commit has changed, by parameter ID: the value that stands, and shows, until the second 32.768 kHz edge
  after the write, and the instant of that edge (R109). -/
  slow : Table (PVal × Ns)
  deriving DecidableEq, Repr, Inhabited

/-- The remaining pins (R610–R612): filtered DOOR and PHOTO. -/
structure Pins where
  doorOpen : Bool
  photoDark : Bool
  deriving DecidableEq, Repr, Inhabited

/-! ## The whole -/

/-- The state of the block. `out` is what the last command handed to the outside; `free` counts the free values drawn (log
entry 3); `pending` is the queue of commands that wait, first in, first out. -/
structure State where
  id : Ident
  clk : Clock
  link : Link
  par : Params
  hl : HostLink
  health : Table UnitHealth
  plan : Plan
  prom : Prom
  fe : Fe
  qm : Qm
  bs : Backstep
  mesh : Mesh
  mt : Meter
  oc : Chain
  ring : Ring
  ptp : Ptp
  hs : Hist
  ev : Recorder
  perf : Perf
  ks : KeyStore
  up : Update
  pwr : Supervisor
  rtc : Rtc
  io : Pins
  out : List Out
  free : Nat
  pending : List Instr
  deriving DecidableEq, Repr

/-! ## Outcomes -/

/-- Reasons a step can stop with a fault. -/
inductive Fault where
  /-- Raised by VIN_RETURN, VIN_BELOW_4V, VBAT_SAMPLE and VPA_CHANGE when the supply named lies beyond Table 17.6: R597 says
  that the module may be damaged and that no behaviour is assured. Safe: the model stops. -/
  | absoluteMaximum
  deriving DecidableEq, Repr

/-- Reasons a step is refused. -/
inductive Refusal where
  /-- Raised by an arm of `exec` for a command that has no meaning yet. Safe: the model stops. -/
  | notModelled (mnemonic : String)
  deriving DecidableEq, Repr

/-! ## Reset

`State.reset` is written part by part. Values the spec gives no reset value for are named in the log entry cited. -/

/-- Serial number, MAC, curve and spare blocks are per module: log entry 5. -/
def Ident.reset : Ident :=
  { order := .vkm48F, serial := 1, mac := 0x020000000007#48, curve := List.replicate 64 0#8 }

/-- R439: without a valid RTC the time base starts from 2020-01-01T00:00:01 TAI. -/
def Clock.reset : Clock := { mono := 0, timeBase := sec }

def Link.reset : Link :=
  { sessions := [], floor := 0#64, floorEp := none, bound := false, heldAtReset := none, warmDue := none,
    uartRate := 115200, staged := [], stagedAt := 0, peers := [],
    counts := { groupFrames := 0, crcDiscards := 0, dirDiscards := 0, uartDiscards := 0, retries := 0 } }

def Params.reset : Params :=
  { vals := [], counts := [], copyA := { vals := [], seq := 0 }, copyB := { vals := [], seq := 0 }, parityTimes := [],
    failed := [], restoring := [] }

/-- Table 3.5, Reset column; DUMMY resets to 8 and HL_ATTN_MASK to 0b0001. -/
def HostLink.reset : HostLink :=
  { scratch := 0#32, ctrl := 0x80#32, attnMask := 1#32, ctrlBadParity := false, maskBadParity := false, ctrlTimes := [],
    maskTimes := [], ctrlFailed := false, maskFailed := false, crcShort := 0#16, dropped := 0#16, pastEnd := 0#16,
    resetIgnored := 0#16, parityFails := 0#16, reservedWrites := 0#16, cmd := [], overrun := false, handed := none,
    rsp := [], readPos := 0, waiting := [], lgSelect := 0#6, sdDate := 0#32, sdSub := 0#32, nowHi := 0#32,
    lastCause := 0 }

/-- No fault present in any unit but the radios, which are OUT as shipped (R297), and the ring ports, whose links are down (log
entry 5). -/
def healthReset : Table UnitHealth :=
  [0x00, 0x01, 0x02, 0x03, 0x04, 0x05, 0x06].map (fun u => (u, { state := .good, masked := 0, degraded := 0, out := 0 }))
    ++ [0x08, 0x09, 0x0A, 0x0B, 0x0C, 0x0D].map (fun u => (u, { state := .out, masked := 0, degraded := 0, out := 0 }))
    ++ [0x0E, 0x0F, 0x10, 0x11, 0x12, 0x13, 0x14, 0x15, 0x16].map
      (fun u => (u, { state := .good, masked := 0, degraded := 0, out := 0 }))

def SecondCounts.reset : SecondCounts := { since := 0, recent := [] }

def Plan.reset : Plan :=
  { overrides := [], types := [], lamps := [], diag := [], temps := [], nights := [], issued := [],
    photo := { dark := false, since := 0, counted := none }, live := [], held := [], coreHeld := [], coreSecond := 0,
    coreCount := 0, litTime := 0, late := .reset }

def Prom.reset : Prom :=
  { sections := [], junctions := [], places := [], tracks := [], cover := [], loose := [], batches := [], nextHandover := 0,
    load := .reset }

/-- The standard graph's internal queue stands allotted (log entry 6). -/
def Qm.reset : Qm :=
  { queues := [], specs := [(0x20, { capacity := 4096, reserve := 512, deadline := 4000, priority := 3 })], retired := [], corrected := [],
    pushed := 0, claims := [] }

/-- What the manual says of the standard graph (R262, after R247); the rest is log entry 6. -/
def GraphInfo.standard : GraphInfo :=
  { imageId := 1, version := 1, layout := 1, nodes := 9, flows := 8192, codeBytes := 65536, consumes := 0x3A7,
    produces := 0xC58, queues := [{ capacity := 4096, reserve := 512, deadline := 4000, priority := 3 }], edges := [],
    limits := [0x00, 0x05, 0x08].flatMap (fun q => [(q, 0x20, 12), (q, 0x06, 2), (q, 0x0A, 2)]) ++
      [0x07, 0x20].flatMap (fun q => [(q, 0x03, 1), (q, 0x0A, 1)]),
    ordered := [(48, 17199)] }

def GraphSlot.empty : GraphSlot :=
  { state := .empty,
    info := { imageId := 0, version := 0, layout := 0, nodes := 0, flows := 0, codeBytes := 0, consumes := 0,
              produces := 0, queues := [], edges := [], limits := [], ordered := [] },
    firstQueue := 0, instant := 0, change := none, faultTimes := [], lastFaultRecord := none }

def Engine.reset : Engine :=
  { state := 0, cur := none, next := none, items := 0, retirements := 0, times := [], scratch := 0, old := none }

/-- The code of the standard graph is what `Config.graphCode` gives for the empty payload (log entry 6). -/
def Fe.reset : Fe :=
  { engines := List.replicate 16 .reset, stores := List.replicate 4 [(0, Config.graphCode [])],
    slots := { GraphSlot.empty with state := .running, info := .standard, firstQueue := 0x20 } ::
      List.replicate 7 GraphSlot.empty,
    flows := [], hold := [], fabricMv := 0, lastLower := 0, deadlineMisses := 0, pastDeadline := false,
    sinceReplay := [0, 0, 0, 0], forced := 0, missed := 0, emptied := 0 }

/-- R292: the horizon starts at the reset instant. -/
def Backstep.reset : Backstep :=
  { horizon := sec, ckpts := [], log := [], newest := [], replays := [], revisions := [], replaying := false,
    serving := none, gathered := [], serial := 0, waiting := [], load := .reset }

def Radio.reset : Radio :=
  { selfTestFailed := false, skipping := 0, sent := [], counter := 0, committed := 0, rx := 0, tx := 0, ccaBusy := 0,
    acksWithheld := 0 }

def Mesh.reset : Mesh :=
  { band := { phy := 0, panId := 0xD250, ch0 := 0, spacing := 0, hop := [] }, radios := List.replicate 4 .reset,
    nodes := [], map := [], stretches := [(0, sec, 0)], keyIndex := 1, nextKey := none, oldKey := none, keyMadeAt := 0,
    flights := [], nextFlight := 0, probes := [], nextTag := 0, broadcasts := [], activations := [], unknownAt := [], joinCtr := [],
    downCtr := [], leaveSecond := 0, leaveCount := 0, load := .reset }

def MeterInput.reset : MeterInput :=
  { freqSum := 0, freqCount := 0, freq := 0, half := [], vRms := 0, tenV2 := 0, tenN := 0, vMin := 0, vMax := 0,
    urms := 0, noSync := false, freqDone := 0 }

def MeterSlot.reset : MeterSlot := { regs := [], stamp := 0, seq := 0, final := false }

def Meter.reset : Meter :=
  { working := true, circuits := [], inputs := List.replicate 3 .reset, converters := [], slotA := .reset,
    slotB := .reset, opened := [], ended := [], pqSeq := 0, nextSnapshot := 1, spans := [], offsets := [],
    counts := [0, 0, 0], restart := none, clippedSince := [], ledgerDone := 0, lastCheckpoint := 0, sparesFailed := 0 }

/-- R408: the first cycle after a reset sends NOP. Latches read OK with nothing sensed until a cycle judges them. -/
def Chain.reset : Chain :=
  { circuits := [], forces := [], current := [],
    latches := List.replicate 8
      { state := 0, bad := 0, claim := 0#64, straps := 0, sensed := 0, shorts := 0, lastSeq := 0 },
    seq := 0#8, phase := 0, lastCycle := 0, due := true, lastOn := none }

/-- Mode straps: integrated copper PHY, link down (log entry 5). -/
def RingPort.reset : RingPort :=
  { mode := 0,
    link := { speed := 0, partnerCopper := false, partnerAuto := false, partnerEee := false, halfDuplexOnly := false },
    target := 3, lastSpeedChange := none, verified := false, verifyTries := 0, verifyAt := 0, verifyFailed := false, lpi := false, eee := false,
    pausedUntil := none, renegotiating := false, delayValid := false, delayInvalidSince := 0, okRun := 0, failRun := 0,
    delays := [], delay := 0, ratio := 0, asked := false, askedAt := 0, mismatchAt := none, returnedAt := none, tx := 0, rx := 0,
    firsts := 0, seconds := 0, lone := 0, mismatches := 0, returned := 0, drops := 0, left := [], expressQ := [],
    preemptQ := [], fwdQ := [], txEmptySince := 0 }

def Ring.reset : Ring :=
  { a := .reset, b := .reset, closed := false, peers := [], heardA := [], heardB := [], delivered := [], copies := [],
    seq := 0#16, mismatchSecond := none, supSeq := 0, lastSup := 0 }

def Ptp.reset : Ptp :=
  { state := .free, master := none, heard := [], offset := 0, freq := 0, bias := 0, active := .A, lockRun := 0,
    outlierRun := 0, outliers := [], lastSync := none, lastA := none, lastB := none, oA := none, oB := none, missed := 0,
    bothRun := 0, holdoverSince := 0, lastStep := 0, ignore := none, held := [], utcAnnounced := none, ppsEdge := none,
    ppsSteady := none, ppsMissing := true, secondsSet := false, gmValid := false, seed := none, seedWaiters := [], interval := sec, validTold := false, rawRef := 0,
    extRef := sec, refAt := 0 }

def MinuteSum.reset : MinuteSum := { finish := 0, counts := [], base := [], worst := 0, low := 0, high := 0 }

/-- The History Store as shipped: tier sizes of Table 12.5 in 4 MiB blocks, 58 GiB, 4.5 GiB and 1.5 GiB or, on the VKM-16C, 14.25 GiB,
1.25 GiB and 0.5 GiB; spare blocks and packages of Table 12.7 (R2). -/
def Hist.shipped (o : OrderCode) : Hist :=
  let small := o == .vkm16C
  { tiers := (if small then [3648, 320, 128] else [14848, 1152, 384]).map (fun n =>
      { blocks := [], size := n, newestProgrammed := 0, hourBytes := 0, hourStart := 0, lastHour := none }),
    work := none, forced := 0, minute := .reset,
    cursors := [], nextCursor := 1, appendSeq := 0, spare := if small then 6000 else 4000, nextBlock := 0, freed := [], erases := [],
    packages := if small then [true] else [true, true], shrunk := false, ledgerStuck := false, staged := [], stallSince := none, discarded := none, lastScrub := 0, gapSeconds := [] }

def Hist.reset : Hist := Hist.shipped .vkm48F

def Recorder.reset : Recorder :=
  { general := [], pinned := [], queue := [], lastGasp := [], lastGaspCopy := [], mirror := [], unmirrored := [],
    mirrorSince := none, mirrorBehind := false, goneGeneral := [], gonePinned := [], headGeneral := 0, headPinned := 0,
    seq := 0, made := 0, state := 0, failRun := 0, lastRetry := 0,
    overflow := 0 }

def WindowMeter.reset : WindowMeter :=
  { bytes := 0, last := 0, windowEnd := 0, windows := [], valid := false, window := 1000, windowStart := 0 }

def Perf.reset : Perf :=
  { values := [], sinceSample := [], samples := [], meters := List.replicate 16 .reset }

def KeyRecord.empty : KeyRecord := { type := 0, attrs := 0, gen := 0, disabled := false, key := [], parent := none }

def KeySlot.empty : KeySlot :=
  { rec_ := .empty, older := .empty, mask := [], maskedAt := 0, recovered := false, lost := false }

def KeyStore.reset : KeyStore :=
  { slots := List.replicate 64 .empty, lifecycle := 0, netkeyTurn := 0, attests := [], cache := [] }

/-- As shipped, the inactive slot holds the previous firmware in state VERIFIED (R539); the headers are log entry 5. -/
def Update.reset : Update :=
  { active := 0,
    slots := List.replicate 2
      { state := 1, image := { header := List.replicate 16 0#8 ++ [1#8] ++ List.replicate 175 0#8, payload := [], accepted := true } },
    images := [], receipt := none, stopped := [], nextFetch := 0, waiting := [], arms := [], fwVerified := false, trialSince := none, trialWatchdogs := 0, startAt := 0, ranSince := true,
    selectorTurned := false, card := none, activated := [], lastActivation := [] }

/-- The supplies stand at the typical values of Table 17.7 (log entry 5); the two measured parameters read 0. -/
def Supervisor.reset : Supervisor :=
  { state := .run, vinMv := 5000, vbatMv := 3000, vpaMv := 5000, vbatShown := 0, opSeconds := 0,
    cycles := 0, opCopy := 0, cyclesCopy := 0, lastReset := 0, pendingStart := none, holdByCommand := false,
    vinLost := false, offByBrownOut := false, slowLost := false, lastGaspSince := 0, lastGaspStep := 0,
    shortGasp := none, idleSince := some 0, wokeAt := 0, coreReduced := false, opSecondAt := 0, downAt := 0 }

/-- The RTC's running count starts from 2000-01-01 00:00:00, which is not valid (R564; log entry 5). -/
def Rtc.reset : Rtc :=
  { seconds := 0, weekday := 0, secondAt := 0, valid := false, set := none, lastCompare := 0, lastError := 0,
    load := false, correction := 0, celsius := 25, slow := [] }

/-- Unconnected DOOR reads open and unconnected PHOTO light (R612). -/
def Pins.reset : Pins := { doorOpen := true, photoDark := false }

/-- The module as shipped, up and in RUN, with nothing commanded yet. -/
def State.reset : State :=
  { id := .reset, clk := .reset, link := .reset, par := .reset, hl := .reset, health := healthReset, plan := .reset,
    prom := .reset, fe := .reset, qm := .reset, bs := .reset, mesh := .reset, mt := .reset, oc := .reset, ring := .reset,
    ptp := .reset, hs := .reset, ev := .reset, perf := .reset, ks := .reset, up := .reset, pwr := .reset, rtc := .reset,
    io := .reset, out := [], free := 0, pending := [] }

/-- The module of an order code as shipped: the VKM-16C has the History Store of its one package and no radios 1–3 (R2). -/
def State.shipped (o : OrderCode) : State :=
  match o with
  | .vkm48F => .reset
  | .vkm16C =>
    { State.reset with
      id := { Ident.reset with order := .vkm16C }, hs := Hist.shipped .vkm16C
      health := healthReset.filter (fun e => e.1 < 0x09 || 0x0B < e.1) }

end Sys2Proof.Machine
end

