-- ==== Sys2Proof/Machine/Params.lean ====
section
/-!
DEFINITION. The parameter space (R83–R89): one row per parameter of the spec's parameter tables, its type, index domain,
access, writer, persistence, range and reset value, and the reading and counting of parameters.
-/

namespace Sys2Proof.Machine

/-! ## Capacities of the order codes (Table 0.1) -/

/-- The module is a VKM-16C. -/
def State.is16C (s : State) : Bool := s.id.order == .vkm16C

def State.circuitsFitted (s : State) : Nat := if s.is16C then 16 else 48
def State.pointsFitted (s : State) : Nat := if s.is16C then 512 else 4096
def State.radiosFitted (s : State) : Nat := if s.is16C then 1 else 4
def State.slotsFitted (s : State) : Nat := if s.is16C then 32 else 64
def State.historyGiB (s : State) : Nat := if s.is16C then 16 else 64

/-! ## Rows -/

/-- Parameter types (Table 3.2): `u n` and `i n` are numbers of `n` bytes; a q16 is an `i 4`, a stamp a `u 8`. -/
inductive PType where
  | bool | u (n : Nat) | i (n : Nat) | enum | pid48 | mac | text | bytes
  deriving DecidableEq, Repr

/-- Index domains (Table 3.1). -/
inductive Dom where
  | scalar | unit | circuit | session | road | profile | engine | graph | queue | radio | imageType | vInput | latch
  | port | tier | recClass | counter | meter | slot | kind | resetKind
  deriving DecidableEq, Repr

/-- Persistence (R11); `n` where the table gives none. -/
inductive Keep where
  | v | m | u | n
  deriving DecidableEq, Repr

/-- A row of a parameter table. -/
structure ParamRow where
  id : Nat
  type : PType
  dom : Dom
  keep : Keep
  readOnly : Bool
  custodian : Bool
  lo : Int
  hi : Int
  dflt : Int
  deriving DecidableEq, Repr

/-- A read-only parameter. -/
def ro (id : Nat) (t : PType) (d : Dom) (k : Keep) : ParamRow :=
  { id := id, type := t, dom := d, keep := k, readOnly := true, custodian := false, lo := 0, hi := 0, dflt := 0 }

/-- A read-write parameter with its range and reset value. -/
def rw (id : Nat) (t : PType) (d : Dom) (k : Keep) (lo hi dflt : Int) : ParamRow :=
  { id := id, type := t, dom := d, keep := k, readOnly := false, custodian := false, lo := lo, hi := hi, dflt := dflt }

/-- A read-write parameter that only a Custodian-class port writes. -/
def cu (id : Nat) (t : PType) (d : Dom) (k : Keep) (lo hi dflt : Int) : ParamRow :=
  { rw id t d k lo hi dflt with custodian := true }

/-- Group 0x10. -/
def params10 : List ParamRow := [
  ro 0x1001 (.u 1) .scalar .n, -- sys.order_code
  ro 0x1002 (.u 8) .scalar .n, -- sys.serial
  cu 0x1010 .pid48 .scalar .u 0 281474976710655 0, -- sys.prefix
  rw 0x1011 .text .scalar .u 0 32 0, -- sys.name
  ro 0x1020 (.u 4) .scalar .u, -- sys.commit_seq
  ro 0x1021 (.u 2) .scalar .v, -- sys.staged_ids
  rw 0x1081 .bool .circuit .u 0 1 0, -- sys.circuit_in_use
  rw 0x1082 .bool .unit .m 0 1 1, -- sys.unit_notify
  ro 0x10F0 (.u 4) .scalar .v, -- sys.parity_events
  ro 0x10F1 (.u 4) .scalar .v, -- sys.test_writes
  ro 0x10F2 (.u 4) .scalar .v ] -- sys.points_refused

/-- Group 0x20. -/
def params20 : List ParamRow := [
  rw 0x2001 (.u 4) .scalar .v 115200 3000000 115200, -- link.uart_rate
  ro 0x2010 (.u 8) .scalar .u, -- link.claim_floor
  ro 0x2011 .enum .scalar .u, -- link.holder_kind
  ro 0x2080 .mac .session .v ] -- link.session_mac

/-- Group 0x30. -/
def params30a : List ParamRow := [
  rw 0x3001 (.i 4) .scalar .u (-90000000) 90000000 0, -- lp.latitude
  rw 0x3002 (.i 4) .scalar .u (-180000000) 180000000 0, -- lp.longitude
  rw 0x3003 (.i 2) .scalar .u (-18000) 5000 (-833), -- lp.sun_elev
  rw 0x3004 .enum .scalar .u 0 1 0, -- lp.photo_mode
  rw 0x3005 (.u 2) .scalar .u 0 3600 1800, -- lp.photo_window
  rw 0x3006 (.u 2) .scalar .u 10 600 60, -- lp.photo_debounce
  rw 0x3010 (.u 1) .scalar .u 40 110 75, -- lp.derate_knee
  rw 0x3011 (.u 2) .scalar .u 50 1000 200, -- lp.derate_slope
  rw 0x3012 (.u 2) .scalar .u 60 3600 600, -- lp.temp_stale
  rw 0x3020 (.u 2) .scalar .u 2 60 10, -- lp.plan_lead
  rw 0x3021 (.u 2) .scalar .u 0 60000 10000, -- lp.plan_fade
  rw 0x3022 (.u 2) .scalar .u 0 60000 2000, -- lp.late_tol
  rw 0x3023 (.u 2) .scalar .u 500 30000 2000, -- lp.override_lead
  rw 0x3024 (.u 2) .scalar .u 30 900 120, -- lp.circuit_lead
  rw 0x3030 (.u 4) .scalar .u 3600 604800 57600, -- lp.diag_interval
  rw 0x3031 (.u 4) .scalar .u 600 604800 21600, -- lp.diag_search
  rw 0x3032 (.u 2) .scalar .u 0 30000 5000, -- lp.diag_clear
  rw 0x3080 (.u 2) .profile .u 0 65535 0, -- lp.band_start1
  rw 0x3081 (.u 2) .profile .u 0 65535 0, -- lp.band_start2
  rw 0x3082 (.u 2) .profile .u 0 65535 0, -- lp.band_start3
  rw 0x3083 (.u 2) .profile .u 0 65535 0, -- lp.band_start4
  rw 0x3084 (.u 2) .profile .u 0 65535 0, -- lp.band_start5
  rw 0x3085 (.i 2) .profile .u (-3600) 3600 0, -- lp.dusk_offset
  rw 0x3086 (.i 2) .profile .u (-3600) 3600 0, -- lp.dawn_offset
  rw 0x3087 (.u 4) .profile .u 0 4294967295 203358465, -- lp.prof_dates
  rw 0x3088 (.u 1) .profile .u 0 127 127, -- lp.prof_days
  rw 0x3089 .bool .profile .u 0 1 0, -- lp.prof_enable
  rw 0x3090 .enum .road .u 0 38 0, -- lp.active_class_b0
  rw 0x3091 .enum .road .u 0 38 0, -- lp.active_class_b1
  rw 0x3092 .enum .road .u 0 38 0, -- lp.active_class_b2
  rw 0x3093 .enum .road .u 0 38 0, -- lp.active_class_b3
  rw 0x3094 .enum .road .u 0 38 0, -- lp.active_class_b4
  rw 0x3095 .enum .road .u 0 38 0, -- lp.active_class_b5
  rw 0x3098 .enum .road .u 0 38 0, -- lp.rest_class_b0
  rw 0x3099 .enum .road .u 0 38 0, -- lp.rest_class_b1
  rw 0x309A .enum .road .u 0 38 0, -- lp.rest_class_b2
  rw 0x309B .enum .road .u 0 38 0, -- lp.rest_class_b3
  rw 0x309C .enum .road .u 0 38 0, -- lp.rest_class_b4
  rw 0x309D .enum .road .u 0 38 0, -- lp.rest_class_b5
  rw 0x30A0 .bool .road .u 0 1 0 ] -- lp.section_in_use

/-- Group 0x30. -/
def params30b : List ParamRow := [
  rw 0x30A1 (.u 2) .road .u 0 10000 500, -- lp.safety_floor
  rw 0x30A2 (.u 2) .road .u 1800 5000 3000, -- lp.section_cct
  rw 0x30B1 (.u 2) .road .u 0 10000 0, -- lp.class_level M1
  rw 0x30B2 (.u 2) .road .u 0 10000 0, -- lp.class_level M2
  rw 0x30B3 (.u 2) .road .u 0 10000 0, -- lp.class_level M3
  rw 0x30B4 (.u 2) .road .u 0 10000 0, -- lp.class_level M4
  rw 0x30B5 (.u 2) .road .u 0 10000 0, -- lp.class_level M5
  rw 0x30B6 (.u 2) .road .u 0 10000 0, -- lp.class_level M6
  rw 0x30C0 (.u 2) .road .u 0 10000 0, -- lp.class_level C0
  rw 0x30C1 (.u 2) .road .u 0 10000 0, -- lp.class_level C1
  rw 0x30C2 (.u 2) .road .u 0 10000 0, -- lp.class_level C2
  rw 0x30C3 (.u 2) .road .u 0 10000 0, -- lp.class_level C3
  rw 0x30C4 (.u 2) .road .u 0 10000 0, -- lp.class_level C4
  rw 0x30C5 (.u 2) .road .u 0 10000 0, -- lp.class_level C5
  rw 0x30D1 (.u 2) .road .u 0 10000 0, -- lp.class_level P1
  rw 0x30D2 (.u 2) .road .u 0 10000 0, -- lp.class_level P2
  rw 0x30D3 (.u 2) .road .u 0 10000 0, -- lp.class_level P3
  rw 0x30D4 (.u 2) .road .u 0 10000 0, -- lp.class_level P4
  rw 0x30D5 (.u 2) .road .u 0 10000 0, -- lp.class_level P5
  rw 0x30D6 (.u 2) .road .u 0 10000 0, -- lp.class_level P6
  ro 0x30F0 (.u 4) .scalar .v, -- lp.late_discarded
  ro 0x30F1 (.u 4) .scalar .v, -- lp.late_executed
  ro 0x30F2 (.u 4) .scalar .v, -- lp.bands_skipped
  ro 0x30F3 (.u 2) .scalar .v, -- lp.undiagnosed
  ro 0x30F4 (.u 4) .scalar .v ] -- lp.recovery_cmds

/-- Group 0x40. -/
def params40a : List ParamRow := [
  rw 0x4001 (.u 2) .scalar .u 150 300 290, -- pm.launch_offset
  rw 0x4002 (.u 2) .scalar .u 50 250 150, -- pm.downlink_min
  rw 0x4003 (.u 2) .scalar .u 100 1000 250, -- pm.tick
  rw 0x4004 (.u 2) .scalar .u 0 1000 200, -- pm.rise_tol
  rw 0x4005 (.u 2) .scalar .u 0 5000 1000, -- pm.rise_ms
  rw 0x4006 (.u 2) .scalar .u 1000 60000 8000, -- pm.fall_ms
  rw 0x4007 .enum .scalar .u 0 1 1, -- pm.ramp_shape
  rw 0x4008 (.u 2) .scalar .u 0 600 10, -- pm.hold_s
  rw 0x4009 (.u 1) .scalar .u 2 30 6, -- pm.flap_limit
  rw 0x400A (.u 2) .scalar .u 10 600 60, -- pm.flap_hold
  rw 0x4010 (.u 2) .scalar .u 10 300 60, -- pm.lead_time_m
  rw 0x4011 (.u 2) .scalar .u 10 300 50, -- pm.lead_time_c
  rw 0x4012 (.u 2) .scalar .u 10 300 100, -- pm.lead_time_p
  rw 0x4013 (.u 2) .scalar .u 10 500 100, -- pm.lead_min_m
  rw 0x4014 (.u 2) .scalar .u 10 500 60, -- pm.lead_min_c
  rw 0x4015 (.u 2) .scalar .u 10 500 30, -- pm.lead_min_p
  rw 0x4016 (.u 2) .scalar .u 50 1000 400, -- pm.lead_max
  rw 0x4017 (.u 2) .scalar .u 0 200 30, -- pm.trail_m
  rw 0x4020 (.u 2) .scalar .u 100 5000 1000, -- pm.gate_base
  rw 0x4021 (.u 2) .scalar .u 50 1000 300, -- pm.gate_growth
  rw 0x4022 (.u 2) .scalar .u 1000 10000 4000, -- pm.confirm_ms
  rw 0x4023 (.u 2) .scalar .u 10 500 60, -- pm.coast_dist
  rw 0x4024 (.u 2) .scalar .u 2 120 30, -- pm.coast_max
  rw 0x4025 (.u 2) .scalar .u 0 200 30, -- pm.tentative_m
  rw 0x4026 (.u 2) .scalar .u 100 500 250, -- pm.kind_v1
  rw 0x4027 (.u 2) .scalar .u 500 2000 1000, -- pm.kind_v2
  rw 0x4028 (.u 2) .scalar .u 1 60 10, -- pm.fall_defer
  rw 0x4029 (.u 1) .scalar .u 0 100 30, -- pm.birth_conf
  rw 0x4030 .bool .scalar .u 0 1 1, -- pm.handover_on
  rw 0x4080 .bool .road .u 0 1 0, -- pm.enable
  rw 0x4081 (.u 1) .road .u 50 200 100, -- pm.lead_scale
  ro 0x40F0 (.u 2) .scalar .v, -- pm.tracks_now
  ro 0x40F1 (.u 4) .scalar .v, -- pm.tracks_refused
  ro 0x40F2 (.u 4) .scalar .v, -- pm.late_launches
  ro 0x40F3 (.u 4) .scalar .v, -- pm.falls_deferred
  ro 0x40F4 (.u 4) .scalar .v, -- pm.handovers_sent
  ro 0x40F5 (.u 4) .scalar .v, -- pm.handovers_lost
  ro 0x40F6 (.u 4) .scalar .v, -- pm.flap_holds
  ro 0x40F7 (.u 4) .scalar .v, -- pm.untracked
  ro 0x40F8 (.u 4) .scalar .v ] -- pm.det_unused

/-- Group 0x40. -/
def params40b : List ParamRow := [
  ro 0x40F9 (.u 2) .scalar .v, -- pm.unplaced
  ro 0x40FA (.u 4) .scalar .v ] -- pm.paths_cut

/-- Group 0x48. -/
def params48 : List ParamRow := [
  rw 0x4801 (.u 4) .scalar .u 10000 4000000 1000000, -- fe.item_ops
  rw 0x4802 (.u 1) .scalar .u 1 100 8, -- fe.fault_limit
  rw 0x4803 .bool .scalar .u 0 1 1, -- fe.retest
  ro 0x4804 (.u 1) .scalar .v, -- fe.engines_live
  rw 0x4820 (.u 2) .scalar .u 100 16000 2000, -- bs.window
  rw 0x4821 (.u 2) .scalar .u 8 256 64, -- bs.replay_max
  rw 0x4822 (.u 1) .scalar .u 2 32 32, -- bs.ckpt_per_flow
  rw 0x4823 (.u 2) .scalar .u 256 8192 1024, -- bs.ckpt_reserve
  rw 0x4824 (.u 2) .scalar .u 512 16384 2048, -- bs.log_reserve
  ro 0x4825 (.u 2) .scalar .v, -- bs.window_eff
  ro 0x4826 (.u 2) .scalar .v, -- bs.ckpt_free
  ro 0x4827 (.u 4) .scalar .v, -- bs.log_free
  ro 0x4880 .enum .engine .v, -- fe.engine_state
  rw 0x4881 .bool .graph .u 0 1 0, -- fe.graph_autostart
  ro 0x4882 (.u 4) .graph .v, -- fe.graph_faults
  ro 0x4883 (.u 4) .graph .v, -- fe.graph_flows
  ro 0x4884 (.u 4) .graph .v, -- bs.graph_rewinds
  ro 0x4885 (.u 4) .graph .v, -- bs.graph_stragglers
  ro 0x48F0 (.u 4) .scalar .v, -- fe.retirements
  ro 0x48F1 (.u 4) .scalar .v, -- fe.no_state
  ro 0x48F2 (.u 4) .scalar .v, -- fe.state_lost
  ro 0x48F3 (.u 4) .scalar .v, -- fe.state_corrected
  ro 0x48F4 (.u 4) .scalar .v, -- fe.credit_waits
  ro 0x48F5 (.u 4) .scalar .v, -- bs.rewinds
  ro 0x48F6 (.u 4) .scalar .v, -- bs.replayed
  ro 0x48F7 (.u 4) .scalar .v, -- bs.matched
  ro 0x48F8 (.u 4) .scalar .v, -- bs.revised
  ro 0x48F9 (.u 4) .scalar .v, -- bs.corrective
  ro 0x48FA (.u 4) .scalar .v, -- bs.stragglers
  ro 0x48FB (.u 4) .scalar .v, -- bs.replay_capped
  ro 0x48FC (.u 4) .scalar .v, -- bs.unprotected
  ro 0x48FD (.u 4) .scalar .v, -- bs.unstamped
  ro 0x48FE (.u 4) .scalar .v, -- bs.early_commits
  ro 0x48FF (.u 4) .scalar .v ] -- bs.revise_missed

/-- Group 0x4C. -/
def params4C : List ParamRow := [
  ro 0x4C01 (.u 2) .scalar .v, -- qm.cells_free
  ro 0x4C02 (.u 2) .scalar .v, -- qm.cells_retired
  rw 0x4C80 (.u 2) .queue .u 1 16384 0, -- qm.capacity
  rw 0x4C81 (.u 2) .queue .u 0 16384 0, -- qm.reserve
  rw 0x4C82 (.u 2) .queue .u 0 16384 0, -- qm.level
  rw 0x4C83 (.u 4) .queue .u 0 1000000 0, -- qm.deadline
  rw 0x4C84 (.u 1) .queue .u 0 3 0, -- qm.priority
  ro 0x4C85 (.u 2) .queue .v, -- qm.depth
  ro 0x4C86 (.u 4) .queue .v, -- qm.crossings
  ro 0x4C87 (.u 4) .queue .v, -- qm.underruns
  ro 0x4C88 (.u 4) .queue .v, -- qm.refused
  ro 0x4CF0 (.u 4) .scalar .v, -- qm.ecc_corrected
  ro 0x4CF1 (.u 4) .scalar .v ] -- qm.ecc_lost

/-- Group 0x50. -/
def params50a : List ParamRow := [
  cu 0x5001 .enum .scalar .u 0 1 0, -- mesh.phy
  rw 0x5002 (.u 1) .scalar .u 4 6 5, -- mesh.ofdm_mcs
  cu 0x5003 (.u 2) .scalar .u 0 65534 53840, -- mesh.pan_id
  cu 0x5004 (.u 4) .scalar .u 470000 960000 0, -- mesh.ch0_khz
  cu 0x5005 (.u 2) .scalar .u 200 2000 0, -- mesh.ch_spacing
  cu 0x5006 .bytes .scalar .u 0 64 0, -- mesh.hop_list
  rw 0x5007 .enum .scalar .u 5 6 5, -- mesh.security
  rw 0x5008 (.u 1) .scalar .u 1 4 4, -- mesh.max_depth
  rw 0x5009 (.u 1) .scalar .u 5 45 15, -- mesh.keepalive_s
  rw 0x500A (.u 2) .scalar .u 50 200 100, -- mesh.guard_min
  rw 0x500B (.u 2) .scalar .u 60 3600 300, -- mesh.status_s
  rw 0x500C (.u 2) .scalar .u 10 900 60, -- mesh.energy_s
  rw 0x500D (.u 2) .scalar .u 50 2000 250, -- mesh.det_min_ms
  rw 0x500E (.u 2) .scalar .u 500 16000 2000, -- mesh.det_age_ms
  rw 0x500F (.u 1) .scalar .u 25 95 75, -- mesh.holdoff_pct
  rw 0x5010 (.u 2) .scalar .u 100 5000 500, -- mesh.holdoff_ms
  rw 0x5011 (.u 2) .scalar .u 120 65535 900, -- mesh.silent_s
  rw 0x5012 (.u 2) .scalar .u 10 600 60, -- mesh.desync_s
  rw 0x5013 (.u 2) .scalar .u 30 3600 300, -- mesh.fallback_s
  rw 0x5014 .bytes .scalar .u 0 64 0, -- mesh.fallback_drive
  rw 0x5015 .bool .scalar .u 0 1 1, -- mesh.join_open
  rw 0x5016 (.i 2) .scalar .u (-110) (-60) (-95), -- mesh.join_rssi
  rw 0x5017 (.u 2) .scalar .u 7 180 90, -- mesh.key_roll_d
  rw 0x5018 (.u 2) .scalar .u 40 500 100, -- mesh.e2e_resend_ms
  cu 0x5080 (.i 2) .radio .u (-10) 27 14, -- mesh.tx_dbm
  cu 0x5081 (.u 2) .radio .u 10 10000 10000, -- mesh.tx_duty
  cu 0x5082 .bool .radio .u 0 1 1, -- mesh.cca
  ro 0x5083 (.u 2) .radio .v, -- mesh.radio_nodes
  ro 0x5084 (.u 2) .imageType .v, -- mesh.type_nodes
  ro 0x50F0 (.u 2) .scalar .v, -- mesh.nodes_now
  ro 0x50F1 (.u 2) .scalar .v, -- mesh.nodes_silent
  ro 0x50F2 (.u 4) .scalar .v, -- mesh.joins
  ro 0x50F3 (.u 4) .scalar .v, -- mesh.join_denied
  ro 0x50F4 (.u 4) .scalar .v, -- mesh.duplicates
  ro 0x50F5 (.u 4) .scalar .v, -- mesh.replays
  ro 0x50F6 (.u 4) .scalar .v, -- mesh.dup_pdus
  ro 0x50F7 (.u 4) .scalar .v, -- mesh.mic_fail
  ro 0x50F8 (.u 4) .scalar .v, -- mesh.acks_withheld
  ro 0x50F9 (.u 4) .scalar .v, -- mesh.cca_busy
  ro 0x50FA (.u 4) .scalar .v ] -- mesh.eb_missed

/-- Group 0x50. -/
def params50b : List ParamRow := [
  ro 0x50FB (.u 4) .scalar .v, -- mesh.sched_short
  ro 0x50FC (.u 4) .scalar .v, -- mesh.format_drops
  ro 0x50FD (.u 4) .scalar .v, -- mesh.unknown_elems
  ro 0x50FE (.u 4) .scalar .v ] -- mesh.e2e_resends

/-- Group 0x60. -/
def params60a : List ParamRow := [
  cu 0x6001 .enum .scalar .u 0 1 0, -- mt.f_nom
  cu 0x6002 (.u 2) .scalar .u 10000 30000 23000, -- mt.u_din
  rw 0x6003 (.u 2) .scalar .u 5000 9500 9000, -- mt.sag_pct
  rw 0x6004 (.u 2) .scalar .u 10500 15000 11000, -- mt.swell_pct
  rw 0x6005 (.u 2) .scalar .u 100 1000 500, -- mt.int_pct
  rw 0x6006 (.u 2) .scalar .u 50 1000 200, -- mt.hyst_pct
  rw 0x6007 (.u 1) .scalar .u 0 60 0, -- mt.summary_cycles
  rw 0x6008 (.u 4) .scalar .u 3600 82800 21600, -- mt.cal_interval
  rw 0x6010 (.u 2) .scalar .u 60 3600 900, -- mt.rec_window
  rw 0x6011 (.u 2) .scalar .u 60 3600 600, -- mt.rec_wait
  rw 0x6012 (.u 2) .scalar .u 1 10000 50, -- mt.rec_abs
  rw 0x6013 (.u 2) .scalar .u 10 5000 300, -- mt.rec_rel
  rw 0x6014 (.u 1) .scalar .u 1 16 2, -- mt.rec_persist
  rw 0x6015 (.u 2) .scalar .u 10 10000 50, -- mt.loc_min_ma
  ro 0x6020 (.u 1) .scalar .v, -- mt.spares
  cu 0x6080 (.i 4) .vInput .u (-2147483648) 2147483647 0, -- mt.v_scale
  cu 0x6081 .bool .vInput .u 0 1 1, -- mt.v_in_use
  ro 0x6082 (.u 2) .vInput .v, -- mt.freq
  ro 0x6083 (.u 2) .vInput .v, -- mt.u_rms
  ro 0x6084 (.u 8) .vInput .m, -- mt.vcal_last
  cu 0x6090 (.u 1) .circuit .u 0 2 0, -- mt.phase
  cu 0x6091 (.i 4) .circuit .u (-2147483648) 2147483647 0, -- mt.i_scale
  cu 0x6092 (.i 2) .circuit .u (-10000) 10000 0, -- mt.i_phase
  cu 0x6093 (.u 2) .circuit .u 0 65535 1600, -- mt.i_nom
  rw 0x6094 (.u 1) .circuit .u 0 4 0, -- mt.gain_mode
  rw 0x6095 .bool .circuit .u 0 1 1, -- mt.rec_enable
  ro 0x60A0 (.u 8) .circuit .u, -- mt.ea_imp
  ro 0x60A1 (.u 8) .circuit .u, -- mt.ea_exp
  ro 0x60A2 (.u 8) .circuit .u, -- mt.er_lag
  ro 0x60A3 (.u 8) .circuit .u, -- mt.er_lead
  ro 0x60A4 (.u 4) .circuit .u, -- mt.view_imp
  ro 0x60A5 (.u 4) .circuit .u, -- mt.view_exp
  ro 0x60A6 (.u 1) .circuit .v, -- mt.gain
  ro 0x60A7 (.u 4) .circuit .v, -- mt.gain_switches
  ro 0x60A8 (.u 4) .circuit .v, -- mt.clips
  ro 0x60A9 (.u 8) .circuit .m, -- mt.cal_last
  ro 0x60AA .enum .circuit .v, -- mt.rec_state
  ro 0x60F0 (.u 4) .scalar .v, -- mt.folds
  ro 0x60F1 (.u 4) .scalar .v, -- mt.cal_done
  ro 0x60F2 (.u 4) .scalar .v ] -- mt.cal_forced

/-- Group 0x60. -/
def params60b : List ParamRow := [
  ro 0x60F3 (.u 4) .scalar .v, -- mt.cal_aborted
  ro 0x60F4 (.u 4) .scalar .v, -- mt.cal_gapfill
  ro 0x60F5 (.u 4) .scalar .v, -- mt.pq_events
  ro 0x60F6 (.u 4) .scalar .v, -- mt.rec_incomplete
  ro 0x60F7 (.u 4) .scalar .v ] -- mt.nosync_cycles

/-- Group 0x68. -/
def params68 : List ParamRow := [
  cu 0x6801 (.u 1) .scalar .u 1 8 0, -- oc.latches
  rw 0x6802 (.u 2) .scalar .u 50 1000 250, -- oc.refresh_ms
  rw 0x6803 (.u 2) .scalar .u 0 5000 200, -- oc.inrush_ms
  rw 0x6804 (.u 2) .scalar .u 0 600 30, -- oc.min_dwell_s
  ro 0x6880 .enum .latch .v, -- oc.latch_state
  ro 0x6881 (.u 8) .latch .v, -- oc.latch_claim
  ro 0x6882 (.u 4) .latch .v, -- oc.latch_crc
  ro 0x6890 .enum .circuit .u, -- oc.force_mode
  ro 0x6891 .bool .circuit .v, -- oc.commanded
  ro 0x6892 .enum .circuit .v, -- oc.sensed
  ro 0x68F0 (.u 4) .scalar .v, -- oc.cycles
  ro 0x68F1 (.u 4) .scalar .v, -- oc.claim_rejects
  ro 0x68F2 (.u 4) .scalar .v, -- oc.fallbacks
  ro 0x68F3 (.u 4) .scalar .v, -- oc.shorts_found
  ro 0x68F4 (.u 4) .scalar .v ] -- oc.switch_ops

/-- Group 0x70. -/
def params70a : List ParamRow := [
  rw 0x7001 (.u 2) .scalar .u 100 2000 200, -- ring.sup_ms
  rw 0x7002 (.u 2) .scalar .u 100 500 400, -- ring.forget_ms
  rw 0x7003 .bool .scalar .u 0 1 1, -- ring.pause_rx
  rw 0x7004 (.u 1) .scalar .u 0 3 0, -- ring.frag_add
  rw 0x7005 (.u 1) .scalar .u 1 7 6, -- ring.express_pcp
  rw 0x7006 .bool .scalar .u 0 1 1, -- ring.speed_auto
  rw 0x7007 (.u 1) .scalar .u 5 40 20, -- ring.lower_pct
  rw 0x7008 (.u 1) .scalar .u 40 90 60, -- ring.raise_pct
  rw 0x7009 (.u 2) .scalar .u 256 3600 300, -- ring.speed_hold_s
  rw 0x700A .bool .scalar .u 0 1 1, -- ring.lpi_enable
  rw 0x700B (.u 2) .scalar .u 10 10000 50, -- ring.lpi_idle_us
  cu 0x7020 (.u 1) .scalar .u 0 127 0, -- ptp.domain
  rw 0x7021 (.i 2) .scalar .u (-4) 0 0, -- ptp.sync_log
  cu 0x7022 .enum .scalar .u 0 1 0, -- ptp.gm_mode
  cu 0x7023 (.u 1) .scalar .u 0 255 128, -- ptp.priority1
  cu 0x7024 (.u 1) .scalar .u 0 255 128, -- ptp.priority2
  rw 0x7025 (.u 4) .scalar .u 1000 1000000 20000, -- ptp.step_guard_ns
  rw 0x7026 (.u 1) .scalar .u 2 16 4, -- ptp.step_count
  rw 0x7027 (.u 2) .scalar .u 1 3600 2, -- ptp.step_limit_s
  rw 0x7028 (.u 2) .scalar .u 50 1000 200, -- ptp.lock_ns
  rw 0x7029 (.u 2) .scalar .u 10 3600 120, -- ptp.holdover_s
  rw 0x702A .enum .scalar .u 0 1 0, -- ptp.time_port
  rw 0x702B (.i 2) .scalar .u 0 255 37, -- ptp.utc_offset
  rw 0x702C .enum .scalar .u 0 2 1, -- ptp.pps_out
  rw 0x7080 .bool .port .u 0 1 1, -- ring.port_enable
  rw 0x7081 (.u 1) .port .u 1 7 7, -- ring.speeds
  rw 0x7082 (.u 2) .port .u 0 5000 0, -- ring.ext_tx_ns
  rw 0x7083 (.u 2) .port .u 0 5000 0, -- ring.ext_rx_ns
  rw 0x7084 (.i 4) .port .u (-100000) 100000 0, -- ring.asym_ns
  ro 0x7085 .enum .port .v, -- ring.speed_now
  ro 0x7086 (.u 4) .port .v, -- ring.link_delay
  ro 0x70F0 (.u 4) .scalar .v, -- ring.dup_mismatch
  ro 0x70F1 (.u 4) .scalar .v, -- ring.forget_early
  ro 0x70F2 (.u 4) .scalar .v, -- ring.fwd_drops
  ro 0x70F3 (.u 4) .scalar .v, -- ring.pause_rx_count
  ro 0x70F4 (.u 4) .scalar .v, -- ring.launch_late
  ro 0x70F5 (.u 4) .scalar .v, -- ring.speed_changes
  ro 0x70F6 (.u 4) .scalar .v, -- ring.peer_rejects
  ro 0x70F7 (.u 4) .scalar .v, -- ptp.steps
  ro 0x70F8 (.u 4) .scalar .v ] -- ptp.outliers

/-- Group 0x70. -/
def params70b : List ParamRow := [
  ro 0x70F9 (.u 4) .scalar .v, -- ptp.port_switches
  ro 0x70FA (.u 4) .scalar .v, -- ptp.fu_unmatched
  ro 0x70FB (.u 4) .scalar .v, -- ptp.tc_held
  ro 0x70FC (.u 4) .scalar .v ] -- ptp.stamp_stale

/-- Group 0x78. -/
def params78 : List ParamRow := [
  rw 0x7801 (.u 2) .scalar .u 8 96 40, -- hs.refresh_bits
  rw 0x7802 (.u 4) .scalar .u 10000 1000000 100000, -- hs.read_limit
  rw 0x7803 (.u 1) .scalar .u 3 7 7, -- hs.scrub_days
  rw 0x7804 (.u 2) .scalar .u 64 2048 256, -- hs.spare_low
  rw 0x7805 (.u 2) .scalar .u 100 5000 500, -- hs.wear_spread
  rw 0x7806 (.u 2) .scalar .u 10 600 60, -- hs.cursor_idle_s
  ro 0x7880 (.u 4) .tier .v, -- hs.size
  ro 0x7881 (.u 4) .tier .v, -- hs.used
  ro 0x7882 (.u 8) .tier .v, -- hs.oldest
  ro 0x7883 (.u 8) .tier .v, -- hs.newest
  ro 0x7884 (.u 4) .tier .v, -- hs.retain_est
  ro 0x78F0 (.u 4) .scalar .v, -- hs.appended
  ro 0x78F1 (.u 4) .scalar .v, -- hs.gaps
  ro 0x78F2 (.u 2) .scalar .u, -- hs.bad_grown
  ro 0x78F3 (.u 2) .scalar .u, -- hs.spare_blocks
  ro 0x78F4 (.u 4) .scalar .u, -- hs.erase_mean
  ro 0x78F5 (.u 4) .scalar .u, -- hs.erase_max
  ro 0x78F6 (.u 4) .scalar .v, -- hs.ldpc_corrected
  ro 0x78F7 (.u 4) .scalar .v, -- hs.soft_reads
  ro 0x78F8 (.u 4) .scalar .v, -- hs.refreshes
  ro 0x78F9 (.u 4) .scalar .v, -- hs.scrub_forced
  ro 0x78FA (.u 4) .scalar .v, -- hs.scrub_missed
  ro 0x78FB (.u 4) .scalar .v, -- hs.queue_discards
  ro 0x78FC (.u 8) .scalar .u, -- hs.bytes_logical
  ro 0x78FD (.u 8) .scalar .u ] -- hs.bytes_nand

/-- Group 0x80. -/
def params80 : List ParamRow := [
  ro 0x8001 .enum .scalar .v, -- ev.state
  rw 0x8002 (.u 2) .scalar .u 1 60 10, -- ev.mirror_s
  rw 0x8080 .bool .recClass .u 0 1 1, -- ev.class_enable
  cu 0x8081 .bool .recClass .u 0 1 0, -- ev.class_pin
  ro 0x8082 (.u 4) .recClass .v, -- ev.class_count
  ro 0x80F0 (.u 4) .scalar .v, -- ev.dropped
  ro 0x80F1 (.u 4) .scalar .v, -- ev.crc_bad
  ro 0x80F2 (.u 4) .scalar .u, -- ev.pinned_overwritten
  ro 0x80F3 (.u 4) .scalar .v ] -- ev.verify_fail

/-- Group 0x84. -/
def params84 : List ParamRow := [
  rw 0x8480 (.u 4) .counter .m 0 65535 0, -- perf.select
  rw 0x8481 (.u 2) .counter .m 0 65535 65535, -- perf.filter
  rw 0x8482 (.u 4) .counter .m 0 4294967295 0, -- perf.period
  rw 0x8483 .bool .counter .m 0 1 0, -- perf.prog_read
  rw 0x8490 (.u 1) .meter .m 0 255 0, -- perf.meter_source
  rw 0x8491 .enum .meter .m 0 2 2, -- perf.meter_dir
  rw 0x8492 (.u 2) .meter .m 1 60000 1000, -- perf.meter_window
  ro 0x84F0 (.u 4) .scalar .v, -- perf.samples_lost
  ro 0x84F1 (.u 2) .scalar .v ] -- perf.samples_held

/-- Group 0x90. -/
def params90 : List ParamRow := [
  ro 0x9001 .enum .scalar .u, -- ks.lifecycle
  cu 0x9002 (.u 1) .scalar .u 0 63 0, -- ks.attest_slot
  cu 0x9003 (.u 1) .scalar .u 0 63 1, -- ks.node_master_slot
  cu 0x9004 (.u 1) .scalar .u 0 63 2, -- ks.netkey_slot
  rw 0x9005 (.u 1) .scalar .u 1 100 10, -- ks.attest_rate
  ro 0x9080 .enum .slot .u, -- ks.slot_state
  ro 0x9081 (.u 4) .slot .u, -- ks.slot_gen
  ro 0x9082 (.u 4) .slot .u, -- ks.slot_attr
  ro 0x90F0 (.u 4) .scalar .v, -- ks.invoke_denied
  ro 0x90F1 (.u 4) .scalar .u, -- ks.write_abandoned
  ro 0x90F2 (.u 4) .scalar .v, -- ks.shuffle_late
  ro 0x90F3 (.u 4) .scalar .v ] -- ks.attests

/-- Group 0x98. -/
def params98 : List ParamRow := [
  cu 0x9801 (.u 1) .scalar .u 0 63 4, -- up.key_slot
  rw 0x9802 (.u 1) .scalar .u 0 255 255, -- up.chain_next
  rw 0x9803 (.u 2) .scalar .u 50 12000 1000, -- up.chain_kBps
  cu 0x9804 .bool .scalar .u 0 1 0, -- up.sd_enable
  rw 0x9805 (.u 2) .scalar .u 2000 60000 2000, -- up.arm_lead
  rw 0x9806 (.u 2) .scalar .u 60 3600 600, -- up.trial_s
  rw 0x9807 (.u 1) .scalar .u 1 25 10, -- up.mesh_blocks
  rw 0x9808 (.u 1) .scalar .u 1 255 64, -- up.node_spread_s
  cu 0x9880 (.u 4) .kind .u 0 4294967295 0, -- up.epoch_floor
  ro 0x9881 (.u 4) .kind .u, -- up.armed_id
  ro 0x9882 (.u 8) .kind .u, -- up.armed_at
  ro 0x9883 (.u 2) .kind .v, -- up.node_missed
  ro 0x98F0 (.u 4) .scalar .v, -- up.verify_failed
  ro 0x98F1 (.u 4) .scalar .u, -- up.missed
  ro 0x98F2 (.u 4) .scalar .u, -- up.rollbacks
  ro 0x98F3 (.u 4) .scalar .u, -- up.copy_repairs
  ro 0x98F4 (.u 4) .scalar .v ] -- up.sd_ignored

/-- Group 0xA0. -/
def paramsA0 : List ParamRow := [
  rw 0xA001 (.i 2) .scalar .u (-720) 840 0, -- clk.zone_min
  rw 0xA002 (.u 1) .scalar .u 0 120 60, -- clk.dst_min
  rw 0xA003 (.u 4) .scalar .u 0 4294967295 0, -- clk.dst_start
  rw 0xA004 (.u 4) .scalar .u 0 4294967295 0, -- clk.dst_end
  cu 0xA010 .bytes .scalar .u 0 64 0, -- rtc.curve
  ro 0xA011 (.i 2) .scalar .u, -- rtc.trim
  rw 0xA012 (.u 1) .scalar .u 0 255 127, -- rtc.wake_log
  rw 0xA013 .bool .scalar .u 0 1 0, -- rtc.hold_wake
  ro 0xA014 .bool .scalar .n, -- rtc.valid
  ro 0xA020 .enum .scalar .v, -- pwr.state
  rw 0xA021 .bool .scalar .u 0 1 1, -- pwr.quiet_enable
  rw 0xA022 (.u 2) .scalar .u 10 3600 60, -- pwr.quiet_idle_s
  rw 0xA023 (.u 2) .scalar .u 500 10000 2000, -- pwr.watchdog_ms
  rw 0xA024 (.u 2) .scalar .u 2000 3000 2200, -- pwr.vbat_low_mv
  ro 0xA025 (.u 2) .scalar .v, -- pwr.fabric_mv
  ro 0xA026 (.u 2) .scalar .v, -- pwr.vin_mv
  ro 0xA027 (.u 2) .scalar .v, -- pwr.vbat_mv
  ro 0xA028 (.u 4) .scalar .u, -- pwr.power_cycles
  ro 0xA029 (.u 4) .scalar .u, -- pwr.op_seconds
  ro 0xA02A (.u 2) .scalar .u, -- pwr.lastgasp_ms
  ro 0xA080 (.u 4) .resetKind .u, -- pwr.reset_count
  ro 0xA0F0 (.u 4) .scalar .u, -- pwr.lastgasp_short
  ro 0xA0F1 (.u 4) .scalar .v, -- pwr.wakes
  ro 0xA0F2 (.u 4) .scalar .v, -- pwr.quiet_entries
  ro 0xA0F3 (.u 4) .scalar .u ] -- rtc.steps

/-- The rows of a group. -/
def paramGroup (g : Nat) : List ParamRow :=
  match g with
  | 0x10 => params10
  | 0x20 => params20
  | 0x30 => params30a ++ params30b
  | 0x40 => params40a ++ params40b
  | 0x48 => params48
  | 0x4C => params4C
  | 0x50 => params50a ++ params50b
  | 0x60 => params60a ++ params60b
  | 0x68 => params68
  | 0x70 => params70a ++ params70b
  | 0x78 => params78
  | 0x80 => params80
  | 0x84 => params84
  | 0x90 => params90
  | 0x98 => params98
  | 0xA0 => paramsA0
  | _ => []
/-- The row of a parameter, if the release implements its ID (R83). -/
def paramRow (id : Nat) : Option ParamRow := (paramGroup (id / 256)).find? (fun r => r.id == id)

/-- Indexes of a domain that the VKM-48F has (Table 3.1). -/
def Dom.size : Dom → Nat
  | .scalar => 1 | .unit => 23 | .circuit => 48 | .session => 16 | .road => 256 | .profile => 32 | .engine => 16
  | .graph => 8 | .queue => 256 | .radio => 4 | .imageType => 4 | .vInput => 3 | .latch => 8 | .port => 2 | .tier => 3
  | .recClass => 16 | .counter => 64 | .meter => 16 | .slot => 64 | .kind => 6 | .resetKind => 8

/-- Indexes of a domain that the module has. -/
def Dom.fitted (s : State) : Dom → Nat
  | .circuit => s.circuitsFitted
  | .radio => s.radiosFitted
  | .slot => s.slotsFitted
  | d => d.size

/-- The length of a value or element in bytes, where it is fixed (Table 3.2). -/
def PType.width : PType → Option Nat
  | .bool | .enum => some 1
  | .u n | .i n => some n
  | .pid48 | .mac => some 6
  | .text | .bytes => none

/-! ## Values -/

/-- The key of element `idx` of parameter `id`. -/
def pkey (id idx : Nat) : Nat := id * 65536 + idx

/-- Table 6.5: capacity, reserve, deadline in µs and priority of the system queues. -/
def systemQueue (q : Nat) : Nat × Nat × Nat × Nat :=
  match q with
  | 0x00 => (2048, 1024, 4000, 3)
  | 0x01 => (2048, 512, 100000, 1)
  | 0x02 => (4096, 512, 1000000, 0)
  | 0x03 => (4096, 2048, 0, 0)
  | 0x04 => (1024, 256, 0, 0)
  | 0x05 => (256, 128, 2000, 3)
  | 0x06 => (256, 128, 0, 0)
  | 0x07 => (1024, 256, 10000, 2)
  | 0x08 => (1024, 512, 4000, 2)
  | 0x09 => (512, 256, 100000, 1)
  | 0x0A => (4096, 1024, 0, 0)
  | 0x0B => (512, 256, 0, 0)
  | _ => (0, 0, 0, 0)

/-- The reset value of an element, where it is not the row's own. -/
def paramDefault (s : State) (r : ParamRow) (idx : Nat) : PVal :=
  match r.id with
  | 0x1010 => .num 0x3EFF
  | 0x1011 => .blob []
  | 0x3089 => .num (bit (idx == 0))
  | 0x4881 => .num (bit (idx == 0))
  | 0x4C80 => .num (match tget s.qm.specs idx with | some q => (q.capacity : Int) | none => (systemQueue idx).1)
  | 0x4C81 => .num (match tget s.qm.specs idx with | some q => (q.reserve : Int) | none => (systemQueue idx).2.1)
  | 0x4C83 => .num (match tget s.qm.specs idx with | some q => (q.deadline : Int) | none => (systemQueue idx).2.2.1)
  | 0x4C84 => .num (match tget s.qm.specs idx with | some q => (q.priority : Int) | none => (systemQueue idx).2.2.2)
  | 0x5006 => .blob []
  | 0x5014 => .blob ((List.replicate 4 (u16 10000)).flatten)
  | 0x6801 => .num (if s.is16C then 2 else 6)
  | 0x8081 => .num (bit ([0, 7, 13, 14, 15].contains idx))
  | 0x8490 => .num (if idx > 8 || (s.is16C && 4 ≤ idx && idx ≤ 6) then 0xFF else idx)
  | 0xA010 => .blob s.id.curve
  | _ => .num r.dflt

/-- The committed value of an element of a writable parameter. -/
def State.value (s : State) (id idx : Nat) : PVal :=
  match tget s.par.vals (pkey id idx) with
  | some v => v
  | none => match paramRow id with
    | some r => paramDefault s r idx
    | none => .num 0

/-- A number as a signed value. -/
def PVal.int : PVal → Int
  | .num n => n
  | .blob _ => 0

/-- Text or bytes. -/
def PVal.bytes : PVal → List Byte
  | .num _ => []
  | .blob b => b

def State.int (s : State) (id : Nat) (idx : Nat := 0) : Int := (s.value id idx).int
def State.num (s : State) (id : Nat) (idx : Nat := 0) : Nat := (s.value id idx).int.toNat
def State.flag (s : State) (id : Nat) (idx : Nat := 0) : Bool := (s.value id idx).int == 1

/-- Store a committed value; a value equal to the reset value has no entry. -/
def State.setValue (s : State) (id idx : Nat) (v : PVal) : State :=
  let key := pkey id idx
  let isDefault := match paramRow id with
    | some r => decide (paramDefault s r idx = v)
    | none => false
  { s with par.vals := if isDefault then tdel s.par.vals key else tput s.par.vals key v }

/-! ## Counters -/

/-- The modulus of a counter: 2 to the power of its width. -/
def counterMod (id : Nat) : Nat :=
  match paramRow id with
  | some { type := .u n, .. } => 256 ^ n
  | _ => pow32

/-- A counter's value. -/
def State.counter (s : State) (id : Nat) (idx : Nat := 0) : Nat := cget s.par.counts (pkey id idx)

/-- Store a counter's or another kept read-only value. -/
def State.setCounter (s : State) (id idx v : Nat) : State :=
  { s with par.counts := cput s.par.counts (pkey id idx) v }

/-- Count `n` events, modulo the counter's width. -/
def State.bump (s : State) (id : Nat) (idx : Nat := 0) (n : Nat := 1) : State :=
  if n = 0 then s else s.setCounter id idx ((s.counter id idx + n) % counterMod id)

/-- The module's own PID48 (R24). -/
def State.ownPid (s : State) : Pid := BitVec.ofNat 48 (s.num 0x1010)

/-- The module's prefix: city, district, ring and segment. -/
def State.ownPrefix (s : State) : Nat := pidPrefix s.ownPid

/-- A circuit's PID48 (R24). -/
def State.circuitPid (s : State) (c : Nat) : Pid := mkPid s.ownPrefix c 255

/-- A circuit that is fitted and wired (sys.circuit_in_use). -/
def State.circuitUsed (s : State) (c : Nat) : Bool := c < s.circuitsFitted && s.flag 0x1081 c

end Sys2Proof.Machine
end

