-- ==== Sys2Proof/Machine/Ops.lean ====
section
/-!
DEFINITION. The operations every unit uses: time, counters, the event recorder's queue, Shotas messages and notices.
-/

namespace Sys2Proof.Machine

/-! ## Power and time -/

/-- The main domain is powered (Table 16.4). -/
def State.powered (s : State) : Bool :=
  match s.pwr.state with
  | .run | .quiet | .lastGasp => true
  | .hold | .off => false

/-- The main domain runs: it is powered and no start is pending. -/
def State.running (s : State) : Bool := s.powered && s.pwr.pendingStart.isNone

/-- PPS_IN has been steady for 10 s (R439). -/
def State.ppsSteady10 (s : State) : Bool :=
  match s.ptp.ppsSteady with
  | some t => !s.ptp.ppsMissing && t + 10 * sec ≤ s.clk.mono
  | none => false

/-- Network time is valid (R439). -/
def State.timeValid (s : State) : Bool :=
  s.running && match s.ptp.state with
  | .locked | .holdover => true
  | .grandmaster => s.ptp.gmValid || (s.ptp.secondsSet && s.ppsSteady10)
  | .free | .locking => false

/-- The build number of the firmware that runs, from its image's header (Table 15.2). -/
def State.build (s : State) : Nat := ((s.up.slots[s.up.active]?).map (fun x => fld x.image.header 16 4)).getD 0

/-- The time base (R216). -/
def State.tb (s : State) : Ns := s.clk.timeBase

/-- The Stamp64 of the present instant, 0 while network time is not valid (R14, R439). -/
def State.now (s : State) : Ns := if s.timeValid then s.clk.timeBase else 0

/-- A reset of kind `k` begins: the main domain is held until START. When two causes coincide the lower code counts
(R582). The Holder binding ends; that it stood is kept for R82. -/
def State.enterReset (s : State) (k : Nat) : State :=
  { s with pwr.pendingStart := some (match s.pwr.pendingStart with | some j => min j k | none => k)
           link.heldAtReset := if s.pwr.pendingStart.isSome then s.link.heldAtReset
             else if s.link.bound then some s.link.floor else none
           link.warmDue := none }

/-- Draw a free value (log entry 3). -/
def State.draw (s : State) : Nat × State := (Config.free s.free, { s with free := s.free + 1 })

/-! ## Queues as they stand (R248–R250) -/

/-- The queue, empty if nothing has used it. -/
def State.queue (s : State) (q : Nat) : Queue :=
  (tget s.qm.queues q).getD { items := [], last := none, second := 0, later := false, ops := [] }

def State.depth (s : State) (q : Nat) : Nat := (s.queue q).items.length

/-- Capacity, reserve, deadline in µs and priority of a queue. -/
def State.capacity (s : State) (q : Nat) : Nat := s.num 0x4C80 q
def State.reserve (s : State) (q : Nat) : Nat := s.num 0x4C81 q

/-- ABOVE (R250). -/
def State.above (s : State) (q : Nat) : Bool := 0 < s.num 0x4C82 q && s.num 0x4C82 q ≤ s.depth q

/-- Cells in use: one for each item in a queue or on an engine (R216, R219). -/
def State.cellsUsed (s : State) : Nat :=
  sumOf (s.qm.queues.map (fun e => e.2.items.length)) +
    sumOf (s.fe.engines.map (fun e => bit e.cur.isSome + bit e.next.isSome)) +
    sumOf (s.fe.hold.map (fun e => e.2.length))

/-- Free cells: the pool less what is in use and retired. -/
def State.cellsFree (s : State) : Nat := 16384 - s.qm.retired.length - s.cellsUsed

/-- Queues that can hold cells: the system queues and the queues of loaded graphs. -/
def State.liveQueues (s : State) : List Nat := List.range 12 ++ s.qm.specs.map Prod.fst

/-- Free cells that no reserve claims (R249). -/
def State.sharedFree (s : State) : Nat :=
  s.cellsFree - sumOf (s.liveQueues.map (fun q => s.reserve q - s.depth q))

/-- An item without its place among the pushes: what identifies it in the log. -/
def Item.bare (it : Item) : Item := { it with enq := 0, order := 0 }

/-- Full (R249). -/
def State.queueFull (s : State) (q : Nat) : Bool :=
  s.capacity q ≤ s.depth q || (s.reserve q ≤ s.depth q && s.sharedFree == 0)

/-! ## Performance counters (R493–R498) -/

/-- The counters that perf.select sets to an event: counter and event. -/
def State.selected (s : State) : List (Nat × Nat) :=
  s.par.vals.filterMap (fun e =>
    if pkey 0x8480 0 ≤ e.1 ∧ e.1 < pkey 0x8480 64 then some (e.1 - pkey 0x8480 0, e.2.int.toNat) else none)

/-- Add to a counter modulo 2⁴⁸, and to its count since the last sample. -/
def State.perfAdd (s : State) (c n : Nat) : State :=
  { s with perf.values := cput s.perf.values c ((cget s.perf.values c + n) % 2 ^ 48)
           perf.sinceSample := cput s.perf.sinceSample c (cget s.perf.sinceSample c + n) }

/-- An edge event of Table 13.4 occurs `n` times on unit, engine, queue, radio or port `what`. -/
def State.perfEdge (s : State) (event what n : Nat) : State :=
  s.selected.foldl (fun s e =>
    if e.2 = event ∧ (s.num 0x8481 e.1 = 0xFFFF ∨ s.num 0x8481 e.1 = what) then s.perfAdd e.1 n else s) s

/-- The level event holds for the filter now (Table 13.4). -/
def State.perfLevel (s : State) (event filter : Nat) : Bool :=
  let busy (e : Engine) : Bool := e.cur.isSome
  match event with
  | 0x0003 => if filter = 0xFFFF then s.fe.engines.any busy else (s.fe.engines[filter]?.map busy).getD false
  | 0x0012 => if filter = 0xFFFF then s.liveQueues.any s.above else s.above filter
  | 0x0013 => if filter = 0xFFFF then s.liveQueues.any s.queueFull else s.queueFull filter
  | 0x0070 => 500 < s.fe.fabricMv
  | _ => false

/-- Level events sampled every 40 ns of the time base while `dt` passes (R494); HANDSHAKES and CORE_OPS count events no
command shows, so a free number of them passes (log entry 10). -/
def State.perfPass (s : State) (dt : Ns) : State :=
  let samples := (s.clk.timeBase + dt) / 40 - s.clk.timeBase / 40
  s.selected.foldl (fun s e =>
    if e.2 = 0x0030 ∨ e.2 = 0x0031 then (let d := s.draw; d.2.perfAdd e.1 d.1)
    else if s.perfLevel e.2 (s.num 0x8481 e.1) then s.perfAdd e.1 (40 * samples) else s) s

/-- Bytes pass a window meter's source, in (0) or out (1) (R500, Table 13.5). -/
def State.meterBytes (s : State) (source dir n : Nat) : State :=
  if n = 0 then s else
  { s with perf.meters := s.perf.meters.mapIdx (fun m w =>
      if s.num 0x8490 m = source ∧ (s.num 0x8491 m = 2 ∨ s.num 0x8491 m = dir) then { w with bytes := w.bytes + n }
      else w) }

/-! ## Switch-over (Table 15.5) -/

/-- The armed instant of the firmware. -/
def State.switchAt (s : State) : Option Ns :=
  match tget s.up.arms 0 with
  | some a => if a.pending then none else some a.instant
  | none => none

/-- The armed instant is at most `before` ahead. -/
def State.switchNear (s : State) (before : Ns) : Bool :=
  match s.switchAt with
  | some a => decide (a ≤ s.clk.timeBase + before)
  | none => false

/-- Steps 1 and 2 of Table 15.5 hold: commands wait; radios and ring withhold. -/
def State.switchWaits (s : State) : Bool := s.switchNear sec
def State.switchQuiet (s : State) : Bool := s.switchNear (100 * ms)

/-! ## The passing of time -/

/-- The switch-on and the switch-off of a night as the photocell has left them (R129). -/
def Night.start (n : Night) : Ns := n.movedOn.getD n.on
def Night.finish (n : Night) : Ns := n.movedOff.getD n.off

/-- The base layer is lit: a resolved night is under way, or no time is valid (R127, R135). -/
def State.baseLit (s : State) : Bool :=
  if !s.timeValid && !s.rtc.valid then true
  else s.plan.nights.any (fun n => n.lit && n.start ≤ s.clk.timeBase && s.clk.timeBase < n.finish)

/-- What `dt` nanoseconds come to on the time base, at the rate the servo last set (log entry 34). -/
def State.ran (s : State) (dt : Ns) : Ns := ((dt : Int) + (dt : Int) * s.ptp.freq / 100000000000).toNat

/-- All registers and residues go to the older checkpoint slot (R376). -/
def State.meterCheckpoint (s : State) (final : Bool) : State :=
  let x : MeterSlot :=
    { regs := s.mt.circuits.map (fun e => (e.1, e.2.regs)), stamp := s.now, seq := max s.mt.slotA.seq s.mt.slotB.seq + 1
      final := final }
  let s := { s with mt.lastCheckpoint := s.clk.mono }
  if s.mt.slotA.seq ≤ s.mt.slotB.seq then { s with mt.slotA := x } else { s with mt.slotB := x }

/-- `dt` nanoseconds pass with nothing due in them. The time base runs while the main domain is powered; the base layer's lit
time counts as it stood when they began (log entry 1). -/
def State.elapse (s : State) (dt : Ns) : State :=
  let s := if s.running then s.perfPass dt else s
  { s with clk.mono := s.clk.mono + dt
           clk.timeBase := if s.powered then s.clk.timeBase + s.ran dt else s.clk.timeBase
           plan.litTime := s.plan.litTime + (if s.running && s.baseLit then dt else 0) }

/-- Step 3 of Table 16.5: the final metering checkpoint, and the last-gasp ring and the two counts copied to MRAM. -/
def State.gaspCopy (s : State) : State :=
  { s.meterCheckpoint true with
    ev.lastGaspCopy := s.ev.lastGasp, pwr.opCopy := s.pwr.opSeconds, pwr.cyclesCopy := s.pwr.cycles, pwr.lastGaspStep := 3 }

/-- Step 4 of Table 16.5: HOLD, the main domain unpowered; the length of the LAST-GASP is kept (pwr.lastgasp_ms), and the counts
are copied (R574). -/
def State.enterHold (s : State) : State :=
  { s.setCounter 0xA02A 0 ((s.clk.mono - s.pwr.lastGaspSince) / ms) with
    pwr.state := .hold, pwr.opCopy := s.pwr.opSeconds, pwr.cyclesCopy := s.pwr.cycles, pwr.lastGaspStep := 4
    pwr.pendingStart := none, pwr.downAt := s.clk.mono, pwr.vinLost := decide (s.pwr.vinMv < 4000) }

/-- LAST-GASP runs on by itself: step 3 at 400 ms, HOLD at 500 ms (Table 16.5; log entry 39). -/
def State.gasp (s : State) (dt : Ns) : State :=
  let three := s.pwr.lastGaspSince + 400 * ms
  let four := s.pwr.lastGaspSince + 500 * ms
  let finish := s.clk.mono + dt
  let s := if s.pwr.lastGaspStep < 3 ∧ three ≤ finish then (s.elapse (three - s.clk.mono)).gaspCopy else s
  let s := if four ≤ finish then (s.elapse (four - s.clk.mono)).enterHold else s
  s.elapse (finish - s.clk.mono)

def State.pass (s : State) (dt : Ns) : State := if s.pwr.state = .lastGasp then s.gasp dt else s.elapse dt

/-- The start of every command: outputs are cleared and time passes. -/
def State.begin (s : State) (dt : Ns) : State := { s with out := [] }.pass dt

/-! ## Recording (R481–R487) -/

/-- The class of an event's group (Table 13.2). -/
def recClass (event : Nat) : Nat :=
  [0x10, 0x20, 0x30, 0x40, 0x48, 0x4C, 0x50, 0x60, 0x68, 0x70, 0x78, 0x80, 0x84, 0x90, 0x98, 0xA0].idxOf (event / 256)

/-- Classes that are always enabled and pinned (R484). -/
def classFixed (c : Nat) : Bool := [0, 7, 13, 14, 15].contains c

def State.classPinned (s : State) (event : Nat) : Bool :=
  classFixed (recClass event) || s.flag 0x8081 (recClass event)

/-- Add a record to the last-gasp ring, which holds 64 (R490). -/
def State.toLastGasp (s : State) (r : RecEntry) : State :=
  { s with ev.lastGasp := lastN 64 (s.ev.lastGasp ++ [{ r with flags := r.flags ||| 8 }]) }

/-- The record of an event, before it has its sequence (Table 13.1). -/
def State.recEntry (s : State) (stamp : Ns) (event unit : Nat) (data : List Byte) : RecEntry :=
  { seq := 0, numbered := false, order := s.ev.made, opSeconds := s.pwr.opSeconds, cycles := s.pwr.cycles, event := event, unit := unit,
    flags := bit (stamp != 0) + 2 * bit (s.classPinned event) + 4 * bit (decide (36 < data.length)),
    stamp := stamp, data := fit 36 data, badCrc := none }

/-- A record waits to be written; where 256 wait it is displaced to the last-gasp ring if it is pinned, and dropped if not
(R487). -/
def State.queueRecord (s : State) (r : RecEntry) : State :=
  if s.ev.queue.length < 256 then { s with ev.made := s.ev.made + 1, ev.queue := s.ev.queue ++ [r] }
  else if s.classPinned r.event then { s with ev.made := s.ev.made + 1 }.toLastGasp r
  else { s with ev.made := s.ev.made + 1, ev.overflow := s.ev.overflow + 1 }.bump 0x80F0

/-- An event for the recorder, stamped with its instant, if its class is enabled (R482–R484). -/
def State.recordAt (s : State) (stamp : Ns) (event unit : Nat) (data : List Byte) : State :=
  if classFixed (recClass event) || s.flag 0x8080 (recClass event) then s.queueRecord (s.recEntry stamp event unit data) else s

def State.record (s : State) (event unit : Nat) (data : List Byte) : State := s.recordAt s.now event unit data

/-! ## Messages (R50, R51) -/

/-- A message the module sends: header, payload and CRC-32C, carrying the module's current Lead Claim. -/
def message (lane flags seq opcode status : Nat) (claim : Claim) (payload : List Byte) : List Byte :=
  let body := u8 1 ++ u8 lane ++ u16 flags ++ u32 seq ++ u16 opcode ++ u16 status ++ u32 payload.length ++
    u64 claim.toNat ++ payload
  body ++ u32 (crc32c body)

/-- Bytes of a tagged ring frame from destination address to FCS around a payload of `n` bytes. -/
def frameBytes (vlan : Option (BitVec 16)) (n : Nat) : Nat := max 64 (24 + n) + (if vlan.isSome then 4 else 0)

/-- A port of the ring. -/
def State.port (s : State) : Port → RingPort
  | .A => s.ring.a
  | .B => s.ring.b

def State.setPort (s : State) (p : Port) (r : RingPort) : State :=
  match p with
  | .A => { s with ring.a := r }
  | .B => { s with ring.b := r }

/-- A port's number: A 0, B 1. -/
def portIx : Port → Nat
  | .A => 0
  | .B => 1

/-- One of the module's own frames leaves by a port whose link is up. -/
def State.portSends (s : State) (p : Port) (bytes : Nat) : State :=
  let r := s.port p
  if r.link.speed = 0 then s
  else ((s.setPort p { r with tx := (r.tx + 1) % pow32, lpi := false, txEmptySince := s.clk.mono }).perfEdge 0x0050 (portIx p) 1).meterBytes (portIx p) 1 bytes

/-- A frame of the module's own is sent on both ports under the next HSR sequence (R425). -/
def State.ringSends (s : State) (bytes : Nat) : State :=
  let s := (s.portSends .A bytes).portSends .B bytes
  { s with ring.seq := s.ring.seq + 1#16 }

/-- Fill the host link's response buffer from the messages that wait (R115). -/
def State.hlFill (s : State) : State :=
  let room := 8 - s.hl.rsp.length
  { s with hl.rsp := s.hl.rsp ++ s.hl.waiting.take room, hl.waiting := s.hl.waiting.drop room }

/-- Hand a Shotas message to a port, in its framing (Table 2.1). -/
def State.send (s : State) (dst : Source) (express : Bool) (bytes : List Byte) : State :=
  match dst with
  | .ring _ vlan _ _ =>
    { s with out := s.out ++ [Out.message dst express bytes] }.ringSends (frameBytes vlan bytes.length)
  | .host => { s with hl.waiting := s.hl.waiting ++ [bytes] }.hlFill
  | .uart => { s with out := s.out ++ [Out.message dst express (cobsFrame bytes)] }

/-- A tag whose PCP makes the frame express (R47, R433). -/
def State.expressTag (s : State) (dst : Source) : Bool :=
  match dst with
  | .ring _ (some v) _ _ => s.num 0x7005 ≤ v.toNat / 8192
  | _ => false

/-! ## Notices (R67–R70) -/

/-- The session is the bound Holder's. -/
def State.holderSession (s : State) (ep : Endpoint) : Bool := s.link.bound && s.link.floorEp == some ep

/-- Notices of `opcode` reach the session (R67). -/
def State.subscribed (s : State) (x : Session) (opcode : Nat) : Bool :=
  s.holderSession x.ep || x.mask.getLsbD (opcode / 256) || [0x10E1, 0x20E0, 0x20E1].contains opcode

/-- Where notices of a session go: untagged, to its endpoint. -/
def Session.noticeTo (x : Session) : Source :=
  match x.ep with
  | .ring m => .ring m none .module .A
  | .host => .host
  | .uart => .uart

/-- Change the session of an endpoint. -/
def State.onSession (s : State) (ep : Endpoint) (f : Session → Session) : State :=
  { s with link.sessions := s.link.sessions.map (fun x => if x.ep = ep then f x else x) }

def State.session? (s : State) (ep : Endpoint) : Option Session := s.link.sessions.find? (fun x => x.ep == ep)

/-- A notice as a message of its session. -/
def State.noticeMessage (s : State) (n : Notice) : List Byte := message 0 1 n.seq n.opcode 0 s.link.floor n.payload

/-- Notices of a session that have been sent and not yet acknowledged. -/
def Session.inFlight (x : Session) : Nat := (x.notices.filter (fun n => n.sentAt.isSome)).length

/-- Send the first `n` unsent notices of a session. -/
def State.sendNotices (s : State) (ep : Endpoint) (n : Nat) : State :=
  match s.session? ep with
  | none => s
  | some x =>
    let due := (x.notices.filter (fun m => m.sentAt.isNone)).take n
    let s := s.onSession ep (fun x =>
      { x with notices := x.notices.map (fun m =>
          if due.any (fun d => d.seq == m.seq) then { m with sentAt := some s.clk.mono } else m) })
    due.foldl (fun s m => s.send x.noticeTo false (s.noticeMessage m)) s

/-- Queue a notice in one session: at most 256 wait and at most 32 are unacknowledged (R68, R70). -/
def State.noticeTo (s : State) (ep : Endpoint) (opcode : Nat) (payload : List Byte) : State :=
  match s.session? ep with
  | none => s
  | some x =>
    if 256 ≤ x.notices.length then s.onSession ep (fun x => { x with dropped := x.dropped + 1 })
    else
      let s := s.onSession ep (fun x =>
        { x with notices := x.notices ++ [{ seq := x.nextNotice, opcode := opcode, payload := payload, sentAt := none }]
                 nextNotice := (x.nextNotice + 1) % pow32 })
      s.sendNotices ep (32 - x.inFlight)

/-- Queue a notice in every session subscribed to its group. -/
def State.notify (s : State) (opcode : Nat) (payload : List Byte) : State :=
  (s.link.sessions.filter (fun x => s.subscribed x opcode)).foldl (fun s x => s.noticeTo x.ep opcode payload) s

/-- An event that raises a notice: recorded with the notice's opcode and payload (R483), and notified. -/
def State.raise (s : State) (opcode unit : Nat) (payload : List Byte) : State :=
  (s.record opcode unit payload).notify opcode payload

end Sys2Proof.Machine
end

