-- ==== Sys2Proof/Machine/Civil.lean ====
section
/-!
DEFINITION. Calendar and time scales (R125, R561–R565): dates, daylight saving, UTC, civil time, and the RTC's reading.
Seconds of UTC and of civil time count from 2020-01-01 00:00:00 of their scale.
-/

namespace Sys2Proof.Machine

/-! ## Gregorian dates -/

/-- A civil date. -/
structure Date where
  year : Int
  month : Int
  day : Int
  deriving DecidableEq, Repr

def isLeap (y : Int) : Bool := y % 4 == 0 && (y % 100 != 0 || y % 400 == 0)

/-- Days of a month. -/
def monthDays (y m : Int) : Int :=
  if m = 2 then (if isLeap y then 29 else 28) else if m = 4 ∨ m = 6 ∨ m = 9 ∨ m = 11 then 30 else 31

/-- The date exists in the Gregorian calendar. -/
def Date.exists_ (d : Date) : Bool := 1 ≤ d.month && d.month ≤ 12 && 1 ≤ d.day && d.day ≤ monthDays d.year d.month

/-- Days from 2020-01-01 to a date. Years are counted from March, in 400-year eras. -/
def dayNumber (d : Date) : Int :=
  let y := if d.month ≤ 2 then d.year - 1 else d.year
  let era := y / 400
  let yoe := y % 400
  let mp := (d.month + 9) % 12
  let doy := (153 * mp + 2) / 5 + d.day - 1
  let doe := yoe * 365 + yoe / 4 - yoe / 100 + doy
  era * 146097 + doe - 737730

/-- The date `n` days after 2020-01-01. -/
def dateOf (n : Int) : Date :=
  let z := n + 737730
  let era := z / 146097
  let doe := z % 146097
  let yoe := (doe - doe / 1460 + doe / 36524 - doe / 146096) / 365
  let doy := doe - (365 * yoe + yoe / 4 - yoe / 100)
  let mp := (5 * doy + 2) / 153
  let m := if mp < 10 then mp + 3 else mp - 9
  { year := yoe + era * 400 + (if m ≤ 2 then 1 else 0), month := m, day := doy - (153 * mp + 2) / 5 + 1 }

/-- The weekday of a day number, 0 Monday (2020-01-01 was a Wednesday). -/
def weekdayOf (n : Int) : Int := (n + 2) % 7

/-! ## Daylight saving (R562, Table 16.1) -/

/-- The local-standard second at which a rule of Table 16.1 falls in a year. -/
def ruleSecond (rule : Nat) (y : Int) : Int :=
  let month : Int := (rule % 16 : Nat)
  let week : Int := (rule / 16 % 8 : Nat)
  let wd : Int := (rule / 128 % 8 : Nat)
  let minute : Int := (rule / 1024 % 2048 : Nat)
  let first := dayNumber { year := y, month := month, day := 1 }
  let ahead := (wd - weekdayOf first) % 7
  let nth := first + ahead + 7 * (week - 1)
  let len := monthDays y month
  let day := if week ≥ 5 then (if first + ahead + 28 < first + len then first + ahead + 28 else first + ahead + 21) else nth
  day * 86400 + minute * 60

/-- Daylight saving is in force at a second of local standard time. -/
def State.dstAt (s : State) (std : Int) : Bool :=
  let a := s.num 0xA003
  let b := s.num 0xA004
  if a = 0 ∨ b = 0 then false
  else
    let y := (dateOf (std / 86400)).year
    let t0 := ruleSecond a y
    let t1 := ruleSecond b y
    if t0 ≤ t1 then t0 ≤ std && std < t1 else t0 ≤ std || std < t1

/-- Civil less UTC at a second of UTC, in seconds (R561). -/
def State.civilOffset (s : State) (utc : Int) : Int :=
  let zone := s.int 0xA001 * 60
  zone + (if s.dstAt (utc + zone) then s.int 0xA002 * 60 else 0)

/-- The first UTC second at which the civil clock shows `c`; in a gap, the instant the gap ends (R132). -/
def State.utcOfCivil (s : State) (c : Int) : Int :=
  let zone := s.int 0xA001 * 60
  let dst := s.int 0xA002 * 60
  let summer := c - zone - dst
  let winter := c - zone
  if s.dstAt (summer + zone) then summer
  else if !s.dstAt (winter + zone) then winter
  else ruleSecond (s.num 0xA003) (dateOf (winter / 86400)).year - zone

/-! ## UTC and the RTC (R450, R561, R564) -/

/-- The UTC offset in force: Announce's, or ptp.utc_offset (R450). -/
def State.utcOffset (s : State) : Int := s.ptp.utcAnnounced.getD (s.int 0x702B)

/-- Seconds from 2000-01-01 to 2020-01-01. -/
def rtcEpoch : Int := 631152000

/-- A second before the RTC's first. -/
def beforeRtc (second : Nat) : Bool := decide ((second : Int) < rtcEpoch)

/-- The instant of the RTC in nanoseconds of UTC since 2020-01-01. -/
def State.rtcUtc (s : State) : Int :=
  ((s.rtc.seconds : Int) - rtcEpoch) * (sec : Int) + (min (s.clk.mono - s.rtc.secondAt) (sec - 1) : Nat)

/-- The present instant in nanoseconds of UTC: from network time, or from the RTC while it is not valid (R125). -/
def State.utcNs (s : State) : Int :=
  if s.timeValid then (s.clk.timeBase : Int) - s.utcOffset * (sec : Int) else s.rtcUtc

/-- Some civil time is known. -/
def State.civilKnown (s : State) : Bool := s.timeValid || s.rtc.valid

/-- The time-base instant of a UTC second; 0 where it lies before the epoch. -/
def State.tbOfUtc (s : State) (utc : Int) : Ns :=
  ((s.clk.timeBase : Int) + utc * (sec : Int) - s.utcNs).toNat

/-- The UTC second of a time-base instant. -/
def State.utcOfTb (s : State) (t : Ns) : Int := (s.utcNs + (t : Int) - (s.clk.timeBase : Int)) / (sec : Int)

/-- The civil second of a time-base instant. -/
def State.civilOfTb (s : State) (t : Ns) : Int :=
  let u := s.utcOfTb t
  u + s.civilOffset u

/-- The time base a start gives: the RTC as TAI, or 2020-01-01T00:00:01 TAI (R439). -/
def State.tbFromRtc (s : State) : Ns :=
  if s.rtc.valid then (s.rtcUtc + s.utcOffset * (sec : Int)).toNat else sec

/-- Two BCD digits. -/
def bcd (n : Int) : Nat := (n / 10 * 16 + n % 10).toNat

/-- The value of two BCD digits, if they are digits. -/
def unbcd (b : Nat) : Option Int := if b / 16 < 10 ∧ b % 16 < 10 then some (b / 16 * 10 + b % 16 : Nat) else none

/-- The RTC's date. -/
def State.rtcDate (s : State) : Date := dateOf (((s.rtc.seconds : Int) - rtcEpoch) / 86400)

/-- Second, minute and hour of the RTC. -/
def State.rtcClock (s : State) : Int × Int × Int :=
  let t : Int := ((s.rtc.seconds : Int) - rtcEpoch) % 86400
  (t % 60, t / 60 % 60, t / 3600)

/-- Seconds, minutes, hours in BCD and the weekday counter: SD_TIME. -/
def State.sdTime (s : State) : Nat :=
  let c := s.rtcClock
  bcd c.1 + 256 * bcd c.2.1 + 65536 * bcd c.2.2 + 16777216 * s.rtc.weekday

/-- Day, month and year in BCD: SD_DATE. -/
def State.sdDate (s : State) : Nat :=
  let d := s.rtcDate
  bcd d.day + 256 * bcd d.month + 65536 * bcd (d.year % 100)

/-- The second 32.768 kHz edge after the present instant, at which a write to a slow-domain register takes effect (R109). -/
def State.secondEdge (s : State) : Ns :=
  let k := (s.clk.mono - s.rtc.secondAt) * 32768 / sec + 2
  s.rtc.secondAt + (k * sec + 32767) / 32768

/-- The value of a slow-domain parameter as the slow domain has it, and as its copy shows it (R109). -/
def State.slowValue (s : State) (id : Nat) : PVal :=
  match tget s.rtc.slow id with
  | some (v, t) => if s.clk.mono < t then v else s.value id 0
  | none => s.value id 0

/-- 32.768 kHz edges since the second began: SD_SUB. -/
def State.sdSub (s : State) : Nat := min ((s.clk.mono - s.rtc.secondAt) * 32768 / sec) 32767

/-- sec, min, hour, weekday, day, month, year: the seven bytes of RTC_GET, RTC_SET and their record. -/
def State.rtcBytes (s : State) : List Byte :=
  let c := s.rtcClock
  let d := s.rtcDate
  u8 (bcd c.1) ++ u8 (bcd c.2.1) ++ u8 (bcd c.2.2) ++ u8 s.rtc.weekday ++ u8 (bcd d.day) ++ u8 (bcd d.month) ++
    u8 (bcd (d.year % 100))

/-- The RTC count, from 2000-01-01, that seven such bytes name; years 20–99 are 2020–2099 and 00–19 are 2100–2119 (R564).
`none` where a digit, the time, the date or the weekday is invalid (R566). -/
def rtcParse (b : List Byte) : Option (Nat × Nat) :=
  let g (i : Nat) : Option Int := unbcd (fld b i 1)
  match g 0, g 1, g 2, g 4, g 5, g 6 with
  | some sc, some mn, some hr, some d, some m, some y =>
    let date : Date := { year := if y < 20 then 2100 + y else 2000 + y, month := m, day := d }
    if date.exists_ ∧ sc < 60 ∧ mn < 60 ∧ hr < 24 ∧ fld b 3 1 ≤ 6 then
      some ((dayNumber date * 86400 + hr * 3600 + mn * 60 + sc + rtcEpoch).toNat, fld b 3 1)
    else none
  | _, _, _, _, _, _ => none

/-- The first second of 2120, where the RTC reads 2020 again. -/
abbrev rtcWrap : Nat := 3786825600

end Sys2Proof.Machine
end

