-- ==== Sys2Proof/Machine/Queues.lean ====
section
/-!
DEFINITION. The queue manager's pushes and pops (R248–R254), the running graph a system queue belongs to (R226, R247), and
the records the control core hands to the History Store.
-/

namespace Sys2Proof.Machine

/-! ## Pushes and pops -/

def State.setQueue (s : State) (q : Nat) (x : Queue) : State := { s with qm.queues := tput s.qm.queues q x }

/-- The second of the time base, in which QUEUE_LEVEL is raised at most twice (R250). -/
def State.second (s : State) : Nat := s.clk.timeBase / sec

/-- QUEUE_LEVEL (Table 6.7). -/
def State.queueLevel (s : State) (q : Nat) : State :=
  s.raise 0x4CE0 5 (u8 q ++ u8 0 ++ u16 (s.depth q) ++ u32 (s.counter 0x4C86 q) ++ u64 s.now)

/-- The depth of a queue has risen to `d`: an upward crossing of its level is counted, and the first of a second is told
at once, later ones at the second's end (R250). Seconds count from 1 so that 0 means none yet. -/
def State.crossed (s : State) (q d : Nat) : State :=
  if s.num 0x4C82 q = d ∧ 0 < d then
    let s := s.bump 0x4C86 q
    let x := s.queue q
    if x.second = s.second + 1 then s.setQueue q { x with later := true }
    else (s.setQueue q { x with second := s.second + 1, later := false }).queueLevel q
  else s

/-- A push that is not refused: by a graph under its credit (R221), by a radio under its reservation (R225), or by any
source where there is room. -/
def State.put (s : State) (q : Nat) (it : Item) : State :=
  let x := s.queue q
  let it := { it with enq := s.clk.timeBase / us % pow32, order := s.qm.pushed }
  let s := { s with qm.pushed := s.qm.pushed + 1 }
  (((s.setQueue q { x with items := x.items ++ [it] }).crossed q (x.items.length + 1)).perfEdge 0x0010 q 1).meterBytes
    8 0 64

/-- Works on engines, prefetched ones included. -/
def State.onEngines (s : State) : List Work := s.fe.engines.flatMap (fun x => x.cur.toList ++ x.next.toList)

/-- Pushes reserved in a queue for the works on engines (R221) and for the frame a radio delivers (R225). -/
def State.reservedIn (s : State) (q : Nat) : Nat :=
  sumOf (((s.onEngines.flatMap (fun w => w.room) ++ s.qm.claims).filter (fun l => l.1 == q)).map Prod.snd)

/-- Shared cells a queue claims for `n` pushes beyond those reserved, over what it holds and its own reserve. -/
def State.sharedClaim (s : State) (q n : Nat) : Nat :=
  s.depth q + s.reservedIn q + n - max (s.reserve q) (s.depth q)

/-- Room for more pushes to queues, each with a number, beyond those reserved for the works on engines, whose pushes are never refused
(R221, R249). -/
def State.rooms (s : State) (l : List (Nat × Nat)) : Bool :=
  let extra := sumOf (l.map (fun x => s.sharedClaim x.1 x.2 - s.sharedClaim x.1 0))
  l.all (fun x => s.depth x.1 + s.reservedIn x.1 + x.2 ≤ s.capacity x.1) &&
    (extra == 0 || extra + sumOf (s.liveQueues.map (fun q => s.sharedClaim q 0)) ≤ s.sharedFree)

/-- Room for `n` more pushes to a queue. -/
def State.room (s : State) (q n : Nat) : Bool := s.rooms [(q, n)]

/-- A push to a full queue is refused and counted (R249). Room that is reserved for pushes which are never refused is taken (log
entry 84). -/
def State.offer (s : State) (q : Nat) (it : Item) : State :=
  if s.room q 1 then s.put q it else s.bump 0x4C88 q

/-- An item of zeros, in the form a pop of an unused queue returns. -/
def Item.zero : Item := { flow := 0, graph := 0, flags := 0, enq := 0, origin := 0, body := .raw (zeros 48) }

/-- The head of a queue, or under R251 a copy of the item last popped, with UNDERRUN set. -/
def State.pop (s : State) (q : Nat) : Item × State :=
  let x := s.queue q
  let count (s : State) : State := (s.perfEdge 0x0011 q 1).meterBytes 8 1 64
  match x.items with
  | it :: rest => (it, count (s.setQueue q { x with items := rest, last := some it }))
  | [] =>
    let it := x.last.getD .zero
    ({ it with flags := it.flags ||| 4 }, count (s.bump 0x4C87 q))

/-- Take the item at position `i` out of a queue (the scheduler passes over items whose flow is held). -/
def State.take (s : State) (q i : Nat) : State :=
  let x := s.queue q
  let s := s.setQueue q { x with items := x.items.eraseIdx i, last := (x.items[i]?).orElse (fun _ => x.last) }
  (s.perfEdge 0x0011 q 1).meterBytes 8 1 64

/-- A request that reaches a queue: the unit that makes it and, of the flow engines, the engine; the item it pushes, or none for a
pop. -/
structure QueueReq where
  unit : Nat
  engine : Nat
  push : Option Item
  deriving DecidableEq, Repr

/-- The requests of one kind in the order of R252: by unit ID, engines by their number. -/
def reqOrder (l : List QueueReq) : List QueueReq := sortBy (fun r => r.unit * 16 + r.engine) l

/-- A push and a pop that coincide: the pop goes first where the queue is full, the push otherwise (Table 6.6). -/
def State.coincide (s : State) (q : Nat) (it : Item) : State :=
  if s.queueFull q then ((s.pop q).2).put q it else ((s.put q it).pop q).2

/-- One arbitration round of a queue: pushes and pops in their orders, a push with a pop for as long as there are both (R252). -/
def State.arbitrate (s : State) (q : Nat) (reqs : List QueueReq) : State :=
  let pushes := (reqOrder (reqs.filter (fun r => r.push.isSome))).filterMap (fun r => r.push)
  let pops := (reqs.filter (fun r => r.push.isNone)).length
  let s := (pushes.take pops).foldl (fun s it => s.coincide q it) s
  let s := (pushes.drop pops).foldl (fun s it => s.put q it) s
  (List.range (pops - pushes.length)).foldl (fun s _ => (s.pop q).2) s

/-! ## Memory errors in cells (R253, R254) -/

/-- A cell leaves the pool. -/
def State.retireCell (s : State) (c : Nat) : State :=
  if s.qm.retired.contains c then s else { s with qm.retired := s.qm.retired ++ [c] }

/-- A corrected error is counted, the third within 24 h retires the cell; an uncorrectable one loses the item at the queue's
head. -/
def State.cellError (s : State) (x : CellError) : State :=
  if x.corrected then
    let ts := (((tget s.qm.corrected x.cell).getD []).filter (fun t => s.clk.mono < t + 86400 * sec)) ++ [s.clk.mono]
    let s := { s.bump 0x4CF0 with qm.corrected := tput s.qm.corrected x.cell ts }
    if 3 ≤ ts.length then s.retireCell x.cell else s
  else if (s.queue x.queue).items.isEmpty then s
  else
    let q := s.queue x.queue
    ((s.setQueue x.queue { q with items := q.items.drop 1 }).bump 0x4CF1).record 0x4C01 5
      (u8 x.queue ++ u8 0 ++ u16 x.cell) |>.retireCell x.cell

/-- The errors an access meets, in order. -/
def State.cellErrors (s : State) (l : List CellError) : State := l.foldl State.cellError s

/-- Remove the items that satisfy `p`, without serving them. -/
def State.purge (s : State) (q : Nat) (p : Item → Bool) : State :=
  let x := s.queue q
  s.setQueue q { x with items := x.items.filter (fun it => !p it) }

/-! ## Backstep's horizon (R266) -/

/-- H: never earlier than now − bs.window. -/
def State.horizon (s : State) : Ns := max s.bs.horizon (s.clk.timeBase - s.num 0x4820 * ms)

/-- H never moves backward: it is kept before the time base or the window changes (R266, R268). -/
def State.latchHorizon (s : State) : State := { s with bs.horizon := s.horizon }

/-! ## Running graphs -/

/-- Some engine is live. -/
def State.enginesLive (s : State) : Nat := (s.fe.engines.filter (fun e => e.state == 0)).length

def State.slotOf (s : State) (g : Nat) : GraphSlot := (s.fe.slots[g]?).getD .empty

/-- The RUNNING graph that consumes a system input queue (R226, R241). -/
def State.consumer (s : State) (q : Nat) : Option Nat :=
  (List.range 8).find? (fun g => (s.slotOf g).state == .running && hasBit (s.slotOf g).info.consumes q)

/-- A RUNNING graph consumes the queue and an engine is live (R247). -/
def State.served (s : State) (q : Nat) : Bool := (s.consumer q).isSome && 0 < s.enginesLive

/-! ## Flow numbers of the standard graph (log entry 6)

0–47 are the circuits' (R380). The tracks' are their numbers, 48–559; then come the sections' and the points', all ORDERED; behind them
the points' status and energy items, which are ARRIVAL like the circuits' (R262). -/

def isTrackFlow (n : Nat) : Bool := 48 ≤ n && n < 560

def sectionFlow (sect : Nat) : Nat := 560 + sect

abbrev pointFlow0 : Nat := 816
abbrev statusFlow0 : Nat := 17200
abbrev energyFlow0 : Nat := 33584

def pointFlow (p : Pid) : Nat := pointFlow0 + pointKey p
def statusFlow (p : Pid) : Nat := statusFlow0 + pointKey p
def energyFlow (p : Pid) : Nat := energyFlow0 + pointKey p

/-- A flow of a point. -/
def isPointFlow (n : Nat) : Bool := pointFlow0 ≤ n && n < statusFlow0

/-- A flow that keeps nothing between its items. -/
def isArrivalFlow (n : Nat) : Bool := n < 48 || statusFlow0 ≤ n

/-- An item for the graph that consumes `q`, on flow `flow`. -/
def State.itemFor (s : State) (q flow : Nat) (origin : Ns) (body : Body) : Item :=
  { flow := flow, graph := (s.consumer q).getD 0xFF, flags := 0, enq := 0, origin := origin, body := body }

/-- Bytes of a cell's payload behind the origin stamp (R216, R260). -/
abbrev cellBytes : Nat := 48

/-- The cells a content takes after the first: raw bytes beyond one cell go on in further items of the flow (R216). -/
def moreCells (body : Body) : List (List Byte) :=
  match body with
  | .raw b => (List.range ((b.length - 1) / cellBytes)).map (fun i => slice b (cellBytes * (i + 1)) cellBytes)
  | _ => []

/-- The first cell of a content. -/
def firstCell (body : Body) : Body :=
  match body with
  | .raw b => .raw (b.take cellBytes)
  | b => b

/-- Cells a content takes. -/
def cellsOf (body : Body) : Nat := 1 + (moreCells body).length

/-- Room reserved for a frame's items is used up. -/
def State.unclaim (s : State) (q n : Nat) : State :=
  { s with qm.claims := s.qm.claims.map (fun l => if l.1 = q then (q, l.2 - n) else l) }

/-- A source outside the engines hands a content to a system input queue in which it has found or reserved room (R225); with no
consumer the control core takes and discards it (R226). -/
def State.feed (s : State) (q flow : Nat) (origin : Ns) (body : Body) : State :=
  if (s.consumer q).isSome then
    let s := s.unclaim q (cellsOf body)
    (moreCells body).foldl (fun s b => s.put q (s.itemFor q flow origin (.raw b)))
      (s.put q (s.itemFor q flow origin (firstCell body)))
  else s

/-! ## History records (Table 12.1) -/

/-- The stated length of a record's body by its type (Table 12.2); a PROGRAM record's own length in units of 16 bytes. -/
def bodyLength (type n : Nat) : Nat :=
  match type with
  | 0x01 | 0x04 | 0x06 | 0x08 | 0x3F => 32
  | 0x02 | 0x03 | 0x05 | 0x07 | 0x09 | 0x0B | 0x0D | 0x0E => 16
  | 0x0C => 80
  | 0x20 | 0x21 | 0x31 => 48
  | 0x30 => 64
  | _ => min 240 (max 16 ((n + 15) / 16 * 16))

/-- A record with its body padded to the stated length (R456). -/
def HistRec.padded (r : HistRec) : HistRec := { r with body := fit (bodyLength r.type r.body.length) r.body }

/-- Cells a record occupies in queue 0x0A: 48 bytes of record to an item. -/
def recordCells (r : HistRec) : Nat := (16 + r.body.length + 47) / 48

/-- A record handed to the History Store by the control core or, under its credit, by a graph: it is pushed to queue 0x0A, a longer
record as consecutive items. -/
def State.histFrom (s : State) (graph flow : Nat) (r : HistRec) : State :=
  let r := r.padded
  let it (b : Body) : Item := { flow := flow, graph := graph, flags := 0, enq := 0, origin := r.stamp, body := b }
  let push (s : State) (x : Item) : State := if graph = 0xFF then s.offer 0x0A x else s.put 0x0A x
  (List.range (recordCells r - 1)).foldl (fun s _ => push s (it (.raw (zeros 48)))) (push s (it (.record r)))

def State.hist (s : State) (stamp : Ns) (place : Pid) (type : Nat) (body : List Byte) : State :=
  s.histFrom 0xFF 0 { stamp := stamp, place := place, type := type, body := body }

end Sys2Proof.Machine
end

