-- ==== Sys2Proof/Machine/Lamp.lean ====
section
/-!
DEFINITION. The light plan's layers (R121–R149) and the lamp model (R150–R155) as functions of the state: nights, bands,
classes, the winning override, Promenade's level, the final level and its drive code. All arithmetic is exact: a fraction is
a pair of a numerator and a denominator, and Φ is inverted by search.
-/

namespace Sys2Proof.Machine

/-! ## Points -/

def State.lampOf (s : State) (p : Pid) : Option Lamp :=
  if pidPrefix p = s.ownPrefix then tget s.plan.lamps (pointKey p) else none

def State.points (s : State) : List Pid := s.plan.lamps.map (fun e => e.2.point)

/-! ## Nights (R125–R133) -/

/-- Month and day as one number, for the comparison of dates within a year. -/
def monthDay (d : Date) : Int := d.month * 32 + d.day

/-- A profile's date range contains `d` (R130). -/
def datesContain (dates : Nat) (d : Date) : Bool :=
  let lo : Int := (dates / 256 % 256 * 32 + dates % 256 : Nat)
  let hi : Int := (dates / 2 ^ 24 * 32 + dates / 2 ^ 16 % 256 : Nat)
  let x := monthDay d
  if lo ≤ hi then lo ≤ x && x ≤ hi else lo ≤ x || x ≤ hi

/-- The profile of the night of day `day` (R130). -/
def State.profileOf (s : State) (day : Int) : Nat :=
  (((List.range 32).reverse).find? (fun p =>
    s.flag 0x3089 p && datesContain (s.num 0x3087 p) (dateOf day) &&
      hasBit (s.num 0x3088 p) (weekdayOf day).toNat)).getD 0

/-- The first instant at or after `on` at which the civil clock shows `minute` (R132). UTC seconds. -/
def State.civilClock (s : State) (on : Int) (minute : Nat) : Int :=
  let day := (on + s.civilOffset on) / 86400
  let first (d : Int) : Int := s.utcOfCivil (d * 86400 + (minute : Int) * 60)
  if on ≤ first day then first day else first (day + 1)

/-- A band start that is not skipped must lie after the previous one and before switch-off (R133). -/
def nextBand (off : Int) (acc : List (Option Int) × Int × Nat) (raw : Option Int) : List (Option Int) × Int × Nat :=
  match raw with
  | none => (acc.1 ++ [none], acc.2.1, acc.2.2)
  | some t =>
    if t ≤ acc.2.1 ∨ off ≤ t then (acc.1 ++ [none], acc.2.1, acc.2.2 + 1)
    else (acc.1 ++ [some t], t, acc.2.2)

/-- The sun's course over a window of `n` seconds from UTC second `lo`: dusk, the first second at which it falls through the
elevation; dawn, the first after the last fall at which it rises through it, or the first rise where it falls nowhere; and whether it
stands below the elevation at the window's start (R126, R128). -/
def State.sun (s : State) (lo : Int) (n : Nat) : Option Nat × Option Nat × Bool :=
  let below (i : Nat) : Bool := Config.elevation (s.int 0x3001) (s.int 0x3002) (lo + i) < s.int 0x3003
  let r := (List.range n).foldl (fun (a : Bool × Option Nat × Option Nat) i =>
    let b := below i
    (b, if !a.1 && b then a.2.1.orElse (fun _ => some i) else a.2.1,
      if !a.1 && b then none else if a.1 && !b then a.2.2.orElse (fun _ => some i) else a.2.2)) (below 0, none, none)
  (r.2.1, r.2.2, below 0)

/-- The night of civil day `day` (R126–R133), in time-base instants, without the photocell. Where no switch-on is resolved, every used
band is skipped (R133). -/
def State.night (s : State) (day : Int) : Night :=
  let lo := s.utcOfCivil (day * 86400 + 43200)
  let hi := s.utcOfCivil ((day + 1) * 86400 + 43200)
  let sun := s.sun lo (hi - lo).toNat
  let inside (t : Option Nat) : Option Int := t.map (fun n => lo + n)
  let dusk := inside sun.1
  let dawn := inside sun.2.1
  let p := s.profileOf day
  let clamp (t : Int) : Int := max lo (min hi t)
  let on : Option Int := if sun.2.2 then some lo else dusk.map (fun t => clamp (t + s.int 0x3085 p))
  let off : Int := match dawn with | some t => clamp (t + s.int 0x3086 p) | none => hi
  let lit := match on with | some t => decide (t < off) | none => false
  let start := on.getD lo
  let raw (i : Nat) : Option Int :=
    let v := s.num (0x3080 + i) p
    let m : Int := (v % 2 ^ 14 : Nat)
    match v / 2 ^ 14 with
    | 1 => some (s.civilClock start (v % 2 ^ 14))
    | 2 => some (start + m * 60)
    | 3 => some (off - m * 60)
    | _ => none
  let bands := (List.range 5).foldl (fun acc i => nextBand (if on.isSome then off else start) acc (raw i)) ([some start], start, 0)
  { day := day.toNat, profile := p, dusk := dusk.map s.tbOfUtc, dawn := dawn.map s.tbOfUtc, lit := lit,
    on := if lit then s.tbOfUtc start else 0, off := if lit then s.tbOfUtc off else 0,
    bands := if lit then bands.1.map (fun b => b.map s.tbOfUtc) else List.replicate 6 none,
    skipped := bands.2.2 }

/-- Civil day of an instant. -/
def State.dayAt (s : State) (t : Ns) : Int := s.civilOfTb t / 86400

/-- The band of a night at an instant: the latest start that has come (R131). -/
def Night.bandAt (n : Night) (t : Ns) : Nat :=
  ((List.range 6).reverse.find? (fun i => match (n.bands[i]?).getD none with
    | some b => decide (b ≤ t)
    | none => false)).getD 0

/-- The base layer: dark, or lit with its band (R127, R131, R135). -/
def State.bandAt (s : State) (t : Ns) : Option Nat :=
  if !s.civilKnown then some 0
  else (s.plan.nights.find? (fun n => n.lit && n.start ≤ t && t < n.finish)).map (fun n => n.bandAt t)

/-! ## Classes (R136–R139) -/

/-- The level of a class code in a section (R137). -/
def State.classLevel (s : State) (code sect : Nat) : Nat := if code = 0 then 0 else s.num (0x30B0 + code) sect

def State.activeClass (s : State) (band sect : Nat) : Nat := s.num (0x3090 + band) sect
def State.restClass (s : State) (band sect : Nat) : Nat := s.num (0x3098 + band) sect

/-! ## Overrides (R140–R147) -/

/-- Specificity: point, circuit, road section, module (R143). -/
def Override.rank (s : State) (o : Override) : Nat :=
  if o.kind = 1 then 1 else if o.target = s.ownPid then 0 else if pidPoint o.target = 255 then 2 else 3

/-- The override's target takes in the point of the given section. -/
def Override.covers (s : State) (o : Override) (p : Pid) (sect : Nat) : Bool :=
  match o.rank s with
  | 0 => true
  | 1 => o.section_ == sect
  | 2 => pidCircuit o.target == pidCircuit p
  | _ => o.target == p

/-- The override is in force at `t`. -/
def Override.inForce (o : Override) (t : Ns) : Bool := o.start ≤ t && t < o.finish

/-- Order of R143: specificity, then effective start, then handle. -/
def Override.beats (s : State) (a b : Override) : Bool :=
  let ra := a.rank s
  let rb := b.rank s
  rb < ra || (ra == rb && (b.start < a.start || (a.start == b.start && b.handle < a.handle)))

/-- The winning override of a point at `t` (R143). -/
def State.winner (s : State) (p : Pid) (sect : Nat) (t : Ns) : Option Override :=
  (s.plan.overrides.filter (fun o => o.covers s p sect && o.inForce t)).foldl
    (fun best o => match best with
      | none => some o
      | some b => if o.beats s b then some o else some b) none

def Override.exempt (o : Override) : Bool := hasBit o.flags 0
def Override.cctSet (o : Override) : Bool := hasBit o.flags 1

/-! ## Promenade's level (R174, R189, R190, R247) -/

def PointCover.none_ : PointCover :=
  { active := false, openAt := 0, tracks := [], closedAt := none, changes := [], flapUntil := none, deferredAt := none,
    lastLaunch := 0 }

def State.coverOf (s : State) (p : Pid) : PointCover := (tget s.prom.cover (pointKey p)).getD .none_

/-- Promenade gives the point its section's active level at `t`. -/
def State.promActive (s : State) (p : Pid) (t : Ns) : Bool :=
  let c := s.coverOf p
  !s.served 0x00 || (tget s.prom.places (pointKey p)).isNone ||
    (match c.flapUntil with | some f => decide (t < f) | none => false) ||
    (!c.tracks.isEmpty && decide (c.openAt ≤ t)) ||
    (match c.closedAt with | some e => decide (c.heldFrom ≤ t ∧ t < e + s.num 0x4008 * sec) | none => false)

/-! ## The final level (R122) -/

/-- What the layers give a point at an instant. -/
structure Layers where
  band : Option Nat
  activeClass : Nat
  restClass : Nat
  active : Nat
  rest : Nat
  prom : Option Nat
  winner : Option Override
  afterOverride : Nat
  floor : Nat
  level : Nat
  cct : Nat
  deriving DecidableEq, Repr

/-- R122 for a point of section `sect` at `t`. -/
def State.layers (s : State) (p : Pid) (sect : Nat) (t : Ns) : Layers :=
  let band := s.bandAt t
  let ac := match band with | some b => s.activeClass b sect | none => 0
  let rc := match band with | some b => s.restClass b sect | none => 0
  let active := s.classLevel ac sect
  let rest := s.classLevel rc sect
  let prom := if s.flag 0x4080 sect then some (if s.promActive p t then active else rest) else none
  let base := match band, prom with
    | none, _ => 0
    | some _, none => active
    | some _, some l => min (max l rest) active
  let o := s.winner p sect t
  let after := match o with
    | none => base
    | some o => match o.mode with
      | 1 => o.level
      | 2 => max base o.level
      | _ => min base o.level
  let floor := s.num 0x30A1 sect
  let exempt := match o with | some o => o.exempt | none => false
  { band := band, activeClass := ac, restClass := rc, active := active, rest := rest, prom := prom, winner := o,
    afterOverride := after, floor := floor,
    level := if band.isSome && !exempt then max after floor else after,
    cct := match o with | some o => (if o.cctSet then o.cct else s.num 0x30A2 sect) | none => s.num 0x30A2 sect }

/-! ## The lamp model (R150–R155) -/

/-- A fraction: numerator and denominator. -/
abbrev Frac := Nat × Nat

def Frac.le (a b : Frac) : Bool := a.1 * b.2 ≤ b.1 * a.2
def Frac.minOf (a b : Frac) : Frac := if Frac.le a b then a else b
def Frac.mul (a b : Frac) : Frac := (a.1 * b.1, a.2 * b.2)
def Frac.div (a b : Frac) : Frac := (a.1 * b.2, a.2 * b.1)
/-- Rounded to the nearest integer after multiplication by `k`, halves up (R155). -/
def Frac.round (a : Frac) (k : Nat) : Nat := if a.2 = 0 then 0 else (2 * a.1 * k + a.2) / (2 * a.2)

/-- Φ at a current of `j` half units of 0.01 %, with droop `k` × 10⁻⁴ (R150). -/
def flux (k j : Nat) : Frac := (j * (2 * 10 ^ 8 + 2 * 10 ^ 4 * k - k * j), 4 * 10 ^ 12)

/-- Φ⁻¹ to the nearest 0.01 %, halves up: the greatest current whose lower half step gives no more than `phi`. -/
def fluxInverse (k : Nat) (phi : Frac) : Nat :=
  [13, 12, 11, 10, 9, 8, 7, 6, 5, 4, 3, 2, 1, 0].foldl (fun c b =>
    let c' := c + 2 ^ b
    if c' ≤ 10000 ∧ Frac.le (flux k (2 * c' - 1)) phi then c' else c) 0

/-- What the lamp model computes for a point. -/
structure Driven where
  code : DriveCode
  level : Nat
  cct : Nat
  fluxLimited : Bool
  cctLimited : Bool
  derated : Bool
  tempStale : Bool
  deriving DecidableEq, Repr

/-- Knee and slope of a type, 0 taking the parameters; the slope in 0.01 %/K (Table 4.5). -/
def State.knee (s : State) (t : LampType) : Nat := if t.knee = 0 then s.num 0x3010 else t.knee
def State.slope (s : State) (t : LampType) : Nat := if t.slope = 0 then s.num 0x3011 else 10 * t.slope

/-- A point's temperature report counts no longer, or there is none (R153). -/
def State.tempStale (s : State) (p : Pid) : Bool :=
  match tget s.plan.temps (pointKey p) with
  | some r => decide (r.at_ + s.num 0x3012 * sec < s.clk.timeBase)
  | none => true

/-- The current limit of R153 in 0.01 %, which never falls below the crossover. -/
def State.iLim (s : State) (p : Pid) (t : LampType) : Nat :=
  match tget s.plan.temps (pointKey p) with
  | some r =>
    if s.tempStale p then 10000
    else
      let excess := (r.celsius - (s.knee t : Int)).toNat
      max t.crossover (10000 - min 10000 (s.slope t * excess))
  | none => 10000

/-- Channel 1's share of the flux (R151), and whether the target was clamped. -/
def mix (l : Lamp) (channels target : Nat) : Frac × Bool :=
  if channels < 2 then ((0, 1), false)
  else if target < l.cct0 then ((0, 1), true)
  else if l.cct1 < target then ((1, 1), true)
  else (((target - l.cct0) * l.cct1, target * (l.cct1 - l.cct0)), false)

/-- The drive code of a final level and target CCT (R152). -/
def State.lampModel (s : State) (l : Lamp) (t : LampType) (level target : Nat) : Driven :=
  let m := mix l t.channels target
  let a := m.1
  let x := t.crossover
  let ilim := s.iLim l.point t
  let phi0 : Frac := ((a.2 - a.1) * level, a.2 * l.flux0)
  let phi1 : Frac := if t.channels < 2 then (0, 1) else (a.1 * level, a.2 * l.flux1)
  let cap := flux t.droop (2 * max x (min 10000 ilim))
  let one : Frac := (1, 1)
  let limit (phi : Frac) : Frac := if phi.1 = 0 then one else Frac.div cap phi
  let sc := Frac.minOf one (Frac.minOf (limit phi0) (limit phi1))
  let limited := !Frac.le one sc
  let phix := flux t.droop (2 * x)
  let channel (phi : Frac) : Nat × Nat :=
    if phi.1 = 0 then (0, 0)
    else
      let p := Frac.mul phi sc
      if Frac.le phix p then (fluxInverse t.droop p, 10000) else (x, (Frac.div p phix).round 10000)
  let c0 := channel phi0
  let c1 := channel phi1
  { code := { cur0 := c0.1, duty0 := c0.2, cur1 := c1.1, duty1 := c1.2 },
    level := Frac.round sc level, cct := target,
    fluxLimited := limited && (!Frac.le phi0 one || !Frac.le phi1 one), cctLimited := m.2,
    derated := limited && decide (ilim < 10000) &&
      (!Frac.le phi0 (flux t.droop (2 * max x ilim)) || !Frac.le phi1 (flux t.droop (2 * max x ilim))),
    tempStale := s.tempStale l.point }

/-- The drive code of a point with a lamp record at an instant: its combined result (R122, R152). -/
def State.combined (s : State) (p : Pid) (t : Ns) : Option (DriveCode × Nat) :=
  (s.lampOf p).bind (fun l => (tget s.plan.types l.type).map (fun ty =>
    let y := s.layers p l.section_ t
    ((s.lampModel l ty y.level y.cct).code, y.level)))

/-! ## Circuit demand (R148, R149) -/

/-- The override gives a point of the circuit a level above 0, now or from its start on: its mode is FIXED or MIN, its level is not 0,
and it is the one that acts on the point (R143). -/
def State.gives (s : State) (o : Override) (c : Nat) : Bool :=
  (o.mode == 1 || o.mode == 2) && 0 < o.level && s.plan.lamps.any (fun e => pidCircuit e.2.point == c &&
    (s.winner e.2.point e.2.section_ (max s.clk.timeBase o.start)).any (fun w => w.handle == o.handle && w.start == o.start))

/-- The light plan demands the circuit ON now (R148). -/
def State.demand (s : State) (c : Nat) : Bool :=
  c != 63 && s.circuitUsed c &&
    ((!s.civilKnown && s.plan.lamps.any (fun e => pidCircuit e.2.point == c)) ||
     (s.plan.lamps.any (fun e => pidCircuit e.2.point == c) &&
        s.plan.nights.any (fun n => n.lit && n.start ≤ s.clk.timeBase + s.num 0x3024 * sec &&
          s.clk.timeBase < n.finish + s.num 0x3021 * ms)) ||
     s.plan.overrides.any (fun o =>
        o.start ≤ s.clk.timeBase + s.num 0x3024 * sec && s.clk.timeBase < o.finish && s.gives o c))

end Sys2Proof.Machine
end

