-- ==== Sys2Proof/Machine/Pace.lean ====
section
/-!
DEFINITION. The pace governor (R29–R32, R227, R289): the rate of an engine, each queue's projected completion, and the fabric supply.
-/

namespace Sys2Proof.Machine

/-- The row of Table 1.5 that a supply in mV is given: minimum and typical rate in operations per second. The table lists four
supplies and the spec does not interpolate: between them the model takes the next lower row, so that the minimum is one that the
part is sure to meet (log entry 86). -/
def rateRow (mv : Nat) : Nat × Nat :=
  if mv < 550 then (95000000, 115000000) else if mv < 800 then (120000000, 150000000)
  else if mv < 900 then (240000000, 300000000) else (275000000, 340000000)

/-- The rate of one engine as the module measures it at a supply and the present temperature: at least the minimum (R29), and never
taken above the typical rate of Table 1.5 (R227). -/
def State.engineRate (s : State) (mv : Nat) : Nat :=
  min (rateRow mv).2 (max (rateRow mv).1 (Config.engineRate mv s.rtc.celsius))

/-- Age of a queue's oldest item in µs, modulo 2³² (R227). -/
def State.oldestAge (s : State) (q : Nat) : Nat :=
  match (s.queue q).items with
  | it :: _ => (s.clk.timeBase / us + pow32 - it.enq) % pow32
  | [] => 0

/-- Replay items that a queue's late items have brought (R289). -/
def State.replayDepth (s : State) (q : Nat) : Nat :=
  sumOf (s.bs.replays.map (fun e => if e.2.queue = q then e.2.left else 0))

/-- A queue's projected completion at a supply is later than its deadline (R227). The projection is exact: both sides are multiplied
by the engines' rate and by the number of items that the mean is taken over. -/
def State.missesAt (s : State) (mv q : Nat) : Bool :=
  let ops := (s.queue q).ops
  let rate := s.enginesLive * s.engineRate mv
  let work := (s.depth q + s.replayDepth q) * sumOf ops
  if rate = 0 then s.num 0x4C83 q < s.oldestAge q || 0 < work
  else decide (s.num 0x4C83 q * max 1 ops.length * rate < s.oldestAge q * max 1 ops.length * rate + work * 1000000)

/-- Queues with a deadline that hold work. -/
def State.deadlines (s : State) : List Nat :=
  s.liveQueues.filter (fun q => s.num 0x4C83 q != 0 && (0 < s.depth q || 0 < s.replayDepth q))

/-- Every deadline is met at a supply. -/
def State.meets (s : State) (mv : Nat) : Bool := s.deadlines.all (fun q => !s.missesAt mv q)

/-- Some queue is past its deadline. -/
def State.someLate (s : State) : Bool := s.deadlines.any (fun q => s.num 0x4C83 q < s.oldestAge q)

/-- The pace governor, at the end of every command and so after every push and completion: it raises the supply at once for a
projected miss (R31, R227), holds 0.90 V where work is past a deadline, and tells so for as long as that lasts (R32). A miss is
counted once for each stretch of time in which some queue is past its deadline at 0.90 V, not once for each late item (log entry
86). -/
def State.govern (s : State) : State :=
  let now_ := max 500 s.fe.fabricMv
  let steps := ((List.range 41).map (fun i => 500 + 10 * i)).filter (fun v => now_ ≤ v)
  let mv := (steps.find? s.meets).getD 900
  let late := mv == 900 && s.someLate
  { s with fe.fabricMv := mv
           fe.deadlineMisses := if late && !s.fe.pastDeadline then s.fe.deadlineMisses + 1 else s.fe.deadlineMisses
           fe.pastDeadline := late }

end Sys2Proof.Machine
end

