-- ==== Sys2Proof/Machine/Flags.lean ====
section
/-!
DEFINITION. Everything the module computes from its state to show it: key slot states, the health of each unit, the flag
registers of the host-link window, the alarm pins; and `State.settle`, which reports the health changes a command has left.
-/

namespace Sys2Proof.Machine

/-! ## Key slots (R505, R508, R514) -/

def State.slot (s : State) (i : Nat) : KeySlot := (s.ks.slots[i]?).getD .empty

/-- The state of a slot: 0 EMPTY, 1 ACTIVE, 2 DISABLED, 3 STALE. `fuel` bounds the chain of parents. -/
def State.slotStateFuel (s : State) (fuel i : Nat) : Nat :=
  match fuel with
  | 0 => 3
  | fuel + 1 =>
    let k := (s.slot i).rec_
    if k.type = 0 then 0 else if k.disabled then 2
    else match k.parent with
      | none => 1
      | some (p, g) => if (s.slot p).rec_.gen = g ∧ s.slotStateFuel fuel p = 1 then 1 else 3

def State.slotState (s : State) (i : Nat) : Nat := s.slotStateFuel 65 i

/-- A master may invoke the slot: ACTIVE, the master's attribute bit (0 CORE, 1 MESH, 2 UPDATE, 3 ATTEST), and the present
life-cycle state's bit (R508). -/
def State.keyUsable (s : State) (i master : Nat) : Bool :=
  s.slotState i == 1 && hasBit (s.slot i).rec_.attrs master && hasBit (s.slot i).rec_.attrs (8 + s.ks.lifecycle)

/-- The slot of the network key in force (R510). -/
def State.netkeySlot (s : State) : Nat := s.num 0x9004 + s.ks.netkeyTurn

/-! ## Health (Table 1.7, R37) -/

/-- The worse of two states. -/
def Health.code : Health → Nat
  | .good => 0
  | .masked => 1
  | .degraded => 2
  | .out => 3

def Health.worse (a b : Health) : Health := if a.code < b.code then b else a

/-- `h` where the condition holds, GOOD otherwise. -/
def whenBad (c : Bool) (h : Health) : Health := if c then h else .good

/-- The unit a parameter's register belongs to (log entry 11). -/
def paramUnit (id idx : Nat) : Nat :=
  match id / 256 with
  | 0x48 => if id = 0x4880 then 1 + idx / 4 else 1
  | 0x4C => 5
  | 0x50 => 8 + (if 0x5080 ≤ id ∧ id < 0x5083 then idx else 0)
  | 0x60 => 0x0E
  | 0x68 => 0x0F
  | 0x70 => 0x0C + (if 0x7080 ≤ id ∧ id < 0x7085 then idx else 0)
  | 0x78 => 0x10
  | 0x80 => 0x11
  | 0x90 => 0x12
  | 0xA0 => 0x16
  | _ => 0

/-- Parity of a firmware-written register: failed DEGRADED, being restored MASKED (R106, R108). -/
def State.parityHealth (s : State) (u : Nat) : Health :=
  Health.worse (whenBad (s.par.failed.any (fun k => paramUnit (k / 65536) (k % 65536) == u)) .degraded)
    (whenBad (s.par.restoring.any (fun k => paramUnit (k / 65536) (k % 65536) == u)) .masked)

/-- A radio cannot transmit: no band plan, no network key, VPA low, or its transmitter failed (R297, R333, R510, R595). -/
def State.radioOut (s : State) (r : Nat) : Bool :=
  s.mesh.band.hop.isEmpty || s.pwr.vpaMv < 4500 || ((s.mesh.radios[r]?).map (fun x => x.selfTestFailed)).getD true ||
    !s.keyUsable s.netkeySlot 1

/-- A joined node is homed on a radio that is OUT (R333). -/
def State.orphans (s : State) : Bool :=
  s.mesh.nodes.any (fun e => (e.2.state == 1 || e.2.state == 2) && s.radioOut e.2.radio)

/-- Peers of the ring peer table heard on a port within 3 × ring.sup_ms (R429). -/
def State.heardCount (s : State) (p : Port) : Nat :=
  let l := match p with | .A => s.ring.heardA | .B => s.ring.heardB
  (l.filter (fun e => s.clk.mono ≤ e.2 + 3 * s.num 0x7001 * ms)).length

def Port.other : Port → Port
  | .A => .B
  | .B => .A

/-- A port's health (R431, Table 11.1, Table 11.2). -/
def State.portHealth (s : State) (p o : Port) : Health :=
  let r := s.port p
  let up := r.link.speed != 0 && !r.renegotiating
  let otherUp := (s.port o).link.speed != 0 && !(s.port o).renegotiating
  if r.mode = 3 then .out
  else if !up then (if otherUp then .masked else .out)
  else
    Health.worse
      (whenBad (!s.ring.closed && (s.heardCount p < s.heardCount o ||
        (s.heardCount p == s.heardCount o && p == .B))) .masked)
      (whenBad ((!r.delayValid && r.delayInvalidSince + 10 * sec ≤ s.clk.mono) || r.verifyFailed ||
        (match r.mismatchAt with | some t => s.clk.mono < t + 60 * sec | none => false)) .degraded)

/-- Spare converters that work and are free (R388, Table 9.7): of two, those neither failed nor standing in. -/
def State.sparesFree (s : State) : Nat := 2 - sumOf (s.mt.converters.map (fun e => bit e.2.standIn)) - s.mt.sparesFailed

/-- The metering island (Table 9.7). -/
def State.meterHealth (s : State) : Health :=
  if !s.mt.working then .out
  else if s.sparesFree = 0 || s.mt.converters.any (fun e => e.2.failed && !e.2.standIn) then .degraded
  else whenBad (s.sparesFree == 1) .masked

/-- Latches in the chain, in position order. -/
def State.latchesUsed (s : State) : List Latch := s.oc.latches.take (s.num 0x6801)

/-- The output chain (R412). -/
def State.chainHealth (s : State) : Health :=
  let ls := s.latchesUsed
  if ls.all (fun l => l.state == 0 && l.shorts == 0) then .good
  else if ls.any (fun l => l.state == 0) then .degraded else .out

/-- Blocks of the module's packages (Table 12.7), and their mean erase count. -/
def State.blocksFitted (s : State) : Nat := if s.is16C then 10880 else 21760
def State.eraseMean (s : State) : Nat := sumOf (s.hs.erases.map Prod.snd) / s.blocksFitted

/-- A block's erase count lies too far below the mean (R473). -/
def State.lowWear (s : State) (b : Block) : Bool := cget s.hs.erases b.number + s.num 0x7805 < s.eraseMean

/-- Packages the module has (Table 12.7), and those that work. -/
def State.packagesFitted (s : State) : Nat := if s.is16C then 1 else 2
def State.workingPackages (s : State) : List Nat :=
  (List.range s.packagesFitted).filter (fun p => (s.hs.packages[p]?).getD false)

/-- The History Store (Table 12.8). -/
def State.histHealth (s : State) : Health :=
  if s.workingPackages.isEmpty || s.hs.ledgerStuck then .out
  else if s.hs.spare < s.num 0x7804 || s.hs.shrunk || s.workingPackages.length < s.packagesFitted then .degraded
  else whenBad (s.hs.tiers.any (fun t => t.blocks.any (fun b => b.refresh || s.lowWear b))) .masked

/-- The key store (R523, R525). -/
def State.keysHealth (s : State) : Health :=
  if s.ks.slots.any (fun k => k.lost || (k.rec_.type != 0 && k.maskedAt + 2 * sec < s.clk.mono)) then .degraded
  else whenBad (s.ks.slots.any (fun k => k.recovered)) .masked

/-- macTsMaxTx (Table 8.3). -/
def State.longestTx (s : State) : Ns := (if s.mesh.band.phy = 1 then 4256 else 1800) * us

/-- Airtime of a frame, within macTsMaxTx, or of an ack, within macTsMaxAck (Table 8.3; log entry 22). -/
def State.airtime (s : State) (octets : Nat) (ack : Bool) : Ns :=
  min (Config.airtime s.mesh.band.phy (s.num 0x5002) octets)
    (if ack then (if s.mesh.band.phy = 1 then 2400 else 600) * us else s.longestTx)

/-- Transmit time within the preceding 3,600 s (R300). -/
def State.txTime (s : State) (r : Nat) : Ns :=
  sumOf ((((s.mesh.radios[r]?).map (fun x => x.sent)).getD []).filterMap (fun t =>
    if s.clk.mono < t.1 + 3600 * sec then some t.2 else none))

/-- A transmission of `a` ns would exceed mesh.tx_duty. Kinds are skipped in their order, 0 image blocks, 1 other downlink, 2 drive
PDUs, 3 beacons: room for a longest frame is kept for each kind that is skipped later (R300; log entry 22). -/
def State.overDuty (s : State) (r : Nat) (a : Ns) (kind : Nat) : Bool :=
  s.num 0x5081 r * 360 * ms < s.txTime r + a + (3 - kind) * s.longestTx

/-- The radio is skipping transmissions for its duty (R300). -/
def State.skips (s : State) (r : Nat) : Bool :=
  match ((s.mesh.radios[r]?).map (fun x => x.skipping)).getD 0 with
  | 0 => false
  | k + 1 => s.overDuty r s.longestTx k

/-- The worst state the faults present justify (R37), the core taking MASKED as GOOD (R43). -/
def State.healthOf (s : State) (u : Nat) : Health :=
  let own : Health :=
    match u with
    | 0x01 | 0x02 | 0x03 | 0x04 =>
      let retired := (((s.fe.engines.drop (4 * (u - 1))).take 4).filter (fun e => e.state != 0)).length
      if retired = 0 then .good else if retired < 4 then .degraded else .out
    | 0x05 => if s.qm.retired.isEmpty then .good else if s.qm.retired.length ≤ 64 then .masked else .degraded
    | 0x06 => whenBad s.fe.pastDeadline .degraded
    | 0x08 | 0x09 | 0x0A | 0x0B =>
      if s.radioOut (u - 8) then .out
      else whenBad (s.skips (u - 8) || s.orphans) .degraded
    | 0x0C => s.portHealth .A .B
    | 0x0D => s.portHealth .B .A
    | 0x0E => s.meterHealth
    | 0x0F => s.chainHealth
    | 0x10 => s.histHealth
    | 0x11 => if s.ev.state ≠ 0 then .degraded else whenBad s.ev.mirrorBehind .masked
    | 0x12 => s.keysHealth
    | 0x13 => whenBad (s.hl.ctrlFailed || s.hl.maskFailed) .degraded
    | 0x16 => whenBad (s.pwr.vbatMv < s.num 0xA024) .degraded
    | 0x00 => whenBad s.pwr.coreReduced .degraded
    | _ => .good
  let h := own.worse (s.parityHealth u)
  if u = 0 ∧ h = .masked then .good else if u = 0 ∧ h = .out then .degraded else h

/-- Units fitted, in ascending order of ID (R81). -/
def State.units (s : State) : List Nat :=
  [0x00, 0x01, 0x02, 0x03, 0x04, 0x05, 0x06, 0x08] ++ (if s.is16C then [] else [0x09, 0x0A, 0x0B]) ++
    [0x0C, 0x0D, 0x0E, 0x0F, 0x10, 0x11, 0x12, 0x13, 0x14, 0x15, 0x16]

/-- The state a unit was last reported in, with its entry counts. -/
def State.unitHealth (s : State) (u : Nat) : UnitHealth :=
  (tget s.health u).getD { state := .good, masked := 0, degraded := 0, out := 0 }

/-- A unit enters a state: its entries are counted (R38). -/
def UnitHealth.enter (h : UnitHealth) (n : Health) : UnitHealth :=
  match n with
  | .good => { h with state := n }
  | .masked => { h with state := n, masked := (h.masked + 1) % pow32 }
  | .degraded => { h with state := n, degraded := (h.degraded + 1) % pow32 }
  | .out => { h with state := n, out := (h.out + 1) % pow32 }

/-- Report one unit's change of health: the record always, the notice unless sys.unit_notify withholds it (R39). -/
def State.report (s : State) (u : Nat) (n : Health) : State :=
  let old := s.unitHealth u
  if old.state = n then s
  else
    let payload := u8 u ++ u8 old.state.code ++ u8 n.code ++ u8 0 ++ u64 s.now ++ u32 s.pwr.opSeconds
    let s := ({ s with health := tput s.health u (old.enter n) }.hist s.now s.ownPid 0x09
      (u8 u ++ u8 old.state.code ++ u8 n.code ++ u8 0 ++ u32 s.pwr.opSeconds)).record 0x10E0 u payload
    if s.flag 0x1082 u then s.notify 0x10E0 payload else s

/-- A section is in use (lp.section_in_use). -/
def State.sectionsInUse (s : State) : Bool := s.par.vals.any (fun e => e.1 / 65536 == 0x30A0 && e.2 == .num 1)

/-- The conditions of R575 other than darkness hold: no track, no command, no image on its way, no cursor. -/
def State.calm (s : State) : Bool :=
  s.prom.tracks.isEmpty && s.link.sessions.all (fun x => x.lanes.all (fun l => l.phase == .idle)) &&
    s.up.receipt.isNone && s.up.card.isNone && s.up.waiting.isEmpty && s.mesh.broadcasts.isEmpty && s.hs.cursors.isEmpty &&
    s.link.peers.all (fun l => match l.outstanding with | some m => m.opcode / 256 != 0x98 | none => true) &&
    (!s.sectionsInUse || s.timeValid || s.rtc.valid)

/-- Since when they have held (R575). -/
def State.noteCalm (s : State) : State :=
  { s with pwr.idleSince := if s.calm then some (s.pwr.idleSince.getD s.clk.mono) else none }

/-! ## The host-link window's flag registers (Table 3.5) -/

/-- The window serves: the main domain runs and 2 ms have passed since the last start (R112, R605). -/
def State.hlServes (s : State) : Bool := s.running && s.up.startAt + 2 * ms ≤ s.clk.mono

/-- Command bytes a host can still write: the buffer is empty and none is handed over. -/
def State.hlBusy (s : State) : Bool := s.hl.handed.isSome

/-- HL_STATUS. -/
def State.hlStatus (s : State) : Nat :=
  bit (!s.hl.rsp.isEmpty) + 2 * bit (s.hl.cmd.isEmpty && !s.hlBusy) + 4 * bit s.hlBusy + 8 * bit s.hl.overrun +
    16 * bit (s.link.bound && s.link.floorEp == some .host) + 32 * bit s.timeValid +
    64 * bit (s.hl.ctrlBadParity || s.hl.maskBadParity) + 128 * bit (!s.ev.lastGasp.isEmpty) +
    256 * maxOf (s.health.map (fun e => e.2.state.code))

/-- HL_ATTN_CAUSE: HL_STATUS bits 0, 1, 7 and 6, masked. -/
def State.hlAttnCause (s : State) : Nat :=
  let b (i : Nat) : Nat := bit (hasBit s.hlStatus i)
  (b 0 + 2 * b 1 + 4 * b 7 + 8 * b 6) &&& (s.hl.attnMask.toNat % 16)

/-- The ATTN pin in level mode: active while HL_ATTN_CAUSE is non-zero and ATTN_EN is set (R116). -/
def State.attn (s : State) : Bool :=
  hasBit s.hl.ctrl.toNat 0 && !hasBit s.hl.ctrl.toNat 2 && s.hlAttnCause != 0

/-- In pulse mode, with ATTN_EN set, ATTN is active for 1 µs at each rise of a bit of HL_ATTN_CAUSE (R116). The rises of one command
make one pulse (log entry 85). -/
def State.noteAttn (s : State) : State :=
  let now_ := s.hlAttnCause
  let rose := (List.range 4).any (fun i => hasBit now_ i && !hasBit s.hl.lastCause i)
  { s with hl.lastCause := now_
           out := if rose && hasBit s.hl.ctrl.toNat 0 && hasBit s.hl.ctrl.toNat 2 then s.out ++ [.attnPulse] else s.out }

/-- What a command has left is judged and reported: the pace governor projects every queue (R227), and changes of health are told
in ascending unit ID (R39, R486); none in HOLD and OFF. -/
def State.settle (s : State) : State :=
  if s.running then ((s.govern.units.foldl (fun s u => s.report u (s.healthOf u)) s.govern).noteCalm).noteAttn else s

/-! ## Pins and slow-domain registers -/

/-- Clocks a read with 0xEB waits: 0–3 act as 4 (HL_CTRL.DUMMY). -/
def State.hlDummy (s : State) : Nat := max 4 (s.hl.ctrl.toNat / 16 % 16)

/-- SD_POWER. -/
def State.sdPower (s : State) : Nat :=
  (match s.pwr.state with | .quiet => 1 | .lastGasp => 2 | _ => 0) + 8 * bit (4400 ≤ s.pwr.vinMv) +
    16 * bit (s.num 0xA024 ≤ s.pwr.vbatMv) + 256 * (s.pwr.vbatShown / 20 % 256) + 65536 * s.pwr.lastReset

/-- ALARM1 conducts: RUN or QUIET and no unit OUT; it is released through every reset (R611). -/
def State.alarm1 (s : State) : Bool :=
  s.running && (s.pwr.state == .run || s.pwr.state == .quiet) && s.health.all (fun e => e.2.state != .out)

/-- ALARM2 conducts: ALARM1 does, and no unit is DEGRADED (R611). -/
def State.alarm2 (s : State) : Bool := s.alarm1 && s.health.all (fun e => e.2.state != .degraded)

/-- V3P3_OUT supplies 3.3 V: while the main domain runs, and not in HOLD or OFF (R601). -/
def State.v3p3Out (s : State) : Bool := s.powered

/-- PPS_OUT is high: for 100 ms from each whole second of the time base, as ptp.pps_out lets it (R450, R610). -/
def State.ppsOut (s : State) : Bool :=
  s.running && s.clk.timeBase % sec < 100 * ms && (match s.num 0x702C with | 0 => false | 1 => s.timeValid | _ => true)

end Sys2Proof.Machine
end

