-- ==== Sys2Proof/Machine/Link.lean ====
section
/-!
DEFINITION. The Shotas link (R44–R82): the checks of R66 in their order, lanes, sessions, the Holder, responses. A command
gives its opcode, who may use it, its lanes, its layout (R621) and its body; `State.request` does the rest.
-/

namespace Sys2Proof.Machine

/-! ## Status codes (Table 2.6) -/

abbrev stOk : Nat := 0
abbrev stUnsupported : Nat := 1
abbrev stClassDenied : Nat := 2
abbrev stNotHolder : Nat := 3
abbrev stSuperseded : Nat := 4
abbrev stClaimLow : Nat := 5
abbrev stRange : Nat := 6
abbrev stAbsent : Nat := 7
abbrev stBusy : Nat := 8
abbrev stTooLate : Nat := 9
abbrev stSequence : Nat := 10
abbrev stFormat : Nat := 11
abbrev stState : Nat := 12
abbrev stVerifyFailed : Nat := 13
abbrev stAttrDenied : Nat := 14

/-- Statuses kept for a resend (Table 2.6). -/
def statusCached (st : Nat) : Bool := st != stBusy && st != stSequence && st != stFormat

/-! ## Commands -/

/-- Who may use an opcode (Table 2.4, R56, R75): `open_` without a claim, `holder` with the Holder's claim, `exempt` with the
claim on an Operator port and without it on the Custodian's, `custodian` on the Custodian's port alone, `peer` from a
module of the ring peer table; `unknown` is an opcode that the release does not implement (R8). -/
inductive Access where
  | open_ | holder | exempt | custodian | peer | unknown
  deriving DecidableEq, Repr

/-- What a command's body answers: its final status and payload, with what happens once the response has been sent; or that
it has begun and its response comes later. -/
inductive Result where
  | done (status : Nat) (payload : List Byte) (s : State)
  | doneThen (status : Nat) (payload : List Byte) (s : State) (after : State → State)
  | wait (s : State)

/-- An opcode as its group's table gives it. -/
structure Command where
  opcode : Nat
  access : Access
  firstLane : Nat
  layout : List Byte → Bool
  body : Req → State → Result

/-- The response carries no data. -/
def fail (status : Nat) (s : State) : Result := .done status [] s

/-- OK with a payload. -/
def ok (payload : List Byte) (s : State) : Result := .done stOk payload s

/-- The payload is empty. -/
def isEmpty (p : List Byte) : Bool := p.isEmpty

/-- The payload has exactly `n` bytes. -/
def exactly (n : Nat) (p : List Byte) : Bool := p.length == n

/-- count u16, reserved u16, then count entries of `n` bytes. -/
def counted (n : Nat) (p : List Byte) : Bool := 4 ≤ p.length && p.length == 4 + n * fld p 0 2

/-- The entries of a counted payload. -/
def entries (n : Nat) (p : List Byte) : List (List Byte) :=
  (List.range (fld p 0 2)).map (fun i => slice p (4 + n * i) n)

/-- The class code of a request's port (R620). -/
def classCode (x : Source) : Nat := if x = .uart then 0 else 1

/-! ## Responses -/

/-- Responses that travel as express traffic (R47). -/
def State.isExpress (s : State) (dst : Source) (lane opcode : Nat) : Bool :=
  lane == 1 || (opcode / 256 == 0x40 && 0xC0 ≤ opcode % 256) || s.expressTag dst

/-- Send a response: `flags` holds DIR, and INTERIM for an interim one. -/
def State.respond (s : State) (dst : Source) (lane : Nat) (seq : Seq32) (opcode flags status : Nat)
    (payload : List Byte) : State :=
  s.send dst (s.isExpress dst lane opcode) (message lane flags seq.toNat opcode status s.link.floor payload)

/-- A BUSY response; its wait is a free value (log entry 13). -/
def State.respondBusy (s : State) (dst : Source) (lane : Nat) (seq : Seq32) (opcode : Nat) : State :=
  let d := s.draw
  d.2.respond dst lane seq opcode 1 stBusy (u16 d.1)

/-- BUSY before a switch-over, waiting until 350 ms after the armed instant (Table 15.5). -/
def State.respondSwitch (s : State) (dst : Source) (lane : Nat) (seq : Seq32) (opcode : Nat) : State :=
  let until_ := s.switchAt.getD 0 + 350 * ms
  s.respond dst lane seq opcode 1 stBusy (u16 (min 65535 ((until_ - s.clk.timeBase + ms - 1) / ms)))

/-! ## Sessions and lanes -/

def Lane.fresh : Lane :=
  { synced := false, seq := 0#32, cmd := none, phase := .idle, admittedAt := 0, admittedTb := 0, interimSent := false,
    cached := none }

/-- RESET_DONE's payload (Table 2.11). -/
def State.resetDone (s : State) : List Byte :=
  u8 s.pwr.lastReset ++ zeros 3 ++ u32 s.pwr.cycles ++ u32 s.pwr.opSeconds

/-- HOLDER_CHANGED's payload (Table 2.11). -/
def holderChanged (old new : Claim) (cause : Nat) (ep : Option Endpoint) : List Byte :=
  u64 old.toNat ++ u64 new.toNat ++ u8 cause ++
    (match ep with
     | none => u8 0 ++ zeros 2 ++ zeros 6
     | some (.ring m) => u8 1 ++ zeros 2 ++ macBytes m
     | some .host => u8 2 ++ zeros 2 ++ zeros 6
     | some .uart => u8 3 ++ zeros 2 ++ zeros 6) ++ zeros 2

/-- A session opens, and hears of the last reset (R57, R82). Every session that opens before the next reset hears of it, with
the F of that reset, whatever has been bound since (log entry 81). -/
def State.openSession (s : State) (src : Source) : State :=
  let ep := src.endpoint
  let x : Session :=
    { ep := ep, src := src, lanes := List.replicate 7 .fresh, notices := [], nextNotice := 0, dropped := 0, mask := 0,
      lastRx := s.clk.mono, snapshot := none }
  let s := { s with link.sessions := s.link.sessions ++ [x] }.noticeTo ep 0x10E1 s.resetDone
  match s.link.heldAtReset with
  | some f => s.noticeTo ep 0x20E0 (holderChanged f f 4 none)
  | none => s

def isRing (ep : Endpoint) : Bool :=
  match ep with
  | .ring _ => true
  | _ => false

def State.ringSessions (s : State) : List Session := s.link.sessions.filter (fun x => isRing x.ep)

/-- A message from a new source finds no room (R57). -/
def State.noRoom (s : State) (ep : Endpoint) : Bool :=
  isRing ep && (s.session? ep).isNone && 16 ≤ s.ringSessions.length

/-- Commands of an endpoint that have begun are answered to nobody when its session has ended (R58). -/
def State.forgetWaiters (s : State) (ep : Endpoint) : State :=
  { s with mesh.probes := s.mesh.probes.map (fun p => if p.waiter.any (fun w => w.1 == ep) then { p with waiter := none } else p)
           ptp.seedWaiters := s.ptp.seedWaiters.filter (fun w => w.1 != ep)
           rtc.set := s.rtc.set.map (fun x => { x with waiters := x.waiters.filter (fun w => w.1 != ep) })
           plan.held := s.plan.held.map (fun e => (e.1, e.2.filter (fun w => w.1 != ep)))
           up.card := s.up.card.map (fun c => { c with waiter := c.waiter.filter (fun w => w.1 != ep) }) }

/-- The session ends: lanes, notices, snapshot and cursors go; the Holder binding stays (R58, R377, R470). -/
def State.lapse (s : State) (ep : Endpoint) : State :=
  { s.forgetWaiters ep with link.sessions := s.link.sessions.filter (fun x => x.ep != ep)
                            hs.cursors := s.hs.cursors.filter (fun c => c.ep != ep) }

def Session.lane (x : Session) (n : Nat) : Lane := (x.lanes[n - 1]?).getD .fresh

def State.lane (s : State) (ep : Endpoint) (n : Nat) : Lane := ((s.session? ep).map (fun x => x.lane n)).getD .fresh

def State.setLane (s : State) (ep : Endpoint) (n : Nat) (l : Lane) : State :=
  s.onSession ep (fun x => { x with lanes := lset x.lanes (n - 1) l })

/-- The session has received a message. -/
def State.touch (s : State) (src : Source) : State :=
  s.onSession src.endpoint (fun x => { x with lastRx := s.clk.mono, src := src })

/-- Commands admitted and not yet answered, across all sessions (R65). -/
def State.admitted (s : State) : Nat :=
  sumOf (s.link.sessions.map (fun x => (x.lanes.filter (fun l => l.phase != .idle)).length))

/-- What Table 2.3 says of a request. -/
inductive Verdict where
  | accept | resendFinal | resendInterim | busy | sequence
  deriving DecidableEq, Repr

/-- Same header and payload, the RETRY and SYNC bits apart (R60). -/
def sameContent (opcode : Nat) (r : Req) (o : Nat × Req) : Bool :=
  o.1 == opcode && r.seq == o.2.seq && (r.flags ||| 0xC#16) == (o.2.flags ||| 0xC#16) && r.claim == o.2.claim &&
    r.status == o.2.status && r.payload == o.2.payload

/-- When the lane's command was admitted: on the module's clock and on the time base. A command that waited for its unit counts its
delays from there (R622, R157). -/
def State.admittedAt (s : State) (r : Req) : Ns := (s.lane r.src.endpoint r.lane.toNat).admittedAt
def State.admittedTb (s : State) (r : Req) : Ns := (s.lane r.src.endpoint r.lane.toNat).admittedTb

/-- Table 2.3, first matching row. -/
def Lane.verdict (l : Lane) (opcode : Nat) (r : Req) : Verdict :=
  let sync := r.flags.getLsbD 2
  let executing := l.phase != .idle
  if !l.synced then (if sync then .accept else .sequence)
  else if (l.cmd.map (sameContent opcode r)).getD false then (if executing then .resendInterim else .resendFinal)
  else if sync then (if executing then .busy else .accept)
  else if r.seq = l.seq + 1#32 then (if executing then .busy else .accept)
  else .sequence

/-! ## The Holder (R73–R78) -/

/-- The Holder check: `none` where it passes (R73, R74). -/
def State.holderCheck (s : State) (ep : Endpoint) (claim : Claim) : Option Nat :=
  if s.link.bound ∧ s.link.floorEp = some ep ∧ claim = s.link.floor then none
  else if claim ≠ 0#64 ∧ claim.toNat < s.link.floor.toNat then some stSuperseded
  else some stNotHolder

/-- A source MAC address of the ring peer table; a handover message names its sender's segment, whose entry it must be (R56,
R432, Table 5.8). -/
def State.isPeer (s : State) (opcode : Nat) (r : Req) : Bool :=
  match r.src with
  | .ring m _ _ _ =>
    if opcode / 256 = 0x40 then tget s.ring.peers (pidSegment (pidAt r.payload 4)) == some m
    else s.ring.peers.any (fun e => e.2 == m)
  | _ => false

/-- Class and Holder checks (R20, R71, R75): the status of the first that fails. -/
def State.accessCheck (s : State) (c : Command) (r : Req) : Option Nat :=
  match c.access with
  | .open_ => none
  | .holder => s.holderCheck r.src.endpoint r.claim
  | .exempt => if r.src = .uart then none else s.holderCheck r.src.endpoint r.claim
  | .custodian => if r.src = .uart then none else some stClassDenied
  | .peer => if s.isPeer c.opcode r then none else some stClassDenied
  | .unknown => some stUnsupported

/-- A pending command the Holder's transitions overtake (R77): it was admitted under the Holder check and has made no change yet.
A TIME_SEED that waits for its edge and an RTC_SET that waits for its load have made none (R451, R566). -/
def overtaken (ep : Endpoint) (l : Lane) : Bool :=
  match l.cmd with
  | some (op, _) =>
    (l.phase == .waiting || (l.phase == .begun && (op == 0x7011 || op == 0xA002))) && op % 256 < 0xC0 &&
      !(ep == .uart && (op / 256 == 0x90 || op / 256 == 0x98))
  | none => false

/-- A transition overtakes every command that waits under the Holder check (R77); the seed and the RTC setting they wait with
come to nothing. -/
def State.supersede (s : State) : State :=
  { s with link.sessions := s.link.sessions.map (fun x =>
             { x with lanes := x.lanes.map (fun l => if overtaken x.ep l then { l with phase := .superseded } else l) })
           ptp.seed := none, ptp.seedWaiters := [], rtc.set := none }

/-- Empty the staging area (R98). -/
def State.unstage (s : State) : State := { s with link.staged := [] }

/-! ## Requests -/

/-- The lane's command ends with its final response, which is kept for a resend; BUSY and FORMAT leave the lane as it was
before (R61, R62, Table 2.6). -/
def State.conclude (_s : State) (c : Command) (r : Req) (before : Lane) (res : Result) : State :=
  let ep := r.src.endpoint
  let n := r.lane.toNat
  let answer (status : Nat) (payload : List Byte) (s : State) : State :=
    if statusCached status then
      let l := s.lane ep n
      (s.setLane ep n { l with phase := .idle, cached := some (status, payload) }).respond
        r.src n r.seq c.opcode 1 status payload
    else (s.setLane ep n before).respond r.src n r.seq c.opcode 1 status payload
  match res with
  | .done status payload s => answer status payload s
  | .doneThen status payload s after => after (answer status payload s)
  | .wait s => s.setLane ep n { s.lane ep n with phase := .begun }

/-- The command's own checks and effect, after the Holder checks and the limit of 64 (R20, R65). A unit that cannot start
it keeps it waiting (log entry 4). -/
def State.accept (s : State) (c : Command) (r : Req) (before : Lane) : State :=
  let ep := r.src.endpoint
  let n := r.lane.toNat
  match s.accessCheck c r with
  | some st =>
    let s := if c.access = .peer ∧ isRing ep then s.bump 0x70F6 else s
    s.conclude c r before (fail st s)
  | none =>
    if c.access ≠ .open_ ∧ s.switchWaits then s.setLane ep n before |>.respondSwitch r.src n r.seq c.opcode
    else if 64 < s.admitted then s.setLane ep n before |>.respondBusy r.src n r.seq c.opcode
    else if r.waits ∧ c.access ≠ .open_ ∧ c.opcode / 256 ≠ 0x20 then s.setLane ep n { s.lane ep n with phase := .waiting }
    else s.conclude c r before (c.body r s)

/-- The command takes its lane (Table 2.3): nothing of an earlier one remains. -/
def State.occupy (s : State) (c : Command) (r : Req) : State :=
  { s with pwr.idleSince := none }.setLane r.src.endpoint r.lane.toNat
    { synced := true, seq := r.seq, cmd := some (c.opcode, r), phase := .begun, admittedAt := s.clk.mono, admittedTb := s.clk.timeBase,
      interimSent := false, cached := none }

/-- A request that passed the header, lane and room checks meets the lane (Table 2.3) and the layout check (R621). -/
def State.onLane (s : State) (c : Command) (r : Req) : State :=
  let ep := r.src.endpoint
  let n := r.lane.toNat
  let l := s.lane ep n
  match l.verdict c.opcode r with
  | .resendFinal =>
    match l.cached with
    | some (st, p) => s.respond r.src n r.seq c.opcode 1 st p
    | none => s
  | .resendInterim => s.respond r.src n r.seq c.opcode 3 stOk []
  | .busy => s.respondBusy r.src n r.seq c.opcode
  | .sequence => s.respond r.src n r.seq c.opcode 1 stSequence []
  | .accept =>
    if !c.layout r.payload then s.respond r.src n r.seq c.opcode 1 stFormat []
    else (s.occupy c r).accept c r l

/-- The module hears the message: it runs, and a ring frame is addressed to it, outside step 2 of Table 15.5. A group address
is counted (R45). -/
def State.hears (s : State) (src : Source) : Bool :=
  s.running && match src with
  | .ring _ _ .module _ => !s.switchQuiet
  | .ring _ _ _ _ => false
  | _ => true

/-- A message that is not heard leaves its count, if it has one (R45). -/
def State.unheard (s : State) (src : Source) : State :=
  match src with
  | .ring _ _ .group _ =>
    if s.running then { s with link.counts.groupFrames := s.link.counts.groupFrames + 1 } else s
  | _ => s

/-- A message marked RETRY is counted (Table 2.2). -/
def State.countRetry (s : State) (r : Req) : State :=
  if r.flags.getLsbD 3 then { s with link.counts.retries := s.link.counts.retries + 1 } else s

/-- The lane and the length of the header (R51, R59, R66). -/
def Command.headerOk (c : Command) (r : Req) : Bool :=
  c.firstLane ≤ r.lane.toNat && r.lane.toNat ≤ 7 && r.payload.length ≤ 1472

/-- The partner's session hears the message; it opens where there is none (R57). The one session of the host link or of the
service UART opens in the same way, at its first message that passes (log entry 82). -/
def State.sessionHears (s : State) (r : Req) : State :=
  (if (s.session? r.src.endpoint).isSome then s else s.openSession r.src).touch r.src

/-- The header checks of R53 that are left to a request with a valid CRC and version: its lane and its length. -/
def formedHeader (r : Req) : Bool := r.lane.toNat ≤ 7 && r.payload.length ≤ 1472

/-- A request received on a port, checked in the order of R66. R53 comes before R54, and a message with DIR set that is discarded
does not count as one that the session has received (log entry 82). -/
def State.request (s : State) (c : Command) (r : Req) : State :=
  if !s.hears r.src then s.unheard r.src
  else if r.flags.getLsbD 0 && formedHeader r then { s with link.counts.dirDiscards := s.link.counts.dirDiscards + 1 }
  else if !c.headerOk r then
    ((s.countRetry r).touch r.src).respond r.src r.lane.toNat r.seq c.opcode 1 stFormat []
  else if s.noRoom r.src.endpoint then (s.countRetry r).respondBusy r.src r.lane.toNat r.seq c.opcode
  else ((s.countRetry r).sessionHears r).onLane c r

/-- A command given on a port, whole: time passes, the request is handled, health changes are reported. -/
def shotas (c : Command) (r : Req) (s : State) : Host.Outcome State Fault Refusal :=
  .next ((s.begin r.dt).request c r).settle

/-- An event inside a running module. -/
def event (dt : Ns) (f : State → State) (s : State) : Host.Outcome State Fault Refusal :=
  let s := s.begin dt
  .next (if s.running then (f s).settle else s)

/-- An event of the slow domain or of the supplies, which happens in every power state. -/
def always (dt : Ns) (f : State → State) (s : State) : Host.Outcome State Fault Refusal :=
  .next (f (s.begin dt)).settle

/-- The command in progress on a lane ends now with `status` and `payload`; after a commit's response the UART runs at the committed
rate (R48). -/
def State.finish (s : State) (ep : Endpoint) (n status : Nat) (payload : List Byte) : State :=
  let l := s.lane ep n
  match l.cmd with
  | some (op, r) =>
    if l.phase = .idle then s
    else
      let s := (s.setLane ep n { l with phase := .idle, cached := some (status, payload) }).respond r.src n r.seq op 1 status
        payload
      if op = 0x1005 ∧ status = stOk then { s with link.uartRate := s.num 0x2001 } else s
  | none => s

end Sys2Proof.Machine
end

