-- ==== Sys2Proof/Machine/Chain.lean ====
section
/-!
DEFINITION. The output chain (R400–R418): forces, commanded states, chain cycles and readback. Dwell and inrush times run on
the passing of time, not on network time.
-/

namespace Sys2Proof.Machine

/-! ## Demand (R411, R413) -/

def ChainCircuit.idle : ChainCircuit :=
  { plan := false, commanded := false, lastChange := none, lastStamp := 0, dwellWait := false, inrushWait := false,
    sensed := 2 }

def State.circuitOf (s : State) (c : Nat) : ChainCircuit := (tget s.oc.circuits c).getD .idle

def State.onCircuit (s : State) (c : Nat) (f : ChainCircuit → ChainCircuit) : State :=
  { s with oc.circuits := tput s.oc.circuits c (f (s.circuitOf c)) }

/-- The mode of the force in effect: 0 AUTO, 1 ON, 2 OFF. -/
def State.forceMode (s : State) (c : Nat) : Nat := ((tget s.oc.current c).map (fun f => f.mode)).getD 0

/-- The circuit lies on a latch of the chain and is in use (R400). -/
def State.switchable (s : State) (c : Nat) : Bool := s.circuitUsed c && c < 8 * s.num 0x6801

/-- A circuit's demand (R413); none is demanded that is not in use or lies beyond the chain (R400). -/
def State.demanded (s : State) (c : Nat) : Bool :=
  s.switchable c && (match s.forceMode c with
    | 1 => true
    | 2 => false
    | _ => (s.circuitOf c).plan)

def State.latch (s : State) (l : Nat) : Latch :=
  (s.oc.latches[l]?).getD { state := 0, bad := 0, claim := 0#64, straps := 0, sensed := 0, shorts := 0, lastSeq := 0 }

/-- Channels `a ≤ b` of latch `l` are joined by flagged shorts; a latch beyond the chain has none. -/
def State.joined (s : State) (l a b : Nat) : Bool :=
  l < s.num 0x6801 && (List.range (b - a)).all (fun i => hasBit (s.latch l).shorts (a + i))

/-- The state a circuit is to have: its demand, or that any circuit shorted to it is demanded ON (R411). -/
def State.wanted (s : State) (c : Nat) : Bool :=
  (List.range 8).any (fun n =>
    let d := c / 8 * 8 + n
    s.demanded d && s.joined (c / 8) (min n (c % 8)) (max n (c % 8)))

/-- Why a circuit has its wanted state: 0 plan, 1 force, 2 short pairing, 3 not in use (Table 10.5). -/
def State.demandSource (s : State) (c : Nat) : Nat :=
  if s.wanted c ≠ s.demanded c then 2
  else if !s.switchable c then 3
  else if s.forceMode c = 0 then 0 else 1

/-! ## Commanded states (R414) -/

/-- A commanded state changes: counted, told, kept in the History Store, and a cycle is due (R406). -/
def State.switch (s : State) (c : Nat) (on : Bool) : State :=
  let x := s.circuitOf c
  let src := s.demandSource c
  let s := s.onCircuit c (fun x => { x with commanded := on, lastChange := some s.clk.mono, lastStamp := s.now,
                                            dwellWait := false, inrushWait := false })
  let s := { s.bump 0x68F4 with oc.due := true, oc.lastOn := if on then some s.clk.mono else s.oc.lastOn }
  let head := u8 c ++ u8 (bit x.commanded) ++ u8 (bit on) ++ u8 src
  (s.raise 0x68E0 0x0F (head ++ u32 0 ++ u64 s.now)).hist s.now (s.circuitPid c) 0x0B
    (head ++ u8 x.sensed ++ zeros 11)

/-- One circuit follows its wanted state, or waits. -/
def State.follow (s : State) (c : Nat) : State :=
  let x := s.circuitOf c
  let want := s.wanted c
  if want = x.commanded then
    (if x.dwellWait || x.inrushWait then s.onCircuit c (fun x => { x with dwellWait := false, inrushWait := false }) else s)
  else if (match x.lastChange with | some t => decide (s.clk.mono < t + s.num 0x6804 * sec) | none => false) then
    s.onCircuit c (fun x => { x with dwellWait := true, inrushWait := false })
  else if want = false then s.switch c false
  else if (match s.oc.lastOn with | some t => decide (s.clk.mono < t + s.num 0x6803 * ms) | none => false) then
    s.onCircuit c (fun x => { x with dwellWait := false, inrushWait := true })
  else s.switch c true

/-- Every circuit follows its demand, in ascending order, once the chain runs on demand (R408); one that lies beyond the chain
is commanded OFF (R400). -/
def State.followAll (s : State) : State :=
  if s.oc.phase < 2 then s else (List.range s.circuitsFitted).foldl (fun s c => s.follow c) s

/-- The light plan's demand for a circuit as it stands now (R148). -/
def State.demandNow (s : State) (c : Nat) : State :=
  let d := s.demand c
  if (s.circuitOf c).plan = d then s else s.onCircuit c (fun x => { x with plan := d })

/-- The demand of every circuit, and what follows from it. -/
def State.demandAll (s : State) : State := ((List.range s.circuitsFitted).foldl (fun s c => s.demandNow c) s).followAll

/-! ## Forces (R415) -/

/-- A force comes into effect; AUTO ends the force. -/
def State.startForce (s : State) (c : Nat) (f : Force) : State :=
  { s with oc.forces := tdel s.oc.forces c
           oc.current := if f.mode = 0 then tdel s.oc.current c else tput s.oc.current c { f with begun := true } }

/-- Circuits a CIRCUIT_FORCE names. -/
def State.forceTargets (s : State) (c : Nat) : List Nat :=
  if c = 0xFF then (List.range s.circuitsFitted).filter (fun c => s.circuitUsed c) else [c]

def circuitForceBody (r : Req) (s : State) : Result :=
  let c := fld r.payload 0 1
  let mode := fld r.payload 1 1
  let tol := fld r.payload 4 4
  let start := fld r.payload 8 8
  let finish := fld r.payload 16 8
  let t := s.tb
  if start = 0 ∨ finish ≤ start ∨ (48 ≤ c ∧ c ≠ 0xFF) ∨ 2 < mode then fail stRange s
  else if s.circuitsFitted ≤ c ∧ c ≠ 0xFF then fail stAbsent s
  else if finish ≤ t ∨ (tol ≠ 0xFFFFFFFF ∧ start + tol * ms < t) then fail stTooLate s
  else
    let eff := max start t
    let f : Force := { mode := mode, start := eff, finish := finish, begun := false }
    let s := (s.forceTargets c).foldl (fun s c =>
      if eff ≤ t then s.startForce c f else { s with oc.forces := tput s.oc.forces c f }) s
    ok (u64 eff) s.followAll

def circuitForceCommand : Command :=
  { opcode := 0x6801, access := .holder, firstLane := 1, layout := exactly 24, body := circuitForceBody }

/-- CIRCUIT_FORCE (R415). -/
def execCircuitForce (r : Req) (s : State) : Host.Outcome State Fault Refusal := shotas circuitForceCommand r s

/-- Circuit `c` shares a flagged short. -/
def State.shorted (s : State) (c : Nat) : Bool :=
  hasBit (s.latch (c / 8)).shorts (c % 8) && c % 8 < 7 || (0 < c % 8 && hasBit (s.latch (c / 8)).shorts (c % 8 - 1))

/-- An entry of CIRCUIT_STATUS (Table 10.5). -/
def State.circuitEntry (s : State) (c : Nat) : List Byte :=
  let x := s.circuitOf c
  u8 c ++ u8 (bit (s.demanded c)) ++ u8 (s.demandSource c) ++ u8 (bit x.commanded) ++ u8 x.sensed ++
    u8 (bit (s.shorted c) + 2 * bit ((s.latch (c / 8)).state == 3) + 4 * bit x.dwellWait + 8 * bit x.inrushWait) ++
    u16 0 ++ u64 x.lastStamp

def circuitStatusBody (_ : Req) (s : State) : Result :=
  ok (u16 s.circuitsFitted ++ u16 0 ++ ((List.range s.circuitsFitted).map s.circuitEntry).flatten) s

def circuitStatusCommand : Command :=
  { opcode := 0x6802, access := .holder, firstLane := 1, layout := isEmpty, body := circuitStatusBody }

/-- CIRCUIT_STATUS (R416). -/
def execCircuitStatus (r : Req) (s : State) : Host.Outcome State Fault Refusal := shotas circuitStatusCommand r s

/-- An entry of LATCH_STATUS (Table 10.5). -/
def State.latchEntry (s : State) (l : Nat) : List Byte :=
  let x := s.latch l
  u8 l ++ u8 x.state ++ u8 x.straps ++ u8 x.sensed ++ u8 x.shorts ++ u8 x.lastSeq ++ u16 0 ++ u64 x.claim.toNat ++
    u32 (s.counter 0x6882 l) ++ u32 0

def latchStatusBody (_ : Req) (s : State) : Result :=
  let n := s.num 0x6801
  ok (u16 n ++ u16 0 ++ ((List.range n).map s.latchEntry).flatten) s

def latchStatusCommand : Command :=
  { opcode := 0x6803, access := .holder, firstLane := 1, layout := isEmpty, body := latchStatusBody }

/-- LATCH_STATUS (R416). -/
def execLatchStatus (r : Req) (s : State) : Host.Outcome State Fault Refusal := shotas latchStatusCommand r s

/-! ## The chain cycle (Table 10.3) -/

/-- A frame (Table 10.1) from its first 112 bits: claim, outputs, command, sequence, position. -/
def latchFrame (claim : Claim) (outputs command seq position : Nat) : BitVec 128 :=
  let body := be 8 claim.toNat ++ u8 outputs ++ u8 command ++ u8 seq ++ u8 position ++ zeros 2
  BitVec.ofNat 128 (fromBe (body ++ be 2 (crc16 body)))

/-- Outputs of a latch: bit `n` for the channel of circuit 8 × latch + n. -/
def State.outputs (s : State) (l : Nat) : Nat :=
  sumOf ((List.range 8).map (fun n => 2 ^ n * bit ((s.circuitOf (8 * l + n)).commanded)))

/-- A status word (Table 10.2) whose CRC and address are right. -/
def statusValid (w : BitVec 128) (position : Nat) : Bool :=
  let b := be 16 w.toNat
  crc16 (b.take 14) == fromBe (b.drop 14) && w.toNat / 2 ^ 32 % 8 == position

def statusCrcBad (w : BitVec 128) : Bool := let b := be 16 w.toNat; crc16 (b.take 14) != fromBe (b.drop 14)

/-- A latch's reading is judged (R409); each change of its state or shorts raises LATCH_FAULT (R412). -/
def State.judge (s : State) (l : Nat) (w : BitVec 128) : State :=
  let x := s.latch l
  let n := w.toNat
  let valid := statusValid w l
  let claim : Claim := BitVec.ofNat 64 (n / 2 ^ 64)
  let shorts := n / 2 ^ 48 % 128
  let reject := decide (s.link.floor.toNat < claim.toNat)
  let state := if valid then (if reject then 2 else if hasBit n 40 then 3 else 0) else if 2 ≤ x.bad then 1 else x.state
  let y : Latch :=
    if valid then { state := state, bad := 0, claim := claim, straps := n / 2 ^ 32 % 256, sensed := n / 2 ^ 56 % 256,
                    shorts := shorts, lastSeq := n / 2 ^ 24 % 256 }
    else { x with state := state, bad := min 3 (x.bad + 1) }
  let s := if statusCrcBad w then s.bump 0x6882 l else s
  let s := if valid && reject then s.bump 0x68F1 else s
  let s := if y.state = 3 ∧ x.state ≠ 3 then s.bump 0x68F2 else s
  let s := s.bump 0x68F3 0 ((List.range 7).countP (fun i => hasBit y.shorts i && !hasBit x.shorts i))
  let s := { s with oc.latches := lset s.oc.latches l y }
  let s := (List.range 8).foldl (fun s i =>
    let c := 8 * l + i
    if c < s.circuitsFitted then s.onCircuit c (fun z => { z with sensed := if valid then bit (hasBit y.sensed i) else 2 })
    else s) s
  if y.state = x.state ∧ y.shorts = x.shorts then s
  else s.raise 0x68E1 0x0F
    (u8 l ++ u8 x.state ++ u8 y.state ++ u8 y.shorts ++ u32 0 ++ u64 y.claim.toNat ++ u64 s.now)

/-- The frames of a cycle: NOP first after a reset, then the sensed levels, then the commanded states (R408). -/
def State.chainFrames (s : State) : List (BitVec 128) :=
  (List.range (s.num 0x6801)).map (fun l =>
    latchFrame s.link.floor (match s.oc.phase with | 0 => 0 | 1 => (s.latch l).sensed | _ => s.outputs l)
      (bit (s.oc.phase != 0)) s.oc.seq.toNat l)

/-- The sensed levels of the NOP cycle become the commanded states until the plan's demand takes over (R408). -/
def State.adoptSensed (s : State) : State :=
  (List.range s.circuitsFitted).foldl (fun s c => s.onCircuit c (fun x => { x with commanded := x.sensed == 1 })) s

/-- A chain cycle is due: a commanded state or F has changed, or oc.refresh_ms has passed; never within 2 ms (R406). -/
def State.cycleDue (s : State) : Bool :=
  (s.oc.due || s.oc.lastCycle + s.num 0x6802 * ms ≤ s.clk.mono) &&
    (s.counter 0x68F0 == 0 || s.oc.lastCycle + 2 * ms ≤ s.clk.mono)

/-- One cycle; `words` are the status words as OC_RB gives them, that of the last latch first. -/
def State.chainCycle (s : State) (words : List (BitVec 128)) : State :=
  if !s.cycleDue then s
  else
    let n := s.num 0x6801
    let frames := s.chainFrames
    let s := { s.bump 0x68F0 with out := s.out ++ [Out.latchFrames frames], oc.lastCycle := s.clk.mono, oc.due := false,
                                  oc.seq := s.oc.seq + 1#8 }
    let s := (List.range n).foldl (fun s l => s.judge l ((words[n - 1 - l]?).getD 0#128)) s
    match s.oc.phase with
    | 0 => { s.adoptSensed with oc.phase := 1, oc.due := true }
    | _ => { s with oc.phase := 2 }.demandAll

/-- CHAIN_CYCLE (R406, Table 10.3). -/
def execChainCycle (dt : Ns) (words : List (BitVec 128)) (s : State) : Host.Outcome State Fault Refusal :=
  event dt (fun s => s.chainCycle words) s

/-- DWELL_EXPIRY (R414). Changes to ON that are due together are made in ascending circuit order, so every circuit is looked at. -/
def execDwellExpiry (dt : Ns) (circuit : Nat) (s : State) : Host.Outcome State Fault Refusal :=
  event dt (fun s => if (s.circuitOf circuit).dwellWait then s.followAll else s) s

/-- INRUSH_EXPIRY (R414): the lowest circuit that waits changes, the others wait on. -/
def execInrushExpiry (dt : Ns) (s : State) : Host.Outcome State Fault Refusal :=
  event dt (fun s => if (List.range s.circuitsFitted).any (fun c => (s.circuitOf c).inrushWait) then s.followAll else s) s

/-- CIRCUIT_FORCE_END (R415). -/
def execCircuitForceEnd (dt : Ns) (circuit : Nat) (s : State) : Host.Outcome State Fault Refusal :=
  event dt (fun s => match tget s.oc.current circuit with
    | some f => if f.finish ≤ s.tb then { s with oc.current := tdel s.oc.current circuit }.followAll else s
    | none => s) s

/-- CIRCUIT_FORCE_START (R415). -/
def execCircuitForceStart (dt : Ns) (circuit : Nat) (s : State) : Host.Outcome State Fault Refusal :=
  event dt (fun s => match tget s.oc.forces circuit with
    | some f => if f.start ≤ s.tb then (s.startForce circuit f).followAll else s
    | none => s) s

/-- CIRCUIT_DEMAND_DUE (R148, R149). -/
def execCircuitDemandDue (dt : Ns) (circuit : Nat) (s : State) : Host.Outcome State Fault Refusal :=
  event dt (fun s => if circuit < s.circuitsFitted then (s.demandNow circuit).followAll else s) s

end Sys2Proof.Machine
end

