-- ==== Sys2Proof/Machine/Crypto.lean ====
section
/-!
DEFINITION. The algorithms the manual names for keys, images and the mesh: SHA-256 (FIPS 180-4), HMAC (RFC 2104), the counter-mode
key derivation of SP 800-108, AES-128 (FIPS 197) and CCM* (IEEE 802.15.4), written as plain functions.
-/

namespace Sys2Proof.Machine

/-! ## SHA-256 -/

/-- The greatest `x` whose `k`-th power is at most `n`, from a start `x` and the bits of `x` below bit `b` still to try. -/
def rootFrom (k n : Nat) : Nat → Nat → Nat
  | 0, x => x
  | b + 1, x => rootFrom k n b (if (x + 2 ^ b) ^ k ≤ n then x + 2 ^ b else x)

/-- The first 32 bits after the point of the `k`-th root of `p`: where FIPS 180-4 takes its constants from. -/
def rootBits (k p : Nat) : Word := BitVec.ofNat 32 (rootFrom k (p * 2 ^ (32 * k)) 37 0)

/-- `n` has no divisor from 2 up to its root. -/
def isPrime (n : Nat) : Bool := 2 ≤ n && (List.range (n.sqrt + 1)).all (fun d => d < 2 || n % d != 0)

/-- The first `n` primes; the 64th is 311. -/
def primes (n : Nat) : List Nat := ((List.range 312).filter isPrime).take n

/-- Constants of the rounds: the cube roots of the first 64 primes. -/
def shaK : List Word := (primes 64).map (rootBits 3)

/-- The hash value before the first block: the square roots of the first 8 primes. -/
def shaH : List Word := (primes 8).map (rootBits 2)

def rotr (x : Word) (n : Nat) : Word := x.rotateRight n

/-- The next word of the message schedule from the last sixteen, newest first. -/
def shaNext (w : List Word) : Word :=
  let g (i : Nat) : Word := (w[i]?).getD 0#32
  let a := g 14
  let b := g 1
  g 15 + (rotr a 7 ^^^ rotr a 18 ^^^ (a >>> 3)) + g 6 + (rotr b 17 ^^^ rotr b 19 ^^^ (b >>> 10))

/-- The message schedule, newest word first. -/
def shaSchedule (n : Nat) (w : List Word) : List Word :=
  match n with
  | 0 => w
  | n + 1 => shaSchedule n (shaNext w :: w)

/-- One round. -/
def shaRound (h : List Word) (kw : Word) : List Word :=
  match h with
  | [a, b, c, d, e, f, g, k] =>
    let t1 := k + (rotr e 6 ^^^ rotr e 11 ^^^ rotr e 25) + ((e &&& f) ^^^ (~~~e &&& g)) + kw
    let t2 := (rotr a 2 ^^^ rotr a 13 ^^^ rotr a 22) + ((a &&& b) ^^^ (a &&& c) ^^^ (b &&& c))
    [t1 + t2, a, b, c, d + t1, e, f, g]
  | l => l

/-- Big-endian words of a block. -/
def beWords (n : Nat) (b : List Byte) : List Word :=
  (List.range n).map (fun i => BitVec.ofNat 32 (fromBe (slice b (4 * i) 4)))

/-- One 64-byte block. -/
def shaBlock (h : List Word) (b : List Byte) : List Word :=
  let w := (shaSchedule 48 (beWords 16 b).reverse).reverse
  let r := (w.zip shaK).foldl (fun h x => shaRound h (x.1 + x.2)) h
  List.zipWith (· + ·) h r

/-- The padded message. -/
def shaPad (m : List Byte) : List Byte :=
  m ++ [0x80#8] ++ zeros ((119 - m.length % 64) % 64) ++ be 8 (8 * m.length)

/-- SHA-256. -/
def sha256 (m : List Byte) : List Byte :=
  let p := shaPad m
  ((List.range (p.length / 64)).foldl (fun h i => shaBlock h (slice p (64 * i) 64)) shaH).flatMap (fun w => be 4 w.toNat)

/-- HMAC-SHA-256. -/
def hmac (key m : List Byte) : List Byte :=
  let k := fit 64 (if 64 < key.length then sha256 key else key)
  let pad (x : Byte) : List Byte := k.map (fun b => b ^^^ x)
  sha256 (pad 0x5C#8 ++ sha256 (pad 0x36#8 ++ m))

/-! ## AES-128 -/

/-- Multiplication by x in GF(2⁸). -/
def xtime (b : Byte) : Byte := if b.msb then (b <<< 1) ^^^ 0x1B#8 else b <<< 1

/-- The product in GF(2⁸): `n` counts the bits of `a` still to take. -/
def gmul (n : Nat) (a b : Byte) : Byte :=
  match n with
  | 0 => 0#8
  | n + 1 => (if a.getLsbD 0 then b else 0#8) ^^^ gmul n (a >>> 1) (xtime b)

/-- The 254th power, which is the inverse: the product of the powers 2, 4, 8 up to 128. -/
def ginv (b : Byte) : Byte :=
  ((List.range 7).foldl (fun (x : Byte × Byte) _ => (gmul 8 x.1 x.1, gmul 8 x.2 (gmul 8 x.1 x.1))) (b, 1#8)).2

/-- SubBytes: the inverse, then the affine map of FIPS 197. -/
def sub (b : Byte) : Byte :=
  let y := ginv b
  y ^^^ y.rotateLeft 1 ^^^ y.rotateLeft 2 ^^^ y.rotateLeft 3 ^^^ y.rotateLeft 4 ^^^ 0x63#8

def xorBytes (a b : List Byte) : List Byte := List.zipWith (· ^^^ ·) a b

/-- The next round key. -/
def nextKey (k : List Byte) (rcon : Byte) : List Byte :=
  let g (i : Nat) : Byte := (k[i]?).getD 0#8
  let t := [sub (g 13) ^^^ rcon, sub (g 14), sub (g 15), sub (g 12)]
  let w0 := xorBytes (k.take 4) t
  let w1 := xorBytes (slice k 4 4) w0
  let w2 := xorBytes (slice k 8 4) w1
  w0 ++ w1 ++ w2 ++ xorBytes (slice k 12 4) w2

/-- SubBytes and ShiftRows on a column-major state. -/
def subShift (st : List Byte) : List Byte :=
  [0, 5, 10, 15, 4, 9, 14, 3, 8, 13, 2, 7, 12, 1, 6, 11].map (fun i => sub ((st[i]?).getD 0#8))

/-- MixColumns on one column. -/
def mixColumn (c : List Byte) : List Byte :=
  let g (i : Nat) : Byte := c.getD (i % 4) 0#8
  [0, 1, 2, 3].map (fun i => xtime (g i) ^^^ xtime (g (i + 1)) ^^^ g (i + 1) ^^^ g (i + 2) ^^^ g (i + 3))

def mixColumns (st : List Byte) : List Byte :=
  mixColumn (st.take 4) ++ mixColumn (slice st 4 4) ++ mixColumn (slice st 8 4) ++ mixColumn (slice st 12 4)

/-- The rounds: all but the last mix columns. -/
def aesRounds (st key : List Byte) : List Byte → List Byte
  | [] => st
  | [r] => let k := nextKey key r; xorBytes (subShift st) k
  | r :: rs => let k := nextKey key r; aesRounds (xorBytes (mixColumns (subShift st)) k) k rs

/-- AES-128 encryption of one block. -/
def aes (key block : List Byte) : List Byte :=
  aesRounds (xorBytes block key) key
    [0x01#8, 0x02#8, 0x04#8, 0x08#8, 0x10#8, 0x20#8, 0x40#8, 0x80#8, 0x1B#8, 0x36#8]

/-! ## CCM* with a two-byte length field -/

/-- CBC-MAC over blocks. -/
def cbcMac (key data : List Byte) : List Byte :=
  (List.range ((data.length + 15) / 16)).foldl
    (fun x i => aes key (xorBytes x (fit 16 (slice data (16 * i) 16)))) (zeros 16)

/-- The key stream from counter `i`. -/
def ctrBlock (key nonce : List Byte) (i : Nat) : List Byte := aes key ([0x01#8] ++ nonce ++ be 2 i)

def ctrCrypt (key nonce data : List Byte) : List Byte :=
  xorBytes data ((List.range ((data.length + 15) / 16)).flatMap (fun i => ctrBlock key nonce (i + 1)))

/-- The tag of `mic` bytes over associated data and plaintext, nonce of 13 bytes. -/
def ccmTag (key nonce aad plain : List Byte) (mic : Nat) : List Byte :=
  let b0 := BitVec.ofNat 8 (64 * (if aad.isEmpty then 0 else 1) + 8 * ((mic - 2) / 2) + 1) :: nonce ++ be 2 plain.length
  let a := if aad.isEmpty then [] else padTo 16 (be 2 aad.length ++ aad)
  (xorBytes (cbcMac key (b0 ++ a ++ padTo 16 plain)) (ctrBlock key nonce 0)).take mic

/-- Encrypt: ciphertext and tag. -/
def ccmSeal (key nonce aad plain : List Byte) (mic : Nat) : List Byte :=
  ctrCrypt key nonce plain ++ ccmTag key nonce aad plain mic

/-- Decrypt: the plaintext where the tag verifies. -/
def ccmOpen (key nonce aad sealed : List Byte) (mic : Nat) : Option (List Byte) :=
  let n := sealed.length - mic
  let plain := ctrCrypt key nonce (sealed.take n)
  if mic ≤ sealed.length ∧ ccmTag key nonce aad plain mic = sealed.drop n then some plain else none

end Sys2Proof.Machine
end

