-- ==== Sys2Proof/Machine/Keys.lean ====
section
/-!
DEFINITION. The key store (R504–R532): slots and their records, derivation, attestation, the life cycle and Shuffle; and
the commands of group 0x90.
-/

namespace Sys2Proof.Machine

/-! ## Slots and records -/

/-- The attributes suit the type (R506, R507). -/
def attrsOk (type attrs : Nat) : Bool :=
  let has (i : Nat) : Bool := hasBit attrs i
  attrs / 8192 == 0 && !has 6 && !has 7 && attrs % 16 != 0 && attrs / 256 % 16 != 0 &&
    (type == 3 || (!has 3 && !has 12)) && (type == 1 || type == 3 || !has 1) && (type == 4 || !has 2) &&
    (type != 4 || (!has 1 && !has 3))

/-- Bytes of a key of a type (Table 14.1), 0 for no type. -/
def keyLength (type : Nat) : Nat := if type = 1 then 16 else if type = 2 ∨ type = 3 ∨ type = 4 then 32 else 0

/-- The check value of a key (R511), zeros of an EMPTY slot. -/
def KeyRecord.kcv (r : KeyRecord) : List Byte :=
  if r.type = 0 then zeros 4
  else (if r.type = 4 then sha256 r.key else hmac r.key [0x4B#8, 0x43#8, 0x56#8]).take 4

/-- The fitted slots derived from slot `i`. -/
def State.childrenOf (s : State) (i : Nat) : List Nat :=
  (List.range s.slotsFitted).filter (fun j =>
    j != i && (s.slot j).rec_.type != 0 && ((s.slot j).rec_.parent.map Prod.fst) == some i)

/-- A slot and its ancestors, `fuel` bounding the chain. -/
def State.ancestry (s : State) (fuel i : Nat) : List Nat :=
  match fuel with
  | 0 => [i]
  | fuel + 1 => match (s.slot i).rec_.parent with
    | none => [i]
    | some (p, _) => i :: s.ancestry fuel p

def State.onSlot (s : State) (i : Nat) (f : KeySlot → KeySlot) : State :=
  { s with ks.slots := lmod s.ks.slots i f }

/-- State and generation of every fitted slot. -/
def State.slotStates (s : State) : List (Nat × Nat) :=
  (List.range s.slotsFitted).map (fun i => (s.slotState i, (s.slot i).rec_.gen))

/-- KEY_CHANGED (Table 14.6). -/
def State.keyChanged (s : State) (i old new cause : Nat) : State :=
  s.raise 0x90E0 0x12 (u8 i ++ u8 old ++ u8 new ++ u8 cause ++ u32 (s.slot i).rec_.gen ++ u64 s.now)

/-- A change of slot `i`, told for it and, in ascending order, for each child it makes STALE (cause 6) or returns to ACTIVE
(cause 4) (R514, R530). A change of the node master slot discards the node keys derived from it (R515). -/
def State.changeSlot (s : State) (i cause : Nat) (f : KeySlot → KeySlot) : State :=
  let before := s.slotStates
  let s := s.onSlot i f
  let after := s.slotStates
  let moved := (List.range s.slotsFitted).filter (fun j => before[j]? != after[j]?)
  let st (l : List (Nat × Nat)) (j : Nat) : Nat := ((l[j]?).map Prod.fst).getD 0
  let s := if moved.contains (s.num 0x9003) then { s with ks.cache := [] } else s
  ((moved.filter (fun j => j == i)) ++ (moved.filter (fun j => j != i))).foldl (fun s j =>
    s.keyChanged j (st before j) (st after j) (if j = i then cause else if st after j = 3 then 6 else 4)) s

/-- A record is written in two phases over the slot's older one, and its working copy masked afresh (R520, R524). -/
def State.writeSlot (s : State) (i cause : Nat) (r : KeyRecord) : State :=
  let d := s.draw
  d.2.changeSlot i cause (fun k =>
    { rec_ := r, older := k.rec_, mask := le 32 d.1, maskedAt := s.clk.mono, recovered := false, lost := false })

/-- The next generation of a slot (R513). -/
def State.nextGen (s : State) (i : Nat) : Nat := ((s.slot i).rec_.gen + 1) % pow32

/-- An erased slot keeps its generation alone. -/
def State.eraseSlot (s : State) (i cause : Nat) : State :=
  s.writeSlot i cause { KeyRecord.empty with gen := s.nextGen i }

/-- An internal invocation (R508): a failure is counted and recorded. -/
def State.invoke (s : State) (i master : Nat) : Bool × State :=
  if s.keyUsable i master then (true, s)
  else (false, (s.bump 0x90F0).record 0x9001 0x12 (u8 i ++ u8 master ++ u8 (s.slotState i) ++ u8 s.ks.lifecycle))

/-- Key derivation in counter mode (R517): one PRF block, its leftmost `n` bytes. -/
def kdf (key label context : List Byte) (n : Nat) : List Byte :=
  (hmac key (be 4 1 ++ label ++ [0#8] ++ context ++ be 4 (8 * n))).take n

/-! ## Checks of the mutating commands (R512, R516, R522) -/

/-- Another mutating key command is in progress (R516). -/
def State.keyBusy (s : State) (r : Req) : Bool :=
  s.link.sessions.any (fun x => x.lanes.zipIdx.any (fun l =>
    !(x.ep == r.src.endpoint && l.2 + 1 == r.lane.toNat) && (l.1.phase == LanePhase.waiting || l.1.phase == LanePhase.begun) &&
      (match l.1.cmd with | some (op, _) => 0x9001 ≤ op && op ≤ 0x9004 | none => false)))

/-- BUSY with a wait of at most 10 ms (R516). -/
def keyWait (s : State) : Result := let d := s.draw; .done stBusy (u16 (d.1 % 11)) d.2

/-- Steps 1 to 3 of R512 for a slot; `attrs` is 0 where the command writes none. -/
def State.writerCheck (s : State) (r : Req) (i attrs : Nat) : Option Nat :=
  let k := (s.slot i).rec_
  let custodian := r.src = .uart
  if 64 ≤ i then some stRange
  else if s.slotsFitted ≤ i then some stAbsent
  else if !custodian ∧ (k.type = 0 ∨ !hasBit k.attrs 5) then some stAttrDenied
  else if !custodian ∧ ([0, 1, 2, 3, 8, 9, 10, 11, 12] : List Nat).any (fun b => hasBit attrs b && !hasBit k.attrs b) then
    some stAttrDenied
  else none

/-- What every mutating key command passes first: R522's STATE in LAST-GASP, then R516's BUSY, both ahead of the field checks that R512
and R518 list, for which the spec states no place among them (log entry 98). -/
def State.keyGate (s : State) (r : Req) (f : Unit → Result) : Result :=
  if s.pwr.state = .lastGasp then fail stState s else if s.keyBusy r then keyWait s else f ()

/-! ## KEY_WRITE, KEY_ERASE, KEY_DISABLE -/

/-- The key's length suits the type byte (R512). -/
def keyWriteLayout (p : List Byte) : Bool :=
  let n := p.length - 8
  8 < p.length && (if 1 ≤ fld p 1 1 ∧ fld p 1 1 ≤ 4 then n == keyLength (fld p 1 1) else n == 16 || n == 32)

def keyWriteBody (r : Req) (s : State) : Result :=
  let p := r.payload
  let i := fld p 0 1
  let type := fld p 1 1
  let attrs := fld p 4 4
  s.keyGate r (fun _ => match s.writerCheck r i attrs with
    | some st => fail st s
    | none =>
      if keyLength type = 0 ∨ !attrsOk type attrs then fail stRange s
      else if !(s.childrenOf i).isEmpty ∧ !hasBit (fld p 2 1) 0 then fail stState s
      else
        let k : KeyRecord :=
          { type := type, attrs := attrs ||| 16, gen := s.nextGen i, disabled := false, key := p.drop 8, parent := none }
        ok (u32 k.gen ++ k.kcv) (s.writeSlot i 1 k))

def keyWriteCommand : Command :=
  { opcode := 0x9001, access := .exempt, firstLane := 1, layout := keyWriteLayout, body := keyWriteBody }

/-- KEY_WRITE (R511–R513, R520). -/
def execKeyWrite (r : Req) (s : State) : Host.Outcome State Fault Refusal := shotas keyWriteCommand r s

def keyEraseBody (r : Req) (s : State) : Result :=
  let i := fld r.payload 0 1
  s.keyGate r (fun _ => match s.writerCheck r i 0 with
    | some st => fail st s
    | none =>
      if !(s.childrenOf i).isEmpty ∧ !hasBit (fld r.payload 1 1) 0 then fail stState s
      else ok (u32 (s.nextGen i)) (s.eraseSlot i 2))

def keyEraseCommand : Command :=
  { opcode := 0x9002, access := .exempt, firstLane := 1, layout := exactly 4, body := keyEraseBody }

/-- KEY_ERASE (R512, R513). -/
def execKeyErase (r : Req) (s : State) : Host.Outcome State Fault Refusal := shotas keyEraseCommand r s

def keyDisableBody (r : Req) (s : State) : Result :=
  let i := fld r.payload 0 1
  let enable := fld r.payload 1 1
  s.keyGate r (fun _ => match s.writerCheck r i 0 with
    | some st => fail st s
    | none =>
      if 1 < enable then fail stRange s
      else if (s.slot i).rec_.type = 0 then fail stState s
      else if enable = 0 ∧ !(s.childrenOf i).isEmpty ∧ !hasBit (fld r.payload 2 1) 0 then fail stState s
      else ok [] (s.changeSlot i (if enable = 0 then 3 else 4) (fun k =>
        { k with rec_ := { k.rec_ with disabled := enable = 0 }, older := k.rec_ })))

def keyDisableCommand : Command :=
  { opcode := 0x9003, access := .exempt, firstLane := 1, layout := exactly 4, body := keyDisableBody }

/-- KEY_DISABLE, which also enables (R512, R513). -/
def execKeyDisable (r : Req) (s : State) : Host.Outcome State Fault Refusal := shotas keyDisableCommand r s

/-! ## KEY_DERIVE (R517, R518) -/

def keyDeriveLayout (p : List Byte) : Bool := 12 ≤ p.length && p.length == 12 + fld p 3 1 + fld p 8 1

def keyDeriveBody (r : Req) (s : State) : Result :=
  let p := r.payload
  let parent := fld p 0 1
  let i := fld p 1 1
  let type := fld p 2 1
  let n := fld p 3 1
  let attrs := fld p 4 4
  let label := slice p 12 n
  let context := p.drop (12 + n)
  let pk := (s.slot parent).rec_
  let chain := s.ancestry 64 parent
  s.keyGate r (fun _ => match s.writerCheck r i attrs with
    | some st => fail st s
    | none =>
      if 64 ≤ parent then fail stRange s
      else if s.slotsFitted ≤ parent then fail stAbsent s
      else if !(s.slotState parent = 1 ∧ hasBit pk.attrs 12 ∧ hasBit pk.attrs (8 + s.ks.lifecycle)) then
        fail stAttrDenied s
      else if type = 0 ∨ 3 < type ∨ n = 0 ∨ 32 < n ∨ 32 < context.length ∨ label.any (fun b => 0x80 ≤ b.toNat) then
        fail stRange s
      else if !attrsOk type attrs ∨ ([0, 1, 2, 3] : List Nat).any (fun b => hasBit attrs b && !hasBit pk.attrs b) then
        fail stRange s
      else if chain.contains i ∨ 4 ≤ chain.length then fail stRange s
      else if !(s.childrenOf i).isEmpty then fail stState s
      else
        let k : KeyRecord :=
          { type := type, attrs := attrs ||| 16, gen := s.nextGen i, disabled := false,
            key := kdf pk.key label context (keyLength type), parent := some (parent, pk.gen) }
        ok (u32 k.gen ++ k.kcv) (s.writeSlot i 5 k))

def keyDeriveCommand : Command :=
  { opcode := 0x9004, access := .exempt, firstLane := 1, layout := keyDeriveLayout, body := keyDeriveBody }

/-- KEY_DERIVE (R517, R518). -/
def execKeyDerive (r : Req) (s : State) : Host.Outcome State Fault Refusal := shotas keyDeriveCommand r s

/-! ## KEY_STATUS, ATTEST -/

/-- One slot of KEY_STATUS (Table 14.6). -/
def State.slotEntry (s : State) (i : Nat) : List Byte :=
  let k := (s.slot i).rec_
  u8 i ++ u8 k.type ++ u8 (s.slotState i) ++ u8 ((k.parent.map Prod.fst).getD 0xFF) ++ u32 k.attrs ++ u32 k.gen ++ k.kcv

def keyStatusBody (_ : Req) (s : State) : Result :=
  ok (u16 s.slotsFitted ++ u16 0 ++ ((List.range s.slotsFitted).map s.slotEntry).flatten) s

def keyStatusCommand : Command :=
  { opcode := 0x9010, access := .exempt, firstLane := 1, layout := isEmpty, body := keyStatusBody }

/-- KEY_STATUS (Table 14.6). -/
def execKeyStatus (r : Req) (s : State) : Host.Outcome State Fault Refusal := shotas keyStatusCommand r s

/-- Bytes 32–63 of the attestation message (Table 14.4). -/
def State.attestFields (s : State) : List Byte :=
  u64 s.id.serial ++ pidBytes s.ownPid ++ u8 3 ++ u8 1 ++ u32 s.build ++ u8 s.ks.lifecycle ++ u8 s.up.active ++ u16 0 ++
    u64 s.now

def attestBody (r : Req) (s : State) : Result :=
  let slot := s.num 0x9002
  let recent := s.ks.attests.filter (fun t => s.clk.mono < t + sec)
  if s.num 0x9005 ≤ recent.length then (let d := s.draw; .done stBusy (u16 d.1) d.2)
  else if !s.keyUsable slot 3 then fail stAttrDenied s
  else
    let m := s.attestFields
    ok (m ++ hmac (s.slot slot).rec_.key (r.payload ++ m)) ({ s with ks.attests := recent ++ [s.clk.mono] }.bump 0x90F3)

def attestCommand : Command :=
  { opcode := 0x9020, access := .open_, firstLane := 1, layout := exactly 32, body := attestBody }

/-- ATTEST (R526). -/
def execAttest (r : Req) (s : State) : Host.Outcome State Fault Refusal := shotas attestCommand r s

/-! ## The life cycle (R527, R528) -/

/-- Every slot without U_RETIRED is erased (R528). -/
def State.retireKeys (s : State) : State :=
  (List.range s.slotsFitted).foldl (fun s i =>
    if (s.slot i).rec_.type ≠ 0 ∧ !hasBit (s.slot i).rec_.attrs 11 then s.eraseSlot i 7 else s) s

/-- The life cycle is committed first, then the keys of a retired module go (R528). -/
def State.setLifecycle (s : State) (new : Nat) : State :=
  let old := s.ks.lifecycle
  let s := { s with ks.lifecycle := new }.raise 0x90E1 0x12
    (u8 old ++ u8 new ++ u16 0 ++ u32 s.pwr.cycles ++ u64 s.now)
  if new = 3 then s.retireKeys else s

/-- Table 14.5. -/
def State.lifecycleAllows (s : State) (new confirm : Nat) : Bool :=
  let attest := s.slotState (s.num 0x9002) == 1
  let node := s.slotState (s.num 0x9003) == 1
  match s.ks.lifecycle, new with
  | 0, 1 => attest
  | 1, 2 => attest && node
  | 2, 1 => true
  | 0, 3 => confirm == 0x5245
  | 1, 3 => confirm == 0x5245
  | 2, 3 => confirm == 0x5245
  | _, _ => false

def lifecycleSetBody (r : Req) (s : State) : Result :=
  let old := s.ks.lifecycle
  let new := fld r.payload 0 1
  let answer := u8 old ++ u8 new ++ u16 0
  if old ≠ 3 ∧ new = old then ok answer s
  else if s.lifecycleAllows new (fld r.payload 2 2) then ok answer (s.setLifecycle new)
  else fail stState s

def lifecycleSetCommand : Command :=
  { opcode := 0x9030, access := .custodian, firstLane := 1, layout := exactly 4, body := lifecycleSetBody }

/-- LIFECYCLE_SET (R527). -/
def execLifecycleSet (r : Req) (s : State) : Host.Outcome State Fault Refusal := shotas lifecycleSetCommand r s

/-! ## Shuffle (R524, R525) -/

/-- Slots that have gone more than 2 s without a new mask are counted; those given a mask take it. -/
def State.shuffled (s : State) (masks : List (List Byte)) : State :=
  let late := (s.ks.slots.filter (fun k => k.rec_.type != 0 && decide (k.maskedAt + 2 * sec < s.clk.mono))).length
  let slots := s.ks.slots.mapIdx (fun i (k : KeySlot) => match masks[i]? with
    | some (b :: m) => { k with mask := b :: m, maskedAt := s.clk.mono }
    | _ => k)
  { s with ks.slots := slots }.bump 0x90F2 0 late

/-- SHUFFLE: an empty mask stands for a slot that is being invoked when its turn comes. -/
def execShuffle (dt : Ns) (masks : List (List Byte)) (s : State) : Host.Outcome State Fault Refusal :=
  event dt (fun s => s.shuffled masks) s

end Sys2Proof.Machine
end

