-- ==== Sys2Proof/Machine/PlanOps.lean ====
section
/-!
DEFINITION. How the light plan's changes reach the lanterns: PID48 checks of commands (R25), drive commands into the egress
queue and their revision in place (R123, R124, R158, R195), plan changes as items of queue 0x07 (R224, R247), and the
commands of nights and overrides.
-/

namespace Sys2Proof.Machine

/-! ## PID48 fields of commands (R3, R4, R25) -/

/-- The status that refuses a PID48 of a command, if one does. -/
def State.pidRefused (s : State) (p : Pid) : Option Nat :=
  let c := pidCircuit p
  if pidPrefix p ≠ s.ownPrefix ∨ (48 ≤ c ∧ c ≤ 61) ∨ (c = 62 ∧ pidPoint p ≠ 255) then some stRange
  else if s.circuitsFitted ≤ c ∧ c < 48 then some stAbsent else none

/-- The same for a PID48 that must name a light point. -/
def State.pointRefused (s : State) (p : Pid) : Option Nat :=
  if pidPoint p = 255 ∨ pidCircuit p = 62 then some stRange else s.pidRefused p

/-! ## Drive commands -/

/-- A duty is held at d_min while a diagnostic pulse of the channel runs (R166). -/
def State.pulsed (s : State) (p : Pid) (t : Ns) (code : DriveCode) : DriveCode :=
  match (s.lampOf p).bind (fun l => tget s.plan.types l.type) with
  | none => code
  | some ty =>
    let inPulse (ch : Nat) : Bool := match (tget s.plan.diag (pointKey p * 2 + ch)).bind (fun d => d.pulseUntil) with
      | some e => decide (e ≤ t + ty.diagMs * ms ∧ t < e)
      | none => false
    { code with duty0 := if inPulse 0 then max code.duty0 ty.dMin else code.duty0
                duty1 := if inPulse 1 then max code.duty1 ty.dMin else code.duty1 }

/-- The code a command launching at `t` carries. -/
def State.codeAt (s : State) (p : Pid) (t : Ns) : Option (DriveCode × Nat) :=
  (s.combined p t).map (fun c => (s.pulsed p t c.1, c.2))

/-- The node joined at a point. -/
def State.nodeAt (s : State) (p : Pid) : Option Node :=
  (s.mesh.nodes.find? (fun e => e.2.point == p && (e.2.state == 1 || e.2.state == 2))).map Prod.snd

def State.putNode (s : State) (n : Node) : State := { s with mesh.nodes := tput s.mesh.nodes n.eui.toNat n }

/-- The body of a DRIVE record (Table 12.2). -/
def driveBody (c : DriveCmd) : List Byte :=
  u16 c.code.cur0 ++ u16 c.code.duty0 ++ u16 c.code.cur1 ++ u16 c.code.duty1 ++ u16 c.fade ++ u16 c.tol ++ u8 c.shape ++
    u8 c.source ++ u16 0

/-- The pushes a command makes: itself and its DRIVE record. -/
def cmdPushes (graph flow : Nat) (origin : Ns) (c : DriveCmd) : List PushRec :=
  let it (b : Body) : Item := { flow := flow, graph := graph, flags := 0, enq := 0, origin := origin, body := b }
  [{ queue := 0x03, item := it (.drive c) },
   { queue := 0x0A, item := it (.record { stamp := c.launch, place := c.point, type := 0x02, body := driveBody c }) }]

/-- A push of a command to queue 0x03, with its DRIVE record: a graph's under its credit, the control core's where there is room. -/
def State.push03 (s : State) (graph flow : Nat) (origin : Ns) (c : DriveCmd) : State :=
  let it : Item := { flow := flow, graph := graph, flags := 0, enq := 0, origin := origin, body := .drive c }
  (if graph = 0xFF then s.offer 0x03 it else s.put 0x03 it).histFrom
    graph flow { stamp := c.launch, place := c.point, type := 0x02, body := driveBody c }

/-- Commands whose launch has not passed are kept, so that a change can revise them. -/
def State.setLive (s : State) (l : List DriveCmd) : State :=
  { s with plan.live := l.filter (fun c => s.clk.timeBase ≤ c.launch) }

def State.liveAt (s : State) (p : Pid) (launch : Ns) : Option DriveCmd :=
  s.plan.live.find? (fun c => c.point == p && c.launch == launch)

/-- Two commands of one point and launch tell its node the same. -/
def DriveCmd.sameAs (a b : DriveCmd) : Bool := a.code == b.code && a.fade == b.fade && a.tol == b.tol && a.shape == b.shape

/-- A revision in place keeps its launch: it replaces the command in queue 0x03 if it is still there, and is otherwise sent
as an entry with the same launch (R124, R281). It waits for the node's acknowledgement (R282). -/
def State.revise (s : State) (graph flow : Nat) (origin : Ns) (old new : DriveCmd) : State :=
  if old.sameAs new then s
  else
    let c := { new with launch := old.launch, source := 5, base := if old.source = 5 then old.base else old.source }
    let s := s.setLive (s.plan.live.map (fun d => if d.point = c.point ∧ d.launch = c.launch then c else d))
    let here (it : Item) : Bool := match it.body with
      | .drive d => d.point == c.point && d.launch == c.launch
      | _ => false
    let x := s.queue 0x03
    let s := if x.items.any here then
        (s.setQueue 0x03 { x with items := x.items.map (fun it => if here it then { it with body := .drive c } else it) }).histFrom
          graph flow { stamp := c.launch, place := c.point, type := 0x02, body := driveBody c }
      else s.push03 graph flow origin c
    let same (r : Revision) : Bool := r.point == c.point && r.launch == c.launch
    { s with bs.revisions := s.bs.revisions.filter (fun r => !same r) ++
               [{ point := c.point, launch := c.launch, tol := c.tol, late := origin
                  level := ((s.bs.revisions.find? same).map (fun r => r.level)).getD old.level }] }

/-- Every command of a point that has not launched takes the combined result at its own launch (R124, R166). -/
def State.reviseLater (s : State) (graph flow : Nat) (origin : Ns) (p : Pid) : State :=
  if s.bs.replaying then s
  else
    (s.plan.live.filter (fun c => c.point == p && s.tb < c.launch)).foldl (fun s c =>
      match s.codeAt p c.launch with
      | some k => s.revise graph flow origin c { c with code := k.1, level := k.2 }
      | none => s) s

/-- The command that is to carry a point's combined result at a launch, if the point has a lamp record. -/
def State.command (s : State) (want : DriveCmd) : Option DriveCmd :=
  (s.codeAt want.point want.launch).map (fun k => { want with code := k.1, level := k.2 })

/-- Issue a command: a revision of the command at the same launch, or a new one. -/
def State.issue (s : State) (graph flow : Nat) (origin : Ns) (c : DriveCmd) : State :=
  let s := match s.liveAt c.point c.launch with
    | some old => s.revise graph flow origin old c
    | none => (s.setLive (s.plan.live ++ [c])).push03 graph flow origin c
  s.reviseLater graph flow origin c.point

/-- The launch a command takes for the one asked for: none lies before one already sent to the point (R195), which comes before R192's
one launch for a batch (log entry 87). A replay asks again and is told the same. -/
def State.launchFor (s : State) (p : Pid) (launch : Ns) : Ns :=
  let c := s.coverOf p
  if s.bs.replaying then ((c.moved.find? (fun m => m.1 == launch)).map Prod.snd).getD launch else max launch c.lastLaunch

/-- R195 has moved a command; it is kept for as long as Backstep can ask again. -/
def State.noteMoved (s : State) (p : Pid) (asked given : Ns) : State :=
  if asked = given then s
  else
    let c := s.coverOf p
    let c := { c with moved := c.moved.filter (fun m => m.1 != asked && s.clk.timeBase < m.1 + 20 * sec) ++ [(asked, given)] }
    { s with prom.cover := tput s.prom.cover (pointKey p) c }

/-- A plan, override or floor change for a point, launching at `launch`. -/
def planCmd (p : Pid) (launch : Ns) (fade tol source : Nat) : DriveCmd :=
  { point := p, launch := launch, code := { cur0 := 0, duty0 := 0, cur1 := 0, duty1 := 0 }, fade := fade, tol := tol,
    shape := 0, source := source, class_ := 2, level := 0 }

/-- Issue a command for a point in time: its code is the point's combined result at its launch, and one launch instant has one command
(R123). In a replay the command is only gathered; a command of the control core waits while queue 0x03 has no room. What was pushed is
returned for Backstep's log. -/
def State.emitGood (s : State) (graph flow : Nat) (origin : Ns) (want : DriveCmd) : State × List PushRec :=
  let launch := s.launchFor want.point want.launch
  match s.command { want with launch := launch } with
  | none => (s, [])
  | some c =>
    if s.bs.replaying then (s, cmdPushes graph flow origin c)
    else if graph = 0xFF ∧ !s.room 0x03 1 then ({ s with plan.coreHeld := s.plan.coreHeld ++ [want] }, [])
    else ((s.issue graph flow origin c).noteMoved want.point want.launch launch, cmdPushes graph flow origin c)

/-! ## Commands that came too late (R160, R161) -/

/-- Counts are noted at instant `t`; `true` where the notice is raised now, at most once per second. -/
def SecondCounts.add (c : SecondCounts) (t a b d e : Nat) : SecondCounts × Bool :=
  let recent := c.recent.filter (fun x => t < x.1 + sec) ++ [(t, a, b, d, e)]
  if c.since = 0 ∨ c.since + sec ≤ t then ({ since := max t 1, recent := recent }, true)
  else ({ c with recent := recent }, false)

/-- The four counts of the past second, each saturating at `most` (R618). -/
def SecondCounts.past (c : SecondCounts) (most : Nat) : Nat × Nat × Nat × Nat :=
  (min most (sumOf (c.recent.map (fun x => x.2.1))), min most (sumOf (c.recent.map (fun x => x.2.2.1))),
    min most (sumOf (c.recent.map (fun x => x.2.2.2.1))), min most (sumOf (c.recent.map (fun x => x.2.2.2.2))))

/-- PLAN_LATE (Table 4.10). -/
def State.planLate (s : State) (discarded recovered : Nat) : State :=
  let r := s.plan.late.add s.clk.mono discarded recovered 0 0
  let n := r.1.past 0xFFFFFFFF
  let s := { s with plan.late := r.1 }
  if r.2 then s.raise 0x30E1 0xFF (u32 n.1 ++ u32 n.2.1 ++ u64 s.now) else s

/-- A recovery command carries the point's combined result at the present instant plus lp.override_lead (R161). -/
def State.recover (s : State) (p : Pid) : State :=
  ((s.bump 0x30F4).emitGood 0xFF 0 s.tb (planCmd p (s.tb + s.num 0x3023 * ms) (s.num 0x3021) (s.num 0x3022) 6)).1

/-- A command was discarded: plan and override commands are recovered, whether or not they had been revised in place (R161). -/
def State.discarded (s : State) (c : DriveCmd) : State :=
  let source := if c.source = 5 then c.base else c.source
  if source = 0 ∨ source = 2 ∨ source = 6 then (s.recover c.point).planLate 1 1 else s.planLate 1 0

/-- A command can still be applied: its launch and tolerance have not passed (R159, R160). -/
def State.stillGood (s : State) (c : DriveCmd) : Bool := c.tol == 0xFFFF || decide (s.tb ≤ c.launch + c.tol * ms)

/-- Issue a command for a point, or discard one that comes to the egress queue later than L + τ (R160). -/
def State.emit (s : State) (graph flow : Nat) (origin : Ns) (want : DriveCmd) : State × List PushRec :=
  if s.bs.replaying || s.stillGood { want with launch := s.launchFor want.point want.launch } then s.emitGood graph flow origin want
  else ((s.bump 0x30F0).discarded want, [])

/-! ## Plan changes (R224, R247) -/

/-- Commands the control core may still compute in this second (R247). -/
def State.coreLeft (s : State) : Nat := if s.plan.coreSecond = s.second then 400 - s.plan.coreCount else 400

/-- The control core computes the commands that wait for it, at up to 400 a second and while queue 0x03 has room (R247). -/
def State.coreDrainFrom (s : State) (l : List DriveCmd) : State :=
  match l with
  | [] => s
  | c :: rest =>
    if s.coreLeft = 0 ∨ !s.room 0x03 1 then { s with plan.coreHeld := s.plan.coreHeld ++ (c :: rest) }
    else
      let s := { s with plan.coreCount := if s.plan.coreSecond = s.second then s.plan.coreCount + 1 else 1
                        plan.coreSecond := s.second }
      (s.emit 0xFF 0 s.tb c).1.coreDrainFrom rest

def State.coreDrain (s : State) : State := { s with plan.coreHeld := [] }.coreDrainFrom s.plan.coreHeld

/-- Hand commands to the control core. -/
def State.coreTakes (s : State) (cs : List DriveCmd) : State := { s with plan.coreHeld := s.plan.coreHeld ++ cs }.coreDrain

/-- Answer the command whose last item has gone. -/
def State.answerHeld (s : State) (w : Option (Endpoint × Nat × List Byte)) : State :=
  match w with
  | some (ep, n, p) => s.finish ep n stOk p
  | none => s

def planOf (it : Item) : Option DriveCmd :=
  match it.body with
  | .plan c => some c
  | _ => none

/-- Push what waits for room in queue 0x07, answering each command whose last item has gone (Table 6.2); where no graph takes it, the
control core does (R226, R247). -/
def State.refillFrom (s : State) (l : List (Item × Option (Endpoint × Nat × List Byte))) : State :=
  match l with
  | [] => { s with plan.held := [] }
  | (it, w) :: rest =>
    if s.served 0x07 ∧ !s.room 0x07 1 then { s with plan.held := (it, w) :: rest }
    else
      let s := if s.served 0x07 then s.put 0x07 it else s.coreTakes (planOf it).toList
      (s.answerHeld w).refillFrom rest

def State.refill (s : State) : State := s.refillFrom s.plan.held

/-- Hand the changes of the commands `cs` to the graph that consumes queue 0x07, or let the control core compute them
(R247). A waiter is answered when the last item is pushed. -/
def State.planChange (s : State) (cs : List DriveCmd) (waiter : Option (Endpoint × Nat × List Byte)) : State :=
  if s.served 0x07 then
    let its := cs.map (fun c => s.itemFor 0x07 (pointFlow c.point) s.tb (.plan c))
    let n := its.length
    let tagged := its.zipIdx.map (fun e => (e.1, if e.2 + 1 = n then waiter else none))
    { s with plan.held := s.plan.held ++ tagged }.refill
  else (s.coreTakes cs).answerHeld waiter

/-- The whole change of a command: OK at once where every item fits, otherwise when the last one does (R63). -/
def State.planAnswer (s : State) (r : Req) (cs : List DriveCmd) (payload : List Byte) : Result :=
  let s := s.planChange cs none
  match s.plan.held.reverse with
  | [] => ok payload s
  | (it, w) :: rest =>
    if cs.isEmpty ∨ w.isSome then ok payload s
    else .wait { s with plan.held := (((it, some (r.src.endpoint, r.lane.toNat, payload)) :: rest).reverse) }

/-- The commands that carry the present combined result of points at `launch`, with the plan's fade. -/
def State.relaunchCmds (s : State) (ps : List Pid) (launch : Ns) (source : Nat) : List DriveCmd :=
  ps.map (fun p => planCmd p launch (s.num 0x3021) (s.num 0x3022) source)

/-- The present combined result of points, launched at `launch` with the plan's fade. -/
def State.relaunch (s : State) (ps : List Pid) (launch : Ns) (source : Nat) : State :=
  s.planChange (s.relaunchCmds ps launch source) none

/-- The same at the present instant plus lp.override_lead (R161). -/
def State.relaunchSoon (s : State) (ps : List Pid) (source : Nat) : State :=
  s.relaunch ps (s.tb + s.num 0x3023 * ms) source

/-- The answer of a command whose change is launched for points at its admission instant plus lp.override_lead (R157): it waits for
its items (R224). -/
def State.relaunchAnswer (s : State) (r : Req) (ps : List Pid) (payload : List Byte) : Result :=
  s.planAnswer r (s.relaunchCmds ps (s.admittedTb r + s.num 0x3023 * ms) 0) payload

/-! ## Nights in force (R134) -/

/-- A night resolved by the module: bands skipped are counted (R133). -/
def State.resolved (s : State) (day : Int) : Night × State :=
  let n := s.night day
  (n, s.bump 0x30F2 0 n.skipped)

/-- A night resolved anew keeps what the photocell has done to the night of its day (R129): a switch-on that is still the earlier one,
a switch-off that is not earlier than the computed one. -/
def Night.keepPhoto (n : Night) (old : List Night) : Night :=
  match old.find? (fun o => o.day == n.day && o.lit && n.lit) with
  | some o => { n with movedOn := o.movedOn.filter (fun t => decide (t < n.on)), offHeld := o.offHeld,
                       movedOff := o.movedOff.map (fun t => max t n.off) }
  | none => n

/-- Nights stay until their circuits are no longer demanded (R148) and the dark after them has lasted pwr.quiet_idle_s (R575). -/
def State.nightStays (s : State) (n : Night) : Bool :=
  !n.lit || decide (s.tb < n.finish + max (s.num 0x3021 * ms) (s.num 0xA022 * sec))

/-- Resolve the night of the present civil date and that of the day before, and launch the present levels (R134). -/
def State.resolveNights (s : State) : State :=
  if !s.civilKnown then { s with plan.nights := [], plan.issued := [] }
  else
    let d := s.dayAt s.tb
    let a := s.resolved (d - 1)
    let b := a.2.resolved d
    let launch := s.tb + s.num 0x3020 * sec
    { b.2 with plan.nights := ([a.1, b.1].map (fun (n : Night) =>
                 if s.num 0x3004 = 1 then n.keepPhoto s.plan.nights else n)).filter s.nightStays,
               plan.issued := [] }.relaunch s.points launch 0 |>.demandAll

/-- Instants at which a night's commands launch: switch-on, band starts, switch-off. -/
def Night.instants (n : Night) : List Ns :=
  if n.lit then (sortBy id (n.start :: n.finish :: (n.bands.drop 1).filterMap id)).dedup else []

/-- Issue the plan's command for one launch instant. -/
def State.issuePlan (s : State) (t : Ns) : State :=
  { s with plan.issued := s.plan.issued.filter (fun x => s.tb ≤ x) ++ [t] }.relaunch s.points t 0

/-! ## Overrides -/

/-- Points a light-plan override covers. -/
def State.covered (s : State) (o : Override) : List Pid :=
  (s.plan.lamps.filter (fun e => o.covers s e.2.point e.2.section_)).map (fun e => e.2.point)

/-- Table 4.4 with the effective start. -/
def Override.entry (o : Override) : List Byte :=
  u16 o.handle ++ u8 o.kind ++ u8 o.mode ++ pidBytes o.target ++ u8 o.section_ ++ u8 o.flags ++ u16 o.level ++ u16 o.cct ++
    u64 o.start ++ u64 o.finish ++ u32 o.lateTol ++ u16 o.fade ++ u16 0

/-- FLOOR_EXEMPT (R146, Table 13.3): edge 1 start, 2 end. -/
def State.floorExempt (s : State) (o : Override) (edge : Nat) : State :=
  if o.exempt then
    s.record 0x3001 0xFF (u8 edge ++ u8 0 ++ u16 o.handle ++ pidBytes o.target ++ u8 o.section_ ++ u8 0 ++ u16 o.level ++
      u64 o.start ++ u64 o.finish)
  else s

/-- The commands that carry an override's edge at `t`. -/
def State.overrideCmds (s : State) (o : Override) (t : Ns) (fade : Nat) : List DriveCmd :=
  (s.covered o).map (fun p => planCmd p t fade (s.num 0x3022) 2)

def State.onOverride (s : State) (handle start : Nat) (f : Override → Override) : State :=
  { s with plan.overrides := s.plan.overrides.map (fun o => if o.handle = handle ∧ o.start = start then f o else o) }

/-! ## Lamp channels (R162–R167) -/

/-- Nanoseconds of lit time since a channel's last result. -/
def State.litCount (s : State) (d : ChannelDiag) : Ns := s.plan.litTime - d.litRef

/-- A channel's state changes: LAMP_STATE (Table 4.10). -/
def State.channelState (s : State) (p : Pid) (ch new : Nat) : State :=
  match tget s.plan.diag (pointKey p * 2 + ch) with
  | none => s
  | some d =>
    if d.state = new then s
    else
      { s with plan.diag := tput s.plan.diag (pointKey p * 2 + ch) { d with state := new } }.raise 0x30E0 0xFF
        (pidBytes p ++ u8 ch ++ u8 d.state ++ u8 new ++ zeros 3 ++ u64 s.now)

/-- A node reports a test: counting starts anew (R163, R164). -/
def State.testResult (s : State) (p : Pid) (ch : Nat) (isOpen : Bool) (stamp : Ns) : State :=
  match tget s.plan.diag (pointKey p * 2 + ch) with
  | none => s
  | some d =>
    { s with plan.diag := tput s.plan.diag (pointKey p * 2 + ch) { d with litRef := s.plan.litTime, last := stamp } }
      |>.channelState p ch (if isOpen then 1 else 0)

end Sys2Proof.Machine
end

