-- ==== Sys2Proof/Machine/Road.lean ====
section
/-!
DEFINITION. Promenade's geometry (R171–R188): paths through the road graph, gates, the lead, and what a track covers.
Distances are in 10⁻⁹ cm, so that a speed in cm/s times a time in ns is one of them.
-/

namespace Sys2Proof.Machine

/-- 10⁻⁹ cm in a cm. -/
abbrev cm : Int := 1000000000

/-! ## The road graph -/

def State.sectionOf (s : State) (n : Nat) : Option Section := tget s.prom.sections n
def State.junctionOf (s : State) (n : Nat) : Option Junction := tget s.prom.junctions n

/-- A kind and a direction of travel (true from start to end) are permitted (Table 5.1); kind 0 permits any. -/
def Section.permits (x : Section) (kind : Nat) (forward : Bool) : Bool :=
  kind == 0 || (hasBit x.flags kind && (forward || !hasBit x.flags 0))

/-- A stretch of a path: section, position and direction at which it is entered, and the path distances of its ends. -/
structure Stretch where
  section_ : Nat
  enter : Int
  forward : Bool
  from_ : Int
  to_ : Int
  deriving DecidableEq, Repr

/-- How a path goes on: it is finished, it goes on from a point, it stops at a dead end, or it meets a portal. -/
inductive PathEnd where
  | done
  | open_ (section_ : Nat) (at_ : Int) (forward : Bool) (dist : Int)
  | deadEnd (dist : Int)
  | portal (junction : Nat) (dist : Int)
  deriving DecidableEq, Repr

/-- A path: its stretches and its end. -/
structure Path where
  stretches : List Stretch
  end_ : PathEnd
  deriving DecidableEq, Repr

/-- The position at which a stretch is left. -/
def Stretch.exit (t : Stretch) : Int := if t.forward then t.enter + (t.to_ - t.from_) else t.enter - (t.to_ - t.from_)

/-- Continue one path through at most one junction, up to path distance `limit`. `back` walks against the direction of
travel. A path whose limit is the place of a dead end or a portal reaches it (R184, R204). -/
def State.extend (s : State) (kind : Nat) (back : Bool) (limit : Int) (p : Path) : List Path :=
  match p.end_ with
  | .open_ n x fwd d =>
    match s.sectionOf n with
    | none => [{ p with end_ := .deadEnd d }]
    | some sc =>
      let len : Int := (sc.length : Int) * cm
      let room := if fwd then len - x else x
      if limit - d < room then
        [{ stretches := p.stretches ++ [{ section_ := n, enter := x, forward := fwd, from_ := d, to_ := max d limit }],
           end_ := .done }]
      else
        let here := p.stretches ++ [{ section_ := n, enter := x, forward := fwd, from_ := d, to_ := d + room }]
        let j := if fwd then sc.finish else sc.start
        match s.junctionOf j with
        | none => [{ stretches := here, end_ := .deadEnd (d + room) }]
        | some jn =>
          if jn.kind = 2 then [{ stretches := here, end_ := .portal j (d + room) }]
          else if jn.kind = 1 then [{ stretches := here, end_ := .deadEnd (d + room) }]
          else
            let nexts := s.prom.sections.flatMap (fun e =>
              let t := e.2
              (if t.start = j ∧ t.number ≠ n ∧ t.permits kind (!back) then
                [Path.mk here (.open_ t.number 0 true (d + room))] else []) ++
              (if t.finish = j ∧ t.number ≠ n ∧ t.permits kind back then
                [Path.mk here (.open_ t.number ((t.length : Int) * cm) false (d + room))] else []))
            if nexts.isEmpty then [{ stretches := here, end_ := .deadEnd (d + room) }] else nexts
  | _ => [p]

def Path.isOpen (p : Path) : Bool :=
  match p.end_ with
  | .open_ .. => true
  | _ => false

/-- A path that was finished goes on from where it ended. -/
def Path.resume (p : Path) : Path :=
  match p.end_, p.stretches.getLast? with
  | .done, some t => { p with end_ := .open_ t.section_ t.exit t.forward t.to_ }
  | _, _ => p

/-- The section a path ends on, `n` where it has no stretch. -/
def Path.lastSection (p : Path) (n : Nat) : Nat :=
  match p.end_, p.stretches.getLast? with
  | .open_ m _ _ _, _ => m
  | _, some t => t.section_
  | _, none => n

/-- A path and the path distance it is followed to. -/
abbrev Leg := Path × Int

/-- Walk on, keeping at most `cap` paths; counts the truncations (R184, R188). -/
def State.walkOn (s : State) (fuel cap kind : Nat) (back : Bool) (ps : List Leg) (cut : Nat) : List Leg × Nat :=
  match fuel with
  | 0 => (ps, cut)
  | fuel + 1 =>
    if ps.any (fun l => l.1.isOpen) then
      let next := ps.flatMap (fun l => (s.extend kind back l.2 l.1).map (fun p => (p, l.2)))
      s.walkOn fuel cap kind back (next.take cap) (cut + (next.length - cap))
    else (ps, cut)

/-- Enough junctions for a distance: sections are at least 1 m long. -/
def junctionsIn (limit : Int) : Nat := (limit / (100 * cm)).toNat + 3

/-- The paths from a position over the distance `limit`, none where it is negative. -/
def State.walk (s : State) (cap kind : Nat) (back : Bool) (sect : Nat) (x : Int) (forward : Bool) (limit : Int) :
    List Path × Nat :=
  if limit < 0 then ([], 0)
  else
    let r := s.walkOn (junctionsIn limit) cap kind back [({ stretches := [], end_ := .open_ sect x forward 0 }, limit)] 0
    (r.1.map Prod.fst, r.2)

/-- Path distances at which a place of the road lies on some path, each with the direction of the stretch it lies on. -/
def sightings (ps : List Path) (sect : Nat) (x : Int) : List (Int × Bool) :=
  ps.flatMap (fun p => p.stretches.filterMap (fun t =>
    let d := t.from_ + (if t.forward then x - t.enter else t.enter - x)
    if t.section_ = sect ∧ t.from_ ≤ d ∧ d ≤ t.to_ then some (d, t.forward) else none))

/-- The path distances alone. -/
def distances (ps : List Path) (sect : Nat) (x : Int) : List Int := (sightings ps sect x).map Prod.fst

/-! ## Tracks -/

/-- A track's kind (R182). -/
def State.kindOf (s : State) (t : Track) : Nat :=
  if t.reported ≠ 0 then t.reported
  else
    let v := t.speed.natAbs
    if v < s.num 0x4026 then 1 else if v < s.num 0x4027 then 2 else 3

def Track.forward (t : Track) : Bool := 0 ≤ t.speed

/-- Distance the track has travelled from its newest detection to instant `at_`, negative before it. -/
def Track.travel (t : Track) (at_ : Ns) : Int := (t.speed.natAbs : Int) * ((at_ : Int) - (t.tLast : Int))

/-- The kind whose roads are open to the track. A tentative track has no direction yet, and every section is open to it. -/
def State.openTo (s : State) (t : Track) : Nat := if t.state = .tentative then 0 else s.kindOf t

/-- Signed path distances of a place, ahead of the track's newest position positive, behind it negative, within the two
ranges; and whether the track's way there leads in the direction of rising positions. -/
def State.seenFrom (s : State) (cap : Nat) (t : Track) (ahead behind : Int) (sect : Nat) (x : Int) : List (Int × Bool) :=
  sightings (s.walk cap (s.openTo t) false t.section_ t.pos t.forward ahead).1 sect x ++
    (sightings (s.walk cap (s.openTo t) true t.section_ t.pos (!t.forward) behind).1 sect x).map (fun d => (-d.1, !d.2))

/-- The gate at a stamp (R179): it shrinks below pm.gate_base at a stamp before the newest detection. A shadow's is as its latest
update says (R208). -/
def State.gate (s : State) (t : Track) (stamp : Ns) : Int :=
  match t.state, t.received with
  | .shadow, some h => (h.gate : Int) * cm
  | _, _ => (s.num 0x4020 : Int) * cm + (s.num 0x4021 : Int) * ((stamp : Int) - (t.tLast : Int))

/-- Distance of a place from the track's predicted position along a branch, if it lies in the gate (R179). -/
def State.inGate (s : State) (t : Track) (stamp : Ns) (sect : Nat) (q : Int) : Option Nat :=
  let g := s.gate t stamp
  let d := t.travel stamp
  let near := (s.seenFrom 4 t (max 0 (d + g)) (max 0 (g - d)) sect q).map (fun e => (e.1 - d).natAbs)
  (minOf near).bind (fun n => if (n : Int) ≤ g then some n else none)

/-- The live track whose gate a detection lies in: the least distance in proportion to the gate, then the lower number
(R178). -/
def State.associate (s : State) (stamp : Ns) (sect : Nat) (q : Int) : Option Nat :=
  (s.prom.tracks.foldl (fun (best : Option (Nat × Nat × Nat)) e =>
    match s.inGate e.2 stamp sect q with
    | none => best
    | some d =>
      let g := (s.gate e.2 stamp).toNat
      match best with
      | none => some (e.1, d, g)
      | some (_, d', g') => if d * g' < d' * g then some (e.1, d, g) else best) none).map (fun b => b.1)

/-- The position of a detection (R177), if its point is placed. -/
def State.detectedAt (s : State) (d : Detection) : Option (Nat × Int) :=
  match s.lampOf d.point, tget s.prom.places (pointKey d.point) with
  | some l, some x =>
    (s.sectionOf l.section_).map (fun sc =>
      (l.section_, max 0 (min ((sc.length : Int) * cm) (((x : Int) + d.offset) * cm))))
  | _, _ => none

/-- The signed velocity of a detection (R177). -/
def Detection.velocity (d : Detection) : Option Int :=
  if d.speed = 0 then none
  else match d.direction with
    | 1 => some d.speed
    | 2 => some (-d.speed)
    | _ => none

/-! ## Coverage (R187, R188, R193) -/

/-- The lead distance of a track on a section (R187): by the series of the section's active class in the present band. -/
def State.lead (s : State) (t : Track) (sect : Nat) : Int :=
  let code := match s.bandAt s.tb with | some b => s.activeClass b sect | none => 0
  if code = 0 then 0
  else
    let i := if code < 0x10 then 0 else if code < 0x20 then 1 else 2
    let least : Int := (s.num (0x4013 + i) : Int) * 100 * cm
    let byTime : Int := (t.speed.natAbs * s.num (0x4010 + i) : Nat) * 100000000
    min ((s.num 0x4016 : Int) * 100 * cm) ((s.num 0x4081 sect : Int) * max least byTime / 100)

/-- Points with a place: PID48, section, position. -/
def State.placed (s : State) : List (Pid × Nat × Int) :=
  s.plan.lamps.filterMap (fun e => (tget s.prom.places e.1).map (fun x => (e.2.point, e.2.section_, (x : Int) * cm)))

/-- The branches of a track at an instant (R184): its paths to the predicted position. -/
def State.branches (s : State) (t : Track) (at_ : Ns) : List Path :=
  (s.walk 4 (s.openTo t) false t.section_ t.pos t.forward (max 0 (t.travel at_))).1

/-- What a track covers: legs ahead with the distance each reaches, paths behind, the distance where the coverage begins, and the
paths cut off. -/
structure Window where
  ahead : List Leg
  behind : List Path
  lo : Int
  cut : Nat
  deriving DecidableEq, Repr

/-- The stretch a track covers from its position at `from_` to that at `to_` (R188, R193): a CONFIRMED one from the trail to the lead
of the section that each branch's position at `from_` lies on; a TENTATIVE one pm.tentative_m both ways; a SHADOW what its update
states. At most 16 paths are followed, one of them behind at least (log entry 88). -/
def State.window (s : State) (t : Track) (from_ to_ : Ns) : Window :=
  let kind := s.openTo t
  let start : Path := { stretches := [], end_ := .open_ t.section_ t.pos t.forward 0 }
  let trail : Int := if t.state = .tentative then (s.num 0x4025 : Int) * 100 * cm else (s.num 0x4017 : Int) * 100 * cm
  let lo : Int := match t.state with
    | .confirmed => t.travel from_ - trail
    | .tentative => -trail
    | .shadow => 0
  let heads : List Leg := match t.state with
    | .confirmed => (s.branches t from_).map (fun p => (p.resume, t.travel to_ + s.lead t (p.lastSection t.section_)))
    | .tentative => [(start, trail)]
    | .shadow => [(start, ((t.received.map (fun h => h.leadBeyond)).getD 0 : Int) * cm)]
  let most := heads.foldl (fun m l => max m l.2) 0
  let a := s.walkOn (junctionsIn most) 15 kind false heads 0
  let b := if t.state = .shadow then ([], 0)
    else s.walk (16 - a.1.length) kind true t.section_ t.pos (!t.forward) (max (max 0 (-lo)) trail)
  { ahead := a.1, behind := b.1, lo := lo, cut := a.2 + b.2 }

/-- Signed distances of a place in a window. -/
def Window.distances (w : Window) (sect : Nat) (x : Int) : List Int :=
  Machine.distances (w.ahead.map Prod.fst) sect x ++ (Machine.distances w.behind sect x).map (fun d => -d)

/-- A place lies in the window. -/
def Window.holds (w : Window) (sect : Nat) (x : Int) : Bool := (w.distances sect x).any (fun d => w.lo ≤ d)

/-- Portals the window reaches: junction, distance, and distance beyond it, the nearest way to each. -/
def Window.portals (w : Window) : List (Nat × Int × Int) :=
  w.ahead.foldl (fun acc l => match l.1.end_ with
    | .portal j at_ =>
      if l.2 < at_ then acc
      else match acc.find? (fun x => x.1 == j) with
        | some x => if at_ < x.2.1 then acc.map (fun y => if y.1 = j then (j, at_, l.2 - at_) else y) else acc
        | none => acc ++ [(j, at_, l.2 - at_)]
    | _ => acc) []

/-- What a batch launching at `launch` opens and closes, and the portals its rise window reaches, each with its distance and the
distance beyond it. `cut` counts paths cut off. -/
structure BatchPlan where
  opens : List Pid
  closes : List Pid
  portals : List (Nat × Int × Int)
  cut : Nat
  deriving DecidableEq, Repr

/-- R193. A CONFIRMED track closes what lies behind its trail and nowhere ahead; the others close what they no longer state. -/
def State.batchPlan (s : State) (t : Track) (launch : Ns) : BatchPlan :=
  let w := s.window t launch (launch + s.num 0x4003 * ms)
  let places := s.placed
  let reach := w.ahead.foldl (fun m l => max m l.2) 0
  let gone (p : Pid) : Bool := match places.find? (fun e => e.1 == p) with
    | some e =>
      if t.state = .confirmed then (w.distances e.2.1 e.2.2).all (fun d => decide (d < w.lo)) &&
        !(s.seenFrom 16 t (reach + 100000 * cm) 0 e.2.1 e.2.2).any (fun d => w.lo ≤ d.1)
      else !w.holds e.2.1 e.2.2
    | none => true
  { opens := ((places.filter (fun e => w.holds e.2.1 e.2.2)).map (fun e => e.1)).filter (fun p => !t.covered.contains p),
    closes := t.covered.filter gone,
    portals := if t.state = .confirmed then w.portals else [],
    cut := w.cut }

/-- The distance at which a path comes to the end of the road (R184): a dead end, or a portal that no handover leads through. -/
def State.roadEnd (s : State) (p : Path) : Option Int :=
  match p.end_ with
  | .deadEnd d => some d
  | .portal j d => match s.junctionOf j with
    | some jn => if !s.flag 0x4030 || (tget s.ring.peers jn.neighbour).isNone then some d else none
    | none => some d
  | _ => none

/-- The instant at which every branch of a CONFIRMED track has come to the end of the road, if that is so by `at_` (R184). -/
def State.endedAt (s : State) (t : Track) (at_ : Ns) : Option Ns :=
  let ends := (s.branches t at_).map s.roadEnd
  if t.state ≠ .confirmed ∨ ends.isEmpty ∨ ends.any Option.isNone then none
  else
    let d := (ends.map (fun x => x.getD 0)).foldl max 0
    let v := t.speed.natAbs
    some (t.tLast + (if v = 0 then 0 else (d.toNat + v - 1) / v))

/-- Stretches of road a track's position or coverage lies on at an instant (R175). -/
def State.reach (s : State) (t : Track) (at_ : Ns) : List Stretch :=
  let w := s.window t at_ at_
  let part (p : Stretch) : Option Stretch := if p.to_ < w.lo then none else some p
  (w.ahead.flatMap (fun l => l.1.stretches.filterMap part)) ++ w.behind.flatMap (fun p => p.stretches.filter (fun x => w.lo ≤ -x.from_))

/-- Junctions at the ends of a stretch. -/
def State.junctionsOf (s : State) (t : Stretch) : List Nat :=
  match s.sectionOf t.section_ with
  | none => []
  | some sc =>
    let at_ (x : Int) : List Nat :=
      (if x = 0 then [sc.start] else []) ++ (if x = (sc.length : Int) * cm then [sc.finish] else [])
    at_ t.enter ++ at_ t.exit

/-- A place lies on a stretch. -/
def Stretch.holds (t : Stretch) (sect : Nat) (x : Int) : Bool :=
  t.section_ == sect && min t.enter t.exit ≤ x && x ≤ max t.enter t.exit

/-- T_c (R185). -/
def State.coastTime (s : State) (t : Track) : Ns :=
  min (s.num 0x4024 * sec) (max (2 * sec) (s.num 0x4023 * 100 * sec / max t.speed.natAbs 50))

end Sys2Proof.Machine
end

