-- ==== Sys2Proof/Machine/PromOps.lean ====
section
/-!
DEFINITION. What Promenade's flows do (R176–R210): association, batches, coverage of points and their commands, handovers and
the peer messages they travel in.
-/

namespace Sys2Proof.Machine

/-! ## Peer messages (R56, R205, R210) -/

/-- The module's own lane `n` to a neighbour. -/
def State.peerLane (s : State) (m : Mac) (n : Nat) : PeerLane :=
  (s.link.peers.find? (fun l => l.peer == m && l.lane == n)).getD
    { peer := m, lane := n, seq := 0#32, synced := false, outstanding := none }

def State.setPeerLane (s : State) (l : PeerLane) : State :=
  { s with link.peers := s.link.peers.filter (fun k => !(k.peer == l.peer && k.lane == l.lane)) ++ [l] }

/-- The ring endpoint of a neighbour. -/
def peerSource (m : Mac) : Source := .ring m none .module .A

/-- Put a peer message on a lane: the first, and the one after a message that was given up, carries SYNC. The opcodes of
group 0x40 travel as express traffic (R205). -/
def State.peerPut (s : State) (l : PeerLane) (opcode : Nat) (payload : List Byte) (handover : Option Nat) : State :=
  let seq := if l.synced then l.seq + 1#32 else l.seq
  let s := s.setPeerLane { l with seq := seq, synced := true,
                                  outstanding := some { sync := !l.synced, opcode := opcode, payload := payload,
                                                        sentAt := s.clk.mono, resends := 0, handover := handover } }
  s.send (peerSource l.peer) (opcode / 256 == 0x40)
    (message l.lane (if l.synced then 0 else 4) seq.toNat opcode 0 0#64 payload)

/-- The first of lanes 1–7 to a neighbour without an unanswered message. -/
def State.freeLane (s : State) (m : Mac) : Option PeerLane :=
  ([1, 2, 3, 4, 5, 6, 7].map (s.peerLane m)).find? (fun l => l.outstanding.isNone)

/-- Cells a peer message takes in queue 0x06: address, opcode and handover stand before its payload. -/
def peerCells (payload : List Byte) : Nat := (12 + payload.length + 47) / cellBytes

/-- Send the waiting messages whose neighbour has a free lane, oldest first; the cells that go on a message leave with it. -/
def State.flushPeersFrom (s : State) (l : List Item) : State :=
  match l with
  | [] => s
  | it :: rest =>
    let s := match it.body with
      | .peer m opcode handover payload =>
        match s.freeLane m, (s.queue 0x06).items.findIdx? (fun x => x == it) with
        | some lane, some i =>
          ((List.range (peerCells payload)).foldl (fun s _ => State.take s 0x06 i) s).peerPut lane opcode payload (some handover)
        | _, _ => s
      | _ => s
    s.flushPeersFrom rest

def State.flushPeers (s : State) : State := s.flushPeersFrom (s.queue 0x06).items

/-! ## What the program that is served pushes beside the pushes it returns -/

/-- A push of the item in service, or of the control core where none is: its item carries the origin stamp of the item served (R260),
and Backstep's log keeps it (R264). -/
def State.servedItem (s : State) (stamp : Ns) (body : Body) : Item :=
  match s.bs.serving with
  | some (g, f, o) => { flow := f, graph := g, flags := 0, enq := 0, origin := o, body := body }
  | none => { flow := 0, graph := 0xFF, flags := 0, enq := 0, origin := stamp, body := body }

/-- Keep a push for the log. -/
def State.gather (s : State) (p : PushRec) : State := { s with bs.gathered := s.bs.gathered ++ [p] }

/-- Put a peer message and its further cells into queue 0x06: a graph's under its credit, the control core's where there is room. -/
def State.putPeer (s : State) (it : Item) (payload : List Byte) : State :=
  let more : Item := { it with body := .raw (zeros cellBytes) }
  let put (s : State) (x : Item) : State := if it.graph = 0xFF then s.offer 0x06 x else s.put 0x06 x
  if it.graph = 0xFF ∧ !s.room 0x06 (peerCells payload) then s.bump 0x4C88 0x06
  else ((List.range (peerCells payload - 1)).foldl (fun s _ => put s more) (put s it)).flushPeers

/-- Send a peer message to a neighbour. In a replay it is gathered for the reconciliation (R279). -/
def State.peerSend (s : State) (m : Mac) (opcode handover : Nat) (payload : List Byte) : State :=
  let it := s.servedItem s.tb (.peer m opcode handover payload)
  let s := s.gather { queue := 0x06, item := it }
  if s.bs.replaying then s else s.putPeer it payload

/-- Hand a record to the History Store. In a replay it is gathered for the reconciliation (R279). -/
def State.progHist (s : State) (stamp : Ns) (place : Pid) (type : Nat) (body : List Byte) : State :=
  let r : HistRec := { stamp := stamp, place := place, type := type, body := body }
  let it := s.servedItem stamp (.record r.padded)
  let s := s.gather { queue := 0x0A, item := it }
  if s.bs.replaying then s else s.histFrom it.graph it.flow r

/-! ## Records -/

/-- The longitudinal cm of a position, within u32. -/
def posCm (x : Int) : Nat := (x / cm).toNat % pow32

/-- The handover a track shows: the newest it has sent, or the one it was received by. -/
def Track.handoverId (t : Track) : Nat :=
  match t.sent.getLast?, t.received with
  | some h, _ => h.id
  | none, some h => h.id
  | none, none => 0

/-- A TRACK record (Table 12.2). -/
def State.trackRecord (s : State) (t : Track) (event : Nat) (stamp : Ns) : State :=
  s.progHist stamp s.ownPid 0x07 (u16 t.number ++ u8 event ++ u8 (s.kindOf t) ++ u8 t.section_ ++ u8 0 ++ leI 2 t.speed ++
    u32 (posCm t.pos) ++ u32 t.handoverId)

/-! ## Load (R203) -/

/-- PROMENADE_LOAD (Table 5.10). -/
def State.promLoad (s : State) (refused late deferred : Nat) : State :=
  let r := s.prom.load.add s.clk.mono refused late deferred 0
  let n := r.1.past 0xFFFF
  let s := { s with prom.load := r.1 }
  if r.2 then s.raise 0x40E0 0xFF (u16 s.prom.tracks.length ++ u16 n.1 ++ u16 n.2.1 ++ u16 n.2.2.1 ++ u64 s.now) else s

/-! ## Launch instants (R192) -/

/-- The soonest launch of a command that enters the egress queue now. -/
def State.soonest (s : State) : Ns := s.tb + s.num 0x4002 * ms

def State.batchAt (s : State) (number : Nat) (launch : Ns) : Option BatchLaunch :=
  s.prom.batches.find? (fun b => b.track == number && b.launch == launch)

/-- A coverer makes a batch with launch instant `launch`; `settled` where it has been moved already. A replay of it finds what was
settled. -/
def State.openBatch (s : State) (number : Nat) (launch : Ns) (settled : Option Ns) : State :=
  if (s.batchAt number launch).isSome then s
  else
    { s with prom.batches := s.prom.batches.filter (fun b => decide (s.tb < b.launch + 20 * sec)) ++
        [{ track := number, launch := launch, settled := settled }] }

/-- The launch instant that the commands of a coverer's change at `launch` take now. What belongs to no batch keeps its own. A replay
reads what was settled. -/
def State.launchOf (s : State) (number : Nat) (launch : Ns) : Ns :=
  match s.batchAt number launch with
  | some b => b.settled.getD (if s.bs.replaying then launch else max launch s.soonest)
  | none => launch

/-- The batch's first command enters the egress queue: its launch instant is settled, and a late one is counted once (R192). -/
def State.settleBatch (s : State) (number : Nat) (launch : Ns) : State :=
  match s.batchAt number launch with
  | some b =>
    if b.settled.isSome ∨ s.bs.replaying then s
    else
      let l := max launch s.soonest
      let s := { s with prom.batches := s.prom.batches.map (fun x =>
        if x.track = number ∧ x.launch = launch then { x with settled := some l } else x) }
      if launch < l then (s.bump 0x40F2).promLoad 0 1 0 else s
  | none => s

/-- The launch instant R192 gives a trigger instant now, and whether it has come too late. -/
def State.launchAt (s : State) (t : Ns) : Ns × Bool :=
  let l := t + s.num 0x4001 * ms
  if l < s.soonest then (s.soonest, true) else (l, false)

/-! ## Points (R189–R198) -/

/-- Promenade commands are sent for the point: its base layer is lit and Promenade is on for its section (R198). -/
def State.commands (s : State) (p : Pid) (t : Ns) : Bool :=
  match s.lampOf p with
  | some l => (s.bandAt t).isSome && s.flag 0x4080 l.section_
  | none => false

/-- A Promenade command: rise or fall (R196). -/
def State.promCmd (s : State) (p : Pid) (launch : Ns) (rise : Bool) : DriveCmd :=
  { point := p, launch := launch, code := { cur0 := 0, duty0 := 0, cur1 := 0, duty1 := 0 },
    fade := if rise then s.num 0x4005 else s.num 0x4006, tol := if rise then s.num 0x4004 else 0xFFFF,
    shape := s.num 0x4007, source := 1, class_ := if rise then 0 else 1, level := 0 }

def State.onCover (s : State) (p : Pid) (f : PointCover → PointCover) : State :=
  { s with prom.cover := tput s.prom.cover (pointKey p) (f (s.coverOf p)) }

/-- A change of direction at `t`; too many within 60 s hold the point at the active level (R190). -/
def State.turn (s : State) (p : Pid) (up : Bool) (t : Ns) : State :=
  let c := s.coverOf p
  if c.active = up then s
  else
    let changes := (c.changes ++ [t]).filter (fun x => t < x + 60 * sec)
    let s := s.onCover p (fun c => { c with active := up, changes := changes })
    if s.num 0x4009 < changes.length ∧ c.flapUntil.isNone then
      (s.bump 0x40F6).onCover p (fun c => { c with flapUntil := some (s.tb + s.num 0x400A * sec), changes := [] })
    else s

/-- The level stays active through `t`: a fall that was to come later does not come, and is no change of direction (R190). -/
def PointCover.stay (c : PointCover) (t : Ns) : PointCover :=
  { c with active := true, changes := c.changes.filter (fun x => x ≤ t) }

/-- A fall at `launch`, deferred while the egress queue is short of cells (R194, R197). -/
def State.fall (s : State) (graph flow : Nat) (origin : Ns) (p : Pid) (launch : Ns) : State × List PushRec :=
  let s := s.turn p false launch
  if !s.commands p launch then (s, [])
  else if s.queueFull 0x03 && !s.bs.replaying then
    ((s.onCover p (fun c => { c with deferredAt := some s.clk.mono })).promLoad 0 0 1, [])
  else s.emit graph flow origin (s.promCmd p launch false)

/-- The point is covered at `t` by what covers it already, or held after it. -/
def PointCover.coveredAt (c : PointCover) (t : Ns) : Bool := !c.tracks.isEmpty && decide (c.openAt ≤ t)

def State.heldAt (s : State) (c : PointCover) (t : Ns) : Bool :=
  match c.closedAt with
  | some e => decide (c.heldFrom ≤ t ∧ t < e + s.num 0x4008 * sec)
  | none => false

/-- A coverer's coverage of a point opens at its batch's launch (R194). A hold that ends by then runs to its end. -/
def State.openPoint (s : State) (graph flow : Nat) (origin : Ns) (p : Pid) (number : Nat) (nominal : Ns) :
    State × List PushRec :=
  let launch := s.launchOf number nominal
  let was := s.promActive p launch
  let old := s.coverOf p
  let byCover := old.coveredAt launch
  let byHold := s.heldAt old launch
  let s := s.onCover p (fun c =>
    { c with tracks := c.tracks.filter (fun n => n != number) ++ [number]
             openAt := if byCover then c.openAt else if byHold then c.heldFrom else launch
             closedAt := if byHold then none else c.closedAt
             deferredAt := none })
  if was then ((s.onCover p (fun c => c.stay launch)).reviseLater graph flow origin p, [])
  else
    let s := s.turn p true launch
    if s.commands p launch then (s.settleBatch number nominal).emit graph flow origin (s.promCmd p launch true) else (s, [])

/-- A coverer's coverage of a point closes: the last one's close brings the fall pm.hold_s later. -/
def State.closePoint (s : State) (graph flow : Nat) (origin : Ns) (p : Pid) (number : Nat) (nominal : Ns) :
    State × List PushRec :=
  let at_ := s.launchOf number nominal
  let c := s.coverOf p
  if !c.tracks.contains number then (s, [])
  else
    let left := c.tracks.filter (fun n => n != number)
    let s := s.onCover p (fun c => if left.isEmpty then { c with tracks := [], closedAt := some at_, heldFrom := c.openAt }
                                   else { c with tracks := left })
    if left.isEmpty then
      let launch := at_ + s.num 0x4008 * sec
      (if s.commands p launch && !s.queueFull 0x03 then s.settleBatch number nominal else s).fall graph flow origin p launch
    else (s, [])

/-- The internal queue of the graph that runs Promenade, where it has one. -/
def State.coverQueue (s : State) : Option Nat :=
  (s.consumer 0x00).bind (fun g => let x := s.slotOf g; if x.info.queues.isEmpty then none else some x.firstQueue)

/-- The graph of the item in service runs Promenade no longer: it has stopped, and its internal queues are gone (R244). -/
def State.servesStopped (s : State) : Bool :=
  match s.bs.serving with
  | some (g, _, _) => s.consumer 0x00 != some g
  | none => false

/-- An item for another flow goes through the graph's internal queue; a graph without one does at once what the item would do (log
entry 6). -/
def State.pushInside (s : State) (flow : Nat) (origin : Ns) (body : Body) (atOnce : State × List PushRec) : State × List PushRec :=
  if s.servesStopped then ({ s with fe.emptied := s.fe.emptied + 1 }, [])
  else match s.coverQueue with
    | some q =>
      let it := s.itemFor 0x00 flow origin body
      (if s.bs.replaying then s else s.put q it, [{ queue := q, item := it }])
    | none => atOnce

/-- Coverage handed to a point's flow. -/
def State.pushCover (s : State) (origin : Ns) (p : Pid) (number : Nat) (opens : Bool) (at_ : Ns) :
    State × List PushRec :=
  s.pushInside (pointFlow p) origin (.cover p opens number at_)
    (if opens then s.openPoint 0xFF (pointFlow p) origin p number at_ else s.closePoint 0xFF (pointFlow p) origin p number at_)

/-- Coverage of several points. -/
def State.pushCovers (s : State) (origin : Ns) (ps : List Pid) (number : Nat) (opens : Bool) (at_ : Ns) :
    State × List PushRec :=
  ps.foldl (fun a p => let r := a.1.pushCover origin p number opens at_; (r.1, a.2 ++ r.2)) (s, [])

/-! ## Batches (R191–R193) -/

def State.onTrack (s : State) (n : Nat) (f : Track → Track) : State :=
  { s with prom.tracks := tmap s.prom.tracks n f }

def State.trackOf (s : State) (n : Nat) : Option Track := tget s.prom.tracks n

/-- Handovers open, sent and received (Table 5.7). -/
def State.handoversOpen (s : State) : Nat :=
  sumOf (s.prom.tracks.map (fun e => e.2.sent.length + bit (e.2.received.isSome && e.2.state == .shadow)))

/-- A HANDOVER of a track for a batch (Table 5.8). -/
def State.handoverMessage (s : State) (t : Track) (h : Handover) (update : Bool) (jn : Junction) : List Byte :=
  u32 h.id ++ pidBytes s.ownPid ++ u8 jn.portal ++ u8 jn.peerPortal ++ u8 (s.kindOf t) ++ u8 (bit update) ++
    u16 t.speed.natAbs ++ u64 h.launch ++ u64 h.crossing ++ u64 t.tLast ++ u32 h.leadBeyond ++ u16 h.gate ++ u16 0

/-- HANDOVER_CANCEL (Table 5.9). -/
def State.cancelHandover (s : State) (h : Handover) (reason : Nat) (launch : Ns) : State :=
  s.peerSend h.peer 0x40C2 h.id (u32 h.id ++ pidBytes s.ownPid ++ u8 reason ++ u8 0 ++ u64 launch)

def State.cancelAll (s : State) (l : List Handover) (reason : Nat) (launch : Ns) : State :=
  l.foldl (fun s h => s.cancelHandover h reason launch) s

/-- One portal that a batch's rise window reaches: junction, distance, distance beyond it. The open handover through it is updated, or
one opens (R204). -/
def State.handoverThrough (s : State) (t : Track) (launch : Ns) (x : Nat × Int × Int) : State :=
  match s.junctionOf x.1 with
  | none => s
  | some jn =>
    match tget s.ring.peers jn.neighbour with
    | none => s
    | some mac =>
      let old := t.sent.find? (fun h => h.portal == jn.portal)
      if !s.flag 0x4030 ∨ (old.isNone ∧ 64 ≤ s.handoversOpen) then s
      else
        let crossing := t.tLast + x.2.1.toNat / max t.speed.natAbs 1
        let h : Handover :=
          { id := (old.map (fun h => h.id)).getD s.prom.nextHandover
            portal := jn.portal, peer := mac, crossing := crossing, launch := launch,
            leadBeyond := posCm x.2.2, gate := posCm (s.gate t crossing) % 65536,
            answered := (old.map (fun h => h.answered)).getD false
            lost := (old.map (fun h => h.lost)).getD false }
        let s := if old.isNone then
          { s.bump 0x40F4 with prom.nextHandover := (s.prom.nextHandover + 1) % pow32 } else s
        (s.onTrack t.number (fun t => { t with sent := t.sent.filter (fun k => k.portal != jn.portal) ++ [h] })).peerSend mac
          0x40C0 h.id (s.handoverMessage t h old.isSome jn)

/-- The handover part of a batch (R204, R209): open handovers through portals that its rise window no longer reaches are withdrawn. -/
def State.handoverPart (s : State) (t : Track) (portals : List (Nat × Int × Int)) (launch : Ns) : State :=
  let reached := portals.filterMap (fun x => (s.junctionOf x.1).map (fun j => j.portal))
  let gone := t.sent.filter (fun h => !reached.contains h.portal)
  let s := if gone.isEmpty then s
    else (s.cancelAll gone 1 launch).onTrack t.number (fun t => { t with sent := t.sent.filter (fun h => reached.contains h.portal) })
  portals.foldl (fun s x => s.handoverThrough t launch x) s

/-- A batch of track `n` triggered at `tb` (R191–R193): its window is that of L as R192 sets it first. -/
def State.batch (s : State) (n : Nat) (origin tb : Ns) : State × List PushRec :=
  match s.trackOf n with
  | none => (s, [])
  | some t =>
    let launch := tb + s.num 0x4001 * ms
    let b := s.batchPlan t launch
    let s := (s.bump 0x40FA 0 b.cut).openBatch n launch none
    let s := s.onTrack n (fun t => { t with covered := t.covered.filter (fun p => !b.closes.contains p) ++ b.opens
                                            lastBatch := tb })
    let o := s.pushCovers origin b.opens n true launch
    let c := o.1.pushCovers origin b.closes n false launch
    ((match c.1.trackOf n with
      | some t' => if t'.state = .confirmed then c.1.handoverPart t' b.portals launch else c.1
      | none => c.1), o.2 ++ c.2)

/-- A track ends: its coverage closes at `at_`, and open handovers are withdrawn with `reason` (0: they are not), but for the one with
ID `taken`. -/
def State.endTrack (s : State) (n : Nat) (origin at_ : Ns) (event reason : Nat) (taken : Option Nat := none) :
    State × List PushRec :=
  match s.trackOf n with
  | none => (s, [])
  | some t =>
    let mine (h : Handover) : Bool := taken == some h.id
    let s := s.trackRecord (if taken.isSome then { t with sent := t.sent.filter mine } else t) event at_
    let s := if reason = 0 then s else s.cancelAll (t.sent.filter (fun h => !mine h)) reason at_
    { s with prom.tracks := tdel s.prom.tracks n }.pushCovers origin t.covered n false at_

/-! ## The track flow (R181–R186) -/

/-- Half the sum of a speed and a displacement over a time, in cm/s, rounded down. -/
def meanSpeed (v : Int) (dx : Int) (dt : Nat) : Int := if dt = 0 then v else (v + dx / (dt : Int)) / 2

/-- Clamp a speed to a section's vmax. -/
def clampSpeed (v : Int) (vmax : Nat) : Int := max (-(vmax : Int)) (min (vmax : Int) v)

/-- The way from a track's newest position to a detection: its signed path distance in the direction of travel, nearest to the
prediction, and whether the way leads there in the direction of rising positions. Within the section it is the straight one. -/
def State.wayTo (s : State) (t : Track) (stamp : Ns) (sect : Nat) (q : Int) : Option (Int × Bool) :=
  let d := t.travel stamp
  let g := s.gate t stamp
  let straight := if t.section_ = sect then [(if t.forward then q - t.pos else t.pos - q, t.forward)] else []
  (straight ++ s.seenFrom 4 t (max 0 (d + g)) (max 0 (g - d)) sect q).foldl (fun best x => match best with
    | none => some x
    | some b => if (x.1 - d).natAbs < (b.1 - d).natAbs then some x else some b) none

/-- A detection is associated with the track: R181, R183 and Table 5.5. Speeds are taken along the section of the detection; a
TENTATIVE track's speed counts as 0 until it is known (log entry 89). -/
def State.advance (s : State) (t : Track) (d : Detection) (sect : Nat) (q : Int) : Track :=
  let vmax := ((s.sectionOf sect).map (fun x => x.vmax)).getD 0
  let dt := d.stamp - t.tLast
  let way := s.wayTo t d.stamp sect q
  let along (v : Int) : Int := match way with
    | some w => if w.2 then v else -v
    | none => v
  let v0 : Int := match way with
    | some _ => along (t.speed.natAbs : Int)
    | none => t.speed
  let v : Int := match d.velocity, way with
    | some v, _ => v
    | none, some w => if 200 * ms ≤ dt ∧ t.state ≠ .shadow then meanSpeed v0 (along w.1) dt else v0
    | none, none => v0
  let moved : Track := { t with section_ := sect, pos := q, speed := clampSpeed v vmax, tLast := d.stamp,
                                heard := max t.heard d.stamp, reported := if d.kind = 0 then t.reported else d.kind }
  match t.state with
  | .confirmed => moved
  | .shadow => { moved with state := .confirmed }
  | .tentative =>
    match way with
    | none => moved
    | some w =>
      if w.1.natAbs < 30 * dt then { moved with since := d.stamp }
      else if 0 < dt ∧ w.1.natAbs ≤ vmax * dt then { moved with state := .confirmed }
      else moved

/-- HANDOVER_TAKEN to the sender of a shadow (R208). -/
def State.sendTaken (s : State) (h : Handover) (stamp : Ns) : State :=
  s.peerSend h.peer 0x40C1 h.id (u32 h.id ++ pidBytes s.ownPid ++ u16 0 ++ u64 stamp)

/-- Live tracks the module can hold (Table 5.7). -/
def State.trackPlaces (s : State) : Nat := if s.is16C then 128 else 512

/-- Items on their way to flows: in the two queues that lead to tracks, in hold lists, on engines, and taken back by a rewind. -/
def State.underWay (s : State) : List Item :=
  (s.queue 0x05).items ++ ((s.coverQueue.map (fun q => (s.queue q).items)).getD []) ++
    s.fe.hold.flatMap (fun e => e.2.map (fun w => w.item)) ++ s.onEngines.map (fun w => w.item) ++
    s.bs.replays.flatMap (fun e => ((e.2.retracted.filter (fun p => p.removed)) ++ e.2.made.map Prod.snd).map (fun p => p.item))

/-- The track place an item is to fill. -/
def Item.fills (it : Item) : Bool :=
  match it.body with
  | .birth _ => true
  | .peer _ op _ _ => op == 0x40C0
  | _ => false

/-- The lowest track number that is free and that no item is to fill. -/
def State.freeTrack (s : State) : Option Nat :=
  let taken := (s.underWay.filter Item.fills).map (fun it => it.flow)
  ((List.range s.trackPlaces).map (48 + ·)).find? (fun n => (s.trackOf n).isNone && !taken.contains n)

/-- Coverage of `ps` that belongs to no track, until an instant (R202). A replay finds the coverage it had opened. -/
def State.coverLoose (s : State) (origin : Ns) (ps : List Pid) (until_ launch : Ns) (settled : Option Ns)
    (handover : Option (Mac × Nat)) : State × List PushRec :=
  match s.prom.loose.find? (fun l => l.until_ == until_ && l.points == ps && l.handover == handover) with
  | some l => s.pushCovers origin ps l.number true launch
  | none =>
    let n := ((List.range 4096).find? (fun i => !s.prom.loose.any (fun l => l.number == 1000 + i))).getD 4096 + 1000
    let l : LooseCover := { number := n, points := ps, until_ := until_, handover := handover }
    ({ s with prom.loose := s.prom.loose ++ [l] }.openBatch n launch settled).pushCovers origin ps n true launch

/-- A track as a detection opens it (R180). -/
def State.newTrack (s : State) (n : Nat) (d : Detection) (sect : Nat) (q : Int) : Track :=
  let vmax := ((s.sectionOf sect).map (fun x => x.vmax)).getD 0
  { number := n, state := if d.velocity.isSome then .confirmed else .tentative, reported := d.kind,
    section_ := sect, pos := q, speed := clampSpeed (d.velocity.getD 0) vmax, tLast := d.stamp, heard := d.stamp,
    lastBatch := d.stamp, since := d.stamp, opened := d.stamp, covered := [], sent := [], received := none }

/-- The points a TENTATIVE track of the place would cover, and the paths cut off (R202). -/
def State.tentativePoints (s : State) (d : Detection) (sect : Nat) (q : Int) : List Pid × Nat :=
  let b := s.batchPlan { s.newTrack 0 d sect q with state := .tentative } 0
  (b.opens, b.cut)

/-- The track flow opens its track, and makes its first batch (Table 5.5). -/
def State.bear (s : State) (n : Nat) (d : Detection) (sect : Nat) (q : Int) : State × List PushRec :=
  let t := s.newTrack n d sect q
  ({ s with prom.tracks := tput s.prom.tracks n t }.trackRecord t 1 d.stamp).batch n d.stamp d.stamp

/-- The number the section flow gave the detection's track before, where this is a replay of it. -/
def State.bornAs (s : State) (flow : Nat) (d : Detection) : Option Nat :=
  (s.consumer 0x00).bind (fun g => (tget s.bs.replays (g * 65536 + flow)).bind (fun r =>
    (r.retracted.find? (fun p => p.item.body == .birth d)).map (fun p => p.item.flow)))

/-- The section flow opens a track, or does what R180 says instead: it hands the detection to a free track flow. -/
def State.openTrack (s : State) (d : Detection) (sect : Nat) (q : Int) : State × List PushRec :=
  if d.confidence < s.num 0x4029 then (s, [])
  else match (s.bornAs (sectionFlow sect) d).orElse (fun _ => s.freeTrack) with
    | none =>
      let ps := s.tentativePoints d sect q
      (((s.bump 0x40FA 0 ps.2).bump 0x40F7).bump 0x40F1).promLoad 1 0 0 |>.coverLoose d.stamp ps.1
        (d.stamp + s.num 0x4022 * ms) (d.stamp + s.num 0x4001 * ms) none none
    | some n => s.pushInside n d.stamp (.birth d) (s.bear n d sect q)

/-- A detection that has come to a track flow after its track ended is passed to the section flow (R178). -/
def State.passOn (s : State) (d : Detection) (sect : Nat) (q : Int) : State × List PushRec :=
  s.pushInside (sectionFlow sect) d.stamp (.detect d d.stamp) (s.openTrack d sect q)

/-- A detection reaches a track's flow. A straggler shows only that the track is alive (after R270). -/
def State.detectOnTrack (s : State) (n : Nat) (d : Detection) (straggler : Bool) : State × List PushRec :=
  match s.detectedAt d with
  | none => (s, [])
  | some (sect, q) =>
    match s.trackOf n with
    | none => s.passOn d sect q
    | some t =>
      if straggler then (s.onTrack n (fun t => { t with heard := max t.heard s.tb }), [])
      else
        let t' := s.advance t d sect q
        let s := s.onTrack n (fun _ => t')
        let s := if t.state = .tentative ∧ t'.state = .confirmed then s.trackRecord t' 2 d.stamp else s
        let s := match t.state, t.received with
          | .shadow, some h => (s.sendTaken h d.stamp).trackRecord t' 5 d.stamp
          | _, _ => s
        match s.endedAt t' d.stamp with
        | some e => s.endTrack n d.stamp e 3 2
        | none => s.batch n d.stamp d.stamp

/-- The instants at which a track's flow has something to do (R184, R185, R191, Table 5.5): its tick, its end at the end of the road or
for want of detections. -/
def State.trackAlarm (s : State) (t : Track) : Ns :=
  match t.state with
  | .confirmed =>
    let tick := t.lastBatch + s.num 0x4003 * ms
    min (min tick (t.heard + s.coastTime t)) ((s.endedAt t tick).getD tick)
  | .tentative => t.since + s.num 0x4022 * ms
  | .shadow => t.heard + s.coastTime t

/-- The flow of a track acts at `t` on what is due: the track's end, or a batch (R184, R185, R191, Table 5.5). -/
def State.tick (s : State) (n : Nat) (t : Ns) : State × List PushRec :=
  match s.trackOf n with
  | none => (s, [])
  | some tr =>
    match tr.state with
    | .confirmed =>
      if tr.heard + s.coastTime tr ≤ t then s.endTrack n t (tr.heard + s.coastTime tr) 3 2
      else match s.endedAt tr t with
        | some e => s.endTrack n t e 3 2
        | none => if tr.lastBatch + s.num 0x4003 * ms ≤ t then s.batch n t t else (s, [])
    | .tentative => if tr.since + s.num 0x4022 * ms ≤ t then s.endTrack n t (tr.since + s.num 0x4022 * ms) 3 0 else (s, [])
    | .shadow => if tr.heard + s.coastTime tr ≤ t then s.endTrack n t (tr.heard + s.coastTime tr) 3 0 else (s, [])

/-! ## Received handovers (R206–R209) -/

/-- The sender's PID48 is a module of this city, district and ring (R206). -/
def State.moduleOfRing (s : State) (p : Pid) : Bool :=
  pidPrefix p / 64 == s.ownPrefix / 64 && pidCircuit p == 62 && pidPoint p == 255

/-- The junction of a local portal. -/
def State.portalJunction (s : State) (n : Nat) : Option Junction :=
  (s.prom.junctions.find? (fun e => e.2.kind == 2 && e.2.portal == n)).map (fun e => e.2)

/-- The section at a junction, and whether it is entered at its start. -/
def State.entryOf (s : State) (j : Nat) : Option (Nat × Int × Bool) :=
  s.prom.sections.findSome? (fun e =>
    if e.2.start = j then some (e.2.number, 0, true)
    else if e.2.finish = j then some (e.2.number, (e.2.length : Int) * cm, false) else none)

/-- The shadow a handover has made. -/
def State.shadowOf (s : State) (peer : Mac) (id : Nat) : Option Track :=
  (s.prom.tracks.find? (fun e => match e.2.received with
    | some h => h.peer == peer && h.id == id
    | none => false)).map (fun e => e.2)

/-- The track number a handover of this module's neighbour has, or is about to fill. -/
def State.shadowPlace (s : State) (peer : Mac) (id : Nat) : Option Nat :=
  match s.shadowOf peer id with
  | some t => some t.number
  | none => (s.underWay.find? (fun it => match it.body with
      | .peer m op h _ => m == peer && op == 0x40C0 && h == id
      | _ => false)).map (fun it => it.flow)

/-- A shadow as a HANDOVER gives it, entering a section at `x` (R207, R208). -/
def State.newShadow (s : State) (n : Nat) (h : Handover) (kind speed sect : Nat) (x : Int) (forward : Bool) : Track :=
  { number := n, state := .shadow, reported := kind, section_ := sect, pos := x,
    speed := if forward then (speed : Int) else -(speed : Int), tLast := h.crossing, heard := s.tb, lastBatch := h.launch,
    since := s.tb, opened := h.crossing, covered := [], sent := [], received := some h }

/-- A HANDOVER's content (Table 5.8), its launch as accepted. -/
def handoverOf (mac : Mac) (p : List Byte) : Handover :=
  { id := fld p 0 4, portal := fld p 11 1, peer := mac, crossing := fld p 24 8, launch := fld p 16 8, leadBeyond := fld p 40 4,
    gate := fld p 44 2, answered := false, lost := false }

/-- What a shadow's update states is covered, and what it no longer states is not (R188). -/
def State.coverShadow (s : State) (n : Nat) (origin : Ns) (h : Handover) : State × List PushRec :=
  match s.trackOf n with
  | none => (s, [])
  | some t =>
    let b := s.batchPlan t h.launch
    let s := (s.bump 0x40FA 0 b.cut).openBatch n h.launch (some h.launch)
    let s := s.onTrack n (fun t => { t with covered := t.covered.filter (fun p => !b.closes.contains p) ++ b.opens })
    let o := s.pushCovers origin b.opens n true h.launch
    let c := o.1.pushCovers origin b.closes n false h.launch
    (c.1, o.2 ++ c.2)

/-- A HANDOVER reaches the flow of its shadow: the shadow is opened or updated (R207, Table 5.5). A track that a detection has
confirmed is the receiver's own. -/
def State.shadowUpdate (s : State) (n : Nat) (origin : Ns) (mac : Mac) (p : List Byte) : State × List PushRec :=
  let h := handoverOf mac p
  match (s.portalJunction h.portal).bind (fun j => s.entryOf j.number) with
  | none => (s, [])
  | some (sect, x, fwd) =>
    let t := s.newShadow n h (fld p 12 1) (fld p 14 2) sect x fwd
    match s.trackOf n with
    | none => ({ s with prom.tracks := tput s.prom.tracks n t }.trackRecord t 1 origin).coverShadow n origin h
    | some old =>
      if old.state ≠ .shadow then (s, [])
      else s.onTrack n (fun old => { t with covered := old.covered, since := old.since, opened := old.opened }) |>.coverShadow n
        origin h

/-- HANDOVER_TAKEN reaches the sender's track (R208). -/
def State.handedOver (s : State) (n : Nat) (origin : Ns) (mac : Mac) (id : Nat) : State × List PushRec :=
  match s.trackOf n with
  | some t =>
    if t.sent.any (fun h => h.peer == mac && h.id == id) then s.endTrack n origin s.tb 4 2 (some id) else (s, [])
  | none => (s, [])

/-- HANDOVER_CANCEL reaches the shadow: its coverage closes at the stated launch (R209). -/
def State.shadowCancel (s : State) (n : Nat) (mac : Mac) (p : List Byte) : State × List PushRec :=
  match s.trackOf n with
  | some t =>
    if t.state = .shadow ∧ t.received.any (fun h => h.peer == mac && h.id == fld p 0 4) then
      s.endTrack n (fld p 12 8) (fld p 12 8) 3 0
    else (s, [])
  | none => (s, [])

/-- Points within `beyond` of a portal along every path from it (R207), and the paths cut off. -/
def State.beyondPortal (s : State) (kind sect : Nat) (x : Int) (forward : Bool) (beyond : Int) : List Pid × Nat :=
  let r := s.walk 16 kind false sect x forward beyond
  ((s.placed.filter (fun e => !(distances r.1 e.2.1 e.2.2).isEmpty)).map (fun e => e.1), r.2)

/-! ## Graph changes (R175) -/

/-- A track's position or coverage lies on an altered section, junction or place: `spots` are the positions of altered places. -/
def State.touched (s : State) (t : Track) (sections junctions : List Nat) (points : List Pid) (spots : List (Nat × Int)) : Bool :=
  let r := s.reach t s.tb
  r.any (fun x => sections.contains x.section_ || (s.junctionsOf x).any (fun j => junctions.contains j) ||
      spots.any (fun q => x.holds q.1 q.2)) ||
    t.covered.any (fun p => points.contains p || (match s.lampOf p with | some l => sections.contains l.section_ | none => false))

/-- A track ends by a change from outside its flow, which then cannot be rewound to before it. -/
def State.cutTrack (s : State) (n reason : Nat) : State :=
  let s := (s.endTrack n s.tb s.tb 3 reason).1
  match s.consumer 0x00 with
  | some g => { s with bs.ckpts := tdel s.bs.ckpts (g * 65536 + n), bs.log := tdel s.bs.log (g * 65536 + n) }
  | none => s

/-- A graph change ends the tracks it touches, at its admission instant. -/
def State.graphChange (s : State) (sections junctions : List Nat) (points : List Pid) (spots : List (Nat × Int)) : State :=
  (s.prom.tracks.filter (fun e => s.touched e.2 sections junctions points spots)).foldl (fun s e => s.cutTrack e.1 3) s

end Sys2Proof.Machine
end

