-- ==== Sys2Proof/Machine/BackstepOps.lean ====
section
/-!
DEFINITION. Backstep (R260–R295): what is committed, checkpoints, the log, rewinds and reconciliation. A flow's key is its graph ×
65,536 plus its number. Services of ORDERED items are numbered from 1, and records and entries carry the number of the service they
belong to.
-/

namespace Sys2Proof.Machine

def flowKey (it : Item) : Nat := it.graph * 65536 + it.flow

/-- An item of the flow is in service (R217), or one of the graph it has taken over from in a swap (R243). -/
def State.inService (s : State) (key : Nat) : Bool :=
  s.onEngines.any (fun w => flowKey w.item == key || w.heir.any (fun g => g * 65536 + w.item.flow == key))

def State.holdOf (s : State) (key : Nat) : List Work := (tget s.fe.hold key).getD []

def State.setHold (s : State) (key : Nat) (l : List Work) : State :=
  { s with fe.hold := if l.isEmpty then tdel s.fe.hold key else tput s.fe.hold key l }

/-- The graph declares the flow ORDERED (R262). -/
def State.ordered (s : State) (key : Nat) : Bool :=
  (s.slotOf (key / 65536)).info.ordered.any (fun r => r.1 ≤ key % 65536 && key % 65536 ≤ r.2)

/-! ## What is committed (R267, R283) -/

/-- Checkpoints that are freed once the next of the flow lies before H. -/
def trimCkpts (h : Ns) : List Checkpoint → List Checkpoint
  | a :: b :: rest => if b.stamp < h then trimCkpts h (b :: rest) else a :: b :: rest
  | l => l

/-- The checkpoints that are not committed. -/
def State.keptCkpts (s : State) : Table (List Checkpoint) :=
  (s.bs.ckpts.map (fun e => (e.1, trimCkpts s.horizon e.2))).filter (fun e => !e.2.isEmpty)

/-- The log entries that are not older than their flow's oldest checkpoint; those of a flow without one, from H on. -/
def State.keptLog (s : State) (ck : Table (List Checkpoint)) : Table (List LogEntry) :=
  let h := s.horizon
  (s.bs.log.map (fun e => (e.1, e.2.filter (fun l => match (tget ck e.1).bind (fun c => c.head?) with
    | some c => decide (c.serial ≤ l.serial)
    | none => decide (h ≤ l.stamp))))).filter (fun e => !e.2.isEmpty)

/-- Free what is committed (R267). -/
def State.trim (s : State) : State :=
  let ck := s.keptCkpts
  { s with bs.ckpts := ck, bs.log := s.keptLog ck }

/-- Free checkpoint records: one that an error has cost is free (R285). -/
def State.ckptFree (s : State) : Nat :=
  32768 - sumOf (s.keptCkpts.map (fun e => (e.2.filter (fun c => !c.lost)).length))

/-- Free log entries: one is used per item and one per push (R264). -/
def State.logFree (s : State) : Nat :=
  65536 - sumOf ((s.keptLog s.keptCkpts).map (fun e => sumOf ((e.2.filter (fun l => !l.lost)).map (fun l => 1 + l.pushes.length))))

/-- The oldest stamp after H of a record or entry still held. -/
def State.oldestHeld (s : State) : Option Ns :=
  minOf ((s.bs.ckpts.flatMap (fun e => e.2.map (fun c => c.stamp)) ++
    s.bs.log.flatMap (fun e => e.2.map (fun l => l.stamp))).filter (fun t => s.horizon < t))

/-- BACKSTEP_LOAD (Table 7.6). -/
def State.bsLoad (s : State) (stragglers capped unprotected early : Nat) : State :=
  let r := s.bs.load.add s.clk.mono stragglers capped unprotected early
  let n := r.1.past 0xFFFF
  let s := { s with bs.load := r.1 }
  if r.2 then
    s.raise 0x48E2 0xFF
      (u16 n.1 ++ u16 n.2.1 ++ u16 n.2.2.1 ++ u16 n.2.2.2 ++ u32 ((s.tb - s.horizon) / ms) ++ u32 0 ++ u64 s.now)
  else s

/-- Commit early, one step at a time, until both reserves are met or nothing later than H is held (R283). -/
def State.commitFrom (fuel : Nat) (s : State) : State :=
  match fuel with
  | 0 => s
  | fuel + 1 =>
    if s.num 0x4823 ≤ s.ckptFree ∧ s.num 0x4824 ≤ s.logFree then s
    else match s.oldestHeld with
      | none => s
      | some t => State.commitFrom fuel ({ s.bump 0x48FE with bs.horizon := t }.trim.bsLoad 0 0 0 1)

/-- Every step commits one of the stamps that the store holds at most. -/
def State.commitEarly (s : State) : State := s.trim.commitFrom 98304

/-! ## Flows -/

def FlowState.zero : FlowState := { bytes := zeros 64, alarm := none, lost := false }

def State.flowState (s : State) (key : Nat) : FlowState := (tget s.fe.flows key).getD .zero

def State.onFlow (s : State) (key : Nat) (f : FlowState → FlowState) : State :=
  { s with fe.flows := tmap s.fe.flows key f }

/-- Flows of a graph that are live. -/
def State.liveFlows (s : State) (g : Nat) : Nat := (s.fe.flows.filter (fun e => e.1 / 65536 == g)).length

def State.ckptsOf (s : State) (key : Nat) : List Checkpoint := (tget s.bs.ckpts key).getD []
def State.logOf (s : State) (key : Nat) : List LogEntry := (tget s.bs.log key).getD []

/-- n_f (R263). -/
def State.newest (s : State) (key : Nat) : Ns := cget s.bs.newest key

def State.setLog (s : State) (key : Nat) (l : List LogEntry) : State :=
  { s with bs.log := if l.isEmpty then tdel s.bs.log key else tput s.bs.log key l }

def State.setCkpts (s : State) (key : Nat) (l : List Checkpoint) : State :=
  { s with bs.ckpts := if l.isEmpty then tdel s.bs.ckpts key else tput s.bs.ckpts key l }

/-- The graph that runs Promenade owns the flow. -/
def State.standardFlow (s : State) (key : Nat) : Bool := s.consumer 0x00 == some (key / 65536)

/-- The cover of the point whose flow this is, where it is one (log entry 6). -/
def State.flowPoint (s : State) (key : Nat) : Option Nat :=
  let n := key % 65536
  if s.standardFlow key && isPointFlow n then some (n - pointFlow0) else none

/-- A checkpoint of the flow as it stands before service `serial` (R263, R284). -/
def State.checkpoint (s : State) (key : Nat) (stamp : Ns) (serial : Nat) : State :=
  let s := s.trim
  let have_ := s.ckptsOf key
  if s.num 0x4822 ≤ (have_.filter (fun c => !c.lost && s.horizon ≤ c.stamp)).length ∨ s.ckptFree = 0 then s
  else
    let f := s.flowState key
    let c : Checkpoint :=
      { stamp := stamp, serial := serial, lost := false, bytes := f.bytes, alarm := f.alarm,
        track := if s.standardFlow key then s.trackOf (key % 65536) else none,
        cover := (s.flowPoint key).bind (fun k => tget s.prom.cover k) }
    (s.setCkpts key (have_ ++ [c])).perfEdge 0x0021 (key / 65536) 1

/-- Restore what the standard graph keeps of a flow: a track, with the handovers that are open now (R199); a point's cover, with the
commands it has been sent. -/
def State.restoreStandard (s : State) (key : Nat) (c : Checkpoint) : State :=
  match s.flowPoint key with
  | some k =>
    let now_ := (tget s.prom.cover k).getD .none_
    let v := { c.cover.getD .none_ with lastLaunch := now_.lastLaunch, lastLevel := now_.lastLevel, moved := now_.moved }
    { s with prom.cover := tput s.prom.cover k v }
  | none =>
    let n := key % 65536
    match c.track with
    | some t =>
      let open_ := match s.trackOf n with
        | some x => if x.opened = t.opened then x.sent else []
        | none => []
      { s with prom.tracks := tput s.prom.tracks n { t with sent := open_ } }
    | none => if isTrackFlow n then { s with prom.tracks := tdel s.prom.tracks n } else s

/-- Restore a flow from a checkpoint (R271): a flow that was freed since becomes live again, where its graph has a place. -/
def State.restore (s : State) (key : Nat) (c : Checkpoint) : State :=
  let f : FlowState := { bytes := c.bytes, alarm := c.alarm, lost := (s.flowState key).lost }
  let s := if (tget s.fe.flows key).isSome ∨ s.liveFlows (key / 65536) < (s.slotOf (key / 65536)).info.flows then
    { s with fe.flows := tput s.fe.flows key f } else s
  if s.standardFlow key then s.restoreStandard key c else s

/-! ## An item meets its flow (R269, Table 7.2) -/

def isTick (it : Item) : Bool := hasBit it.flags 3

/-- Logged items after a checkpoint. -/
def State.loggedAfter (s : State) (key : Nat) (c : Checkpoint) : List LogEntry :=
  (s.logOf key).filter (fun l => c.serial ≤ l.serial)

/-- The newest checkpoint at or before service `serial`, unless it or an entry after it is lost (R269, R285). -/
def State.ckptBefore (s : State) (key serial : Nat) : Option Checkpoint :=
  match ((s.ckptsOf key).filter (fun c => c.serial ≤ serial)).getLast? with
  | some c => if c.lost || (s.loggedAfter key c).any (fun l => l.lost) then none else some c
  | none => none

/-- The first logged item with a stamp later than `t`. -/
def State.firstLater (s : State) (key : Nat) (t : Ns) : Option LogEntry := (s.logOf key).find? (fun l => t < l.stamp)

/-- The needed checkpoint of a stamp (R269). -/
def State.neededCkpt (s : State) (key : Nat) (t : Ns) : Option Checkpoint :=
  (s.firstLater key t).bind (fun k => s.ckptBefore key k.serial)

/-- Items a rewind to a checkpoint would replay: logged ones, and those of a replay that are still to come (R278). -/
def State.replayLength (s : State) (key : Nat) (c : Checkpoint) : Nat :=
  (s.loggedAfter key c).length + ((s.holdOf key).filter (fun w => w.pass == .replayed)).length

/-- The rows of Table 7.2. -/
inductive Meeting where
  | unstamped | inOrder | straggler | unprotected | capped
  | late (c : Checkpoint)
  deriving DecidableEq, Repr

/-- The row of Table 7.2 whose condition holds for an item of stamp `t`. -/
def State.meeting (s : State) (key : Nat) (t : Ns) : Meeting :=
  if t = 0 then .unstamped
  else if s.newest key ≤ t then .inOrder
  else if t < s.horizon then .straggler
  else match s.neededCkpt key t with
    | none => .unprotected
    | some c => if s.num 0x4821 < s.replayLength key c then .capped else .late c

/-- The context flags of a row (Table 7.3). -/
def Meeting.flags : Meeting → Nat
  | .unstamped => 2
  | .inOrder | .late _ => 0
  | .straggler => 1
  | .unprotected => 9
  | .capped => 5

/-- The row is counted, and told under R286. -/
def State.countMeeting (s : State) (graph : Nat) (m : Meeting) : State :=
  match m with
  | .unstamped => s.bump 0x48FD
  | .inOrder | .late _ => s
  | .straggler => ((s.bump 0x48FA).bump 0x4885 graph).bsLoad 1 0 0 0
  | .unprotected => (s.bump 0x48FC).bsLoad 0 0 1 0
  | .capped => (s.bump 0x48FB).bsLoad 0 1 0 0

/-! ## Rewinds (R271–R275) -/

/-- A work's place in stamp order: equal stamps in the order of their pushes (R261). -/
def Work.rank (w : Work) : Nat := w.place.getD w.item.origin * 2 ^ 64 + w.item.order

/-- Sort works by stamp, earlier ones first. -/
def byStamp (l : List Work) : List Work := sortBy Work.rank l

/-- A work that waits in a replay, or was served in it. -/
def Work.replays (w : Work) : Bool := w.pass != .first

/-- A fresh work. -/
def Work.fresh (it : Item) (queue : Nat) : Work :=
  { item := it, queue := queue, pass := .first, context := 0, behind := 0, firstAt := none, retiredOnce := false, mark := 0 }

/-- A tick raised in a replay by an alarm that is due (R273). -/
def tickWork (key : Nat) (t : Ns) : Work :=
  { Work.fresh { flow := key % 65536, graph := key / 65536, flags := 8, enq := 0, origin := t, body := .raw (zeros cellBytes) }
      0x08 with pass := .tick }

/-- Put a work into the flow's replay, at its place in stamp order, ahead of every fresh item. -/
def State.joinWork (s : State) (key : Nat) (r : Replay) (w : Work) : State :=
  let h := s.holdOf key
  { s.setHold key (byStamp (h.filter Work.replays ++ [w]) ++ h.filter (fun w => !w.replays)) with
    bs.replays := tput s.bs.replays key { r with left := r.left + 1 } }

/-- Raise the flow's alarm as a tick of its replay, if it is due. -/
def State.replayTick (s : State) (key : Nat) : State :=
  match (s.flowState key).alarm, tget s.bs.replays key with
  | some t, some r => if t ≤ s.tb then (s.onFlow key (fun f => { f with alarm := none })).joinWork key r (tickWork key t) else s
  | _, _ => s

/-- Retracted items that still stand in a graph's own queue are taken out, which frees their cells (R288). -/
def State.takeBack (s : State) (ps : List PushRec) : State × List PushRec :=
  ps.foldl (fun acc p =>
    if p.queue < 0x20 then (acc.1, acc.2 ++ [p])
    else
      let x := acc.1.queue p.queue
      match x.items.findIdx? (fun it => it.bare == p.item.bare) with
      | some i => (acc.1.setQueue p.queue { x with items := x.items.eraseIdx i }, acc.2 ++ [{ p with removed := true }])
      | none => (acc.1, acc.2 ++ [p])) (s, [])

/-- A logged item as its replay serves it: a straggler in the place where it was served (R270). -/
def LogEntry.again (l : LogEntry) : Work :=
  { Work.fresh l.item l.queue with
    pass := .replayed, context := l.context, firstAt := some l.firstAt, place := if l.context = 0 then none else some l.stamp }

/-- The rewind of a flow to checkpoint `c` (R271): `extra` is the late item, `drop` the services of retracted items. A replay under way is
stopped, and carries on what it had retracted and what is still to be served; what it has made since `c` was never delivered (R275). -/
def State.rewind (s : State) (key : Nat) (c : Checkpoint) (extra : List Work) (drop : List Nat) (late : Ns) (queue : Nat) : State :=
  let r0 : Option Replay := tget s.bs.replays key
  let since := (r0.map (fun r => r.since)).getD s.bs.serial
  let back := s.loggedAfter key c
  let kept := (s.logOf key).filter (fun l => l.serial < c.serial)
  let pend := (s.holdOf key).filter (fun w => w.pass == .replayed || w.pass == .late)
  let works := byStamp ((back.filter (fun l => !isTick l.item && !drop.contains l.serial)).map LogEntry.again ++ pend ++ extra)
  let b := s.takeBack ((back.filter (fun l => l.serial ≤ since)).flatMap (fun l => l.pushes))
  let s := b.1.restore key c
  let s := (s.setLog key kept).setCkpts key ((s.ckptsOf key).filter (fun x => x.serial ≤ c.serial))
  let s := (s.bump 0x48F5).bump 0x4884 (key / 65536)
  let s := { s with bs.newest := cput s.bs.newest key (maxOf (kept.map (fun (l : LogEntry) => l.stamp)))
                    bs.replays := tput s.bs.replays key
                      { since := since, from_ := c.stamp, retracted := ((r0.map Replay.retracted).getD []) ++ b.2
                        made := ((r0.map Replay.made).getD []).filter (fun m => m.1 < c.serial)
                        late := match r0 with | some r => min r.late late | none => late
                        queue := match r0 with | some r => r.queue | none => queue
                        left := works.length } }
  (s.setHold key (works ++ (s.holdOf key).filter (fun (w : Work) => !w.replays))).replayTick key

/-! ## Reconciliation (R279–R281) -/

/-- Identical item bytes 8–63, same queue, same flow (R279); a drive command names its light point. -/
def sameOutput (a b : PushRec) : Bool :=
  a.queue == b.queue && a.item.graph == b.item.graph && a.item.flow == b.item.flow && a.item.origin == b.item.origin &&
    a.item.body == b.item.body

/-- Pair pushes off: unmatched retracted, unmatched re-pushes, and the retracted ones of the pairs. -/
def pairOff (retracted made : List PushRec) : List PushRec × List PushRec × List PushRec :=
  retracted.foldl (fun acc p =>
    match acc.2.1.findIdx? (sameOutput p) with
    | some i => (acc.1, acc.2.1.eraseIdx i, acc.2.2 ++ [p])
    | none => (acc.1 ++ [p], acc.2.1, acc.2.2)) ([], made, [])

def driveOf (p : PushRec) : Option DriveCmd :=
  match p.item.body with
  | .drive c => if p.queue = 0x03 then some c else none
  | _ => none

/-- A corrective command (R281): the combined result at a launch of its own, later than every command sent to the point; a
rise where it raises the level above `was`, a fall where it lowers it. -/
def State.corrective (s : State) (graph flow : Nat) (p : Pid) (trigger : Ns) (was : Nat) : State :=
  let l := s.launchAt trigger
  let launch := max l.1 ((s.coverOf p).lastLaunch + 1)
  match s.command (s.promCmd p launch true) with
  | none => s
  | some up =>
    let s := if l.2 then (s.bump 0x40F2).promLoad 0 1 0 else s
    let c := if was < up.level then up else { s.promCmd p launch false with code := up.code, level := up.level }
    (s.bump 0x48F9).issue graph flow trigger { c with source := 4 }

/-- What a launch instant that is still to come ends with (R281): the re-push, or the combined result where there is none. A command
already issued there is revised in place if that changes it, and the revision is counted. -/
def State.settleLaunch (s : State) (graph flow : Nat) (late : Ns) (p : Pid) (new : List DriveCmd) (t : Ns) : State :=
  match new.find? (fun c => c.launch == t), s.liveAt p t with
  | some c, some o => if o.sameAs c then s else (s.revise graph flow late o c).bump 0x48F8
  | some c, none => (s.emit graph flow late c).1
  | none, some o =>
    match s.command o with
    | some c => if o.sameAs c then s else (s.revise graph flow late o c).bump 0x48F8
    | none => s
  | none, none => s

/-- What a point's retracted and re-pushed commands come to (R281). -/
def State.settlePoint (s : State) (graph flow : Nat) (late : Ns) (p : Pid) (old new : List DriveCmd) : State :=
  let launches := ((old ++ new).map (fun c => c.launch)).dedup
  let s := (launches.filter (fun t => decide (s.tb < t))).foldl (fun s t => s.settleLaunch graph flow late p new t) s
  let s := s.reviseLater graph flow late p
  if launches.any (fun t => decide (t ≤ s.tb)) then s.corrective graph flow p late (s.coverOf p).lastLevel else s

/-- A RETRACT record (Table 12.2). -/
def State.retractRecord (s : State) (graph flow : Nat) (stamp : Ns) (place : Pid) (type : Nat) (body : List Byte) : State :=
  s.histFrom graph flow
    { stamp := stamp, place := place, type := 0x0E,
      body := u8 type ++ u8 graph ++ u16 flow ++ u32 (crc32c body) ++ zeros 8 }

/-- The retracted item was served, and its flow keeps what it did (R280). -/
def State.keepEffect (s : State) : State := (s.bump 0x48FC).bsLoad 0 0 1 0

/-- A work of the flow that has not been served is taken out of its hold list. -/
def State.dropHeld (s : State) (key : Nat) (it : Item) : Option State :=
  let h := s.holdOf key
  match h.findIdx? (fun w => w.item.bare == it.bare) with
  | none => none
  | some i =>
    let s := s.setHold key (h.eraseIdx i)
    some (match (h[i]?).map Work.replays, tget s.bs.replays key with
      | some true, some r => { s with bs.replays := tput s.bs.replays key { r with left := r.left - 1 } }
      | _, _ => s)

/-- A retraction reaches the flow that was to consume the item (R280): one that was not served is dropped; otherwise the flow is rewound
as for a late item, once none of its items is in service. The second component tells that the flow keeps the item's effect. -/
def State.cascade (s : State) (p : PushRec) (late : Ns) : State × Bool :=
  let key := flowKey p.item
  if s.inService key then ({ s with bs.waiting := s.bs.waiting ++ [(p, late)] }, false)
  else match s.dropHeld key p.item with
    | some s => (s, false)
    | none =>
      match (s.logOf key).find? (fun l => l.item.bare == p.item.bare) with
      | none => (s.keepEffect, true)
      | some l =>
        if p.item.origin < s.horizon then (s.keepEffect, true)
        else match s.ckptBefore key l.serial with
          | none => (s.keepEffect, true)
          | some c =>
            if s.num 0x4821 < s.replayLength key c then (s.keepEffect, true)
            else (s.rewind key c [] [l.serial] late p.queue, false)

/-- A HANDOVER of the rewound past whose handover is not open now is withdrawn (Table 7.4, R209). -/
def State.withdraw (s : State) (m : Mac) (id : Nat) (late : Ns) : State :=
  if s.prom.tracks.any (fun e => e.2.sent.any (fun h => h.peer == m && h.id == id)) then s
  else s.peerSend m 0x40C2 id (u32 id ++ pidBytes s.ownPid ++ u8 2 ++ u8 0 ++ u64 (s.launchAt late).1)

/-- An unmatched push of the rewound past reaches its destination (Table 7.4). The flow it fed is added to `kept` where it keeps the
item's effect. `gone` are the handovers that the replay itself has withdrawn. -/
def State.retract (s : State) (graph flow : Nat) (late : Ns) (gone : List Nat) (kept : List Nat) (p : PushRec) : State × List Nat :=
  if 0x20 ≤ p.queue then
    if p.removed then (s, kept)
    else
      let r := s.cascade p late
      (r.1, if r.2 then flowKey p.item :: kept else kept)
  else match p.queue, p.item.body with
    | 0x06, .peer m 0x40C0 id _ => (if gone.contains id then s else s.withdraw m id late, kept)
    | 0x0A, .record h => (s.retractRecord graph flow h.stamp h.place h.type h.body, kept)
    | 0x0B, .raw b => (s.retractRecord graph flow p.item.origin s.ownPid 0 b, kept)
    | _, _ => (s, kept)

/-- An unmatched push that the replay has made reaches its destination (Table 7.4): a HANDOVER in the next update, a flow that keeps a
retracted item's effect as a straggler (R280). -/
def State.deliverAgain (s : State) (kept : List Nat) (p : PushRec) : State :=
  let key := flowKey p.item
  if 0x20 ≤ p.queue then
    if kept.contains key then s.setHold key (s.holdOf key ++ [{ Work.fresh p.item p.queue with context := 1 }])
    else s.put p.queue p.item
  else match p.queue, p.item.body with
    | 0x03, _ => s
    | 0x06, .peer _ 0x40C0 _ _ => s
    | 0x06, .peer _ _ _ payload => s.putPeer p.item payload
    | 0x0A, .record h => if h.type = 0x02 then s else s.put 0x0A p.item
    | 0x0B, _ => ((s.put 0x0B p.item).pop 0x0B).2
    | q, _ => s.put q p.item

/-- Reconciliation when a flow's replay completes (R279). -/
def State.reconcile (s : State) (key : Nat) (r : Replay) : State :=
  let graph := key / 65536
  let flow := key % 65536
  let m := pairOff r.retracted (r.made.map Prod.snd)
  let s := { s.bump 0x48F7 0 m.2.2.length with bs.replays := tdel s.bs.replays key }
  -- a matched item that the rewind took out of its queue goes back
  let s := (m.2.2.filter (fun p => p.removed)).foldl (fun s p => s.put p.queue p.item) s
  let gone := m.2.1.filterMap (fun p => match p.item.body with | .peer _ 0x40C2 id _ => some id | _ => none)
  let a := m.1.foldl (fun (acc : State × List Nat) p => State.retract acc.1 graph flow r.late gone acc.2 p) (s, [])
  let s := m.2.1.foldl (fun s p => s.deliverAgain a.2 p) a.1
  let olds := m.1.filterMap driveOf
  let news := m.2.1.filterMap driveOf
  (((olds ++ news).map (fun c => c.point)).dedup).foldl (fun s p =>
    s.settlePoint graph flow r.late p (olds.filter (fun c => c.point == p)) (news.filter (fun c => c.point == p))) s

/-- Reconcile every flow whose replay list is empty: a rewind that leaves nothing to replay completes at once. -/
def State.settleReplays (fuel : Nat) (s : State) : State :=
  match fuel with
  | 0 => s
  | fuel + 1 =>
    match s.bs.replays.find? (fun e => e.2.left == 0 && !s.inService e.1) with
    | some (key, r) => State.settleReplays fuel (s.reconcile key r)
    | none => s

/-- Rewinds that waited for an item in service take place (R271), and replays that are done are reconciled (R279). The graph's depth
bounds how far retractions reach (R240). -/
def State.afterServed (s : State) : State :=
  let due := s.bs.waiting.filter (fun e => !s.inService (flowKey e.1.item))
  let s := { s with bs.waiting := s.bs.waiting.filter (fun e => s.inService (flowKey e.1.item)) }
  (due.foldl (fun s e => (s.cascade e.1 e.2).1) s).settleReplays 65536

end Sys2Proof.Machine
end

