-- ==== Sys2Proof/Machine/Engines.lean ====
section
/-!
DEFINITION. The flow engines (R214–R238): dispatch with credit, completion, program faults, retired engines and alarms; and Backstep's
handling of each item at dispatch (Table 7.2).
-/

namespace Sys2Proof.Machine

/-! ## Engines -/

def State.engine (s : State) (e : Nat) : Engine := (s.fe.engines[e]?).getD .reset

def State.setEngine (s : State) (e : Nat) (x : Engine) : State := { s with fe.engines := lset s.fe.engines e x }

/-- ENGINE_STATE (Table 6.7). -/
def State.engineState (s : State) (e : Nat) : State :=
  let x := s.engine e
  s.raise 0x48E1 (1 + e / 4) (u8 e ++ u8 x.state ++ u16 0 ++ u32 x.retirements ++ u64 s.now)

/-! ## Credit (R221) -/

/-- Queues a work's node may push to, with the declared most pushes. -/
def State.limitsOf (s : State) (w : Work) : List (Nat × Nat) :=
  (s.slotOf w.item.graph).info.limits.filterMap (fun l => if l.1 = w.queue then some (l.2.1, l.2.2) else none)

def State.hasCredit (s : State) (w : Work) : Bool := s.rooms (s.limitsOf w)

/-! ## What is ready (R218, R222) -/

/-- Queues RUNNING graphs take items from, by priority (R222). -/
def State.graphQueues (s : State) : List Nat :=
  let sys := (List.range 12).filter (fun q => (s.consumer q).isSome)
  let own := (List.range 8).flatMap (fun g =>
    let x := s.slotOf g
    if x.state = .running then (List.range x.info.queues.length).map (fun i => x.firstQueue + i) else [])
  (List.range 4).reverse.flatMap (fun p => (sys ++ own).filter (fun q => s.num 0x4C84 q == p))

/-- The graph an item of a queue is served by. -/
def State.ownerOf (s : State) (q : Nat) (it : Item) : Item :=
  match s.consumer q with
  | some g => { it with graph := g }
  | none => it

/-- An item of the flow was pushed to another of these queues before this one (R218). -/
def State.hasOlder (s : State) (qs : List Nat) (q key order : Nat) : Bool :=
  qs.any (fun r => r != q && (s.queue r).items.any (fun it => flowKey (s.ownerOf r it) == key && it.order < order))

/-- The oldest item of a queue that is free to dispatch, with its place in the queue. -/
def State.ready (s : State) (qs : List Nat) (q : Nat) : Option (Nat × Work) :=
  ((s.queue q).items.zipIdx).findSome? (fun e =>
    let it := s.ownerOf q e.1
    let key := flowKey it
    let first := (((s.queue q).items.take e.2).all (fun b => flowKey (s.ownerOf q b) != key))
    if first && !s.inService key && (s.holdOf key).isEmpty && !s.hasOlder qs q key it.order then some (e.2, .fresh it q)
    else none)

/-- Heads of hold lists whose flow is free: works of replays, or others. -/
def State.heldReady (s : State) (replay : Bool) : List Work :=
  s.fe.hold.filterMap (fun e => match e.2 with
    | w :: _ => if !s.inService e.1 && w.replays == replay then some w else none
    | [] => none)

/-- A fresh work that can be dispatched: one that stands in a queue at a place, or one at the head of its flow's hold list. -/
structure Choice where
  place : Option Nat
  work : Work
  deriving DecidableEq, Repr

/-- Fresh works in the order in which R222 takes them: by queue, and within a queue the oldest first. -/
def State.choices (s : State) : List Choice :=
  let qs := s.graphQueues
  let held := (s.heldReady false).map (fun w => Choice.mk none w)
  let own (q : Nat) : List Choice :=
    ((s.ready qs q).map (fun r => Choice.mk (some r.1) r.2)).toList ++ held.filter (fun c => c.work.queue == q)
  qs.flatMap (fun q => sortBy (fun c => c.work.item.order) (own q)) ++
    sortBy (fun c => c.work.item.order) (held.filter (fun c => !qs.contains c.work.queue))

/-! ## Dispatch (R217–R222, Table 7.2) -/

/-- A flow becomes live at its first item; without a place the item is marked NO_STATE; a lost state marks it STATE_LOST
(R233–R235). -/
def State.enliven (s : State) (w : Work) : Work × State :=
  let key := flowKey w.item
  match tget s.fe.flows key with
  | some f => if f.lost then ({ w with mark := w.mark ||| 2 }, s.onFlow key (fun f => { f with lost := false })) else (w, s)
  | none =>
    if s.liveFlows w.item.graph < (s.slotOf w.item.graph).info.flows then
      (w, { s with fe.flows := tput s.fe.flows key .zero })
    else ({ w with mark := w.mark ||| 1 }, s.bump 0x48F1)

/-- The context a program reads while a work is served (Table 7.3). -/
def Work.contextBytes (w : Work) : List Byte :=
  u64 w.item.origin ++ u8 (match w.pass with | .first => 0 | .replayed => 1 | .late => 2 | .tick => 3) ++ u8 w.context ++
    u8 w.ckpts ++ u8 0 ++ u32 w.behind

/-- An engine begins an item: what its scratch memory holds is a free value (R215). -/
def State.beginItem (s : State) (e : Nat) (x : Engine) (w : Work) : State :=
  { s with free := s.free + 1 }.setEngine e { x with cur := some w, scratch := s.free, old := none }

/-- The work as an engine is given it: its context (Table 7.3), the room reserved for its pushes (R221), and its number among the
services of ORDERED items. -/
def State.seated (s : State) (w : Work) : Work :=
  let key := flowKey w.item
  let nf := s.newest key
  { w with behind := if w.item.origin < nf then min ((nf - w.item.origin) / ms) 0xFFFFFFFF else 0
           ckpts := ((s.ckptsOf key).filter (fun c => !c.lost)).length
           serial := if w.serial = 0 then s.bs.serial + 1 else w.serial
           room := s.limitsOf w, standard := s.standardFlow key
           firstAt := some (w.firstAt.getD s.tb) }

/-- Put a work on an engine, in service or in its prefetch slot (R219). -/
def State.seat (s : State) (e : Nat) (w : Work) : State :=
  let w' := s.seated w
  let s := { s with bs.serial := max s.bs.serial w'.serial }
  let x := s.engine e
  if x.cur.isNone then s.beginItem e x w' else s.setEngine e { x with next := some w' }

/-- An in-order item of an ORDERED flow takes a checkpoint first (R263). -/
def State.inOrder (s : State) (e : Nat) (w : Work) : State :=
  (s.checkpoint (flowKey w.item) w.item.origin (s.bs.serial + 1)).seat e w

/-- A work of a replay is dispatched: in order, with a checkpoint (R272). A straggler is served where it was before (R270), and a work
that an engine gave back is served as it stands. -/
def State.seatReplay (s : State) (e : Nat) (w0 : Work) : State :=
  let r := s.enliven w0
  let w := r.1
  if w.context = 0 ∧ w.serial = 0 ∧ r.2.newest (flowKey w.item) ≤ w.item.origin then r.2.inOrder e w else r.2.seat e w

/-- The head of a flow's hold list leaves it. -/
def State.seatFirst (s : State) (e key : Nat) : State :=
  match s.holdOf key with
  | w :: rest => (s.setHold key rest).seatReplay e w
  | [] => s

/-- An item of an ORDERED flow meets it (Table 7.2): a rewind is followed by the first item of its replay. -/
def State.meet (s : State) (e : Nat) (w0 : Work) : State :=
  let r := s.enliven w0
  let w := r.1
  let s := r.2
  let key := flowKey w.item
  if !s.ordered key ∨ w.serial ≠ 0 ∨ w.context ≠ 0 then s.seat e w
  else
    let m := s.meeting key w.item.origin
    match m with
    | .inOrder => s.inOrder e w
    | .late c => (s.rewind key c [{ w with pass := .late }] [] w.item.origin w.queue).seatFirst e key
    | _ => (s.countMeeting w.item.graph m).seat e { w with context := m.flags }

/-- Dispatch the head of a flow's hold list. A late item that joined a replay meets its flow anew. -/
def State.seatHeld (s : State) (e key : Nat) : State :=
  match s.holdOf key with
  | w :: rest =>
    if w.pass = .first ∨ w.pass = .late then (s.setHold key rest).meet e w else s.seatFirst e key
  | [] => s

/-- The newest stamp of a replay's works. -/
def State.replayNewest (s : State) (key : Nat) : Ns :=
  maxOf (s.newest key :: ((s.holdOf key).filter Work.replays).map (fun w => w.item.origin))

/-- A late item of a flow whose replay is in progress joins it; where its stamp lies before the checkpoint of the replay and items
later than it have been replayed, it stops the replay for a longer one (R275), once no item of the flow is in service. One that may not
is served after the replay (R278; log entry 90). -/
def State.joinReplay (s : State) (key : Nat) (r : Replay) (q i : Nat) (it : Item) : State :=
  let w : Work := { Work.fresh it q with pass := .late }
  if r.from_ ≤ it.origin ∨ (s.firstLater key it.origin).isNone then (s.take q i).joinWork key r w
  else if s.inService key then s
  else
    let s := s.take q i
    let m := s.meeting key it.origin
    match m with
    | .late c => s.rewind key c [w] [] it.origin q
    | _ => (s.countMeeting it.graph m).setHold key (s.holdOf key ++ [{ Work.fresh it q with context := m.flags }])

/-- Late items that have arrived for flows in replay are taken into their replays. -/
def State.joinReplays (s : State) : State :=
  s.bs.replays.foldl (fun s e =>
    s.graphQueues.foldl (fun s q =>
      (s.queue q).items.foldl (fun s it0 =>
        let it := s.ownerOf q it0
        match (s.queue q).items.findIdx? (fun x => x == it0), tget s.bs.replays e.1 with
        | some i, some r =>
          if flowKey it = e.1 ∧ it.origin ≠ 0 ∧ s.horizon ≤ it.origin ∧ it.origin < s.replayNewest e.1 then s.joinReplay e.1 r q i it
          else s
        | _, _ => s) s) s) s

/-- Dispatches since the last of a replay, per Quadrille (Table 1.6). -/
def State.countDispatch (s : State) (e : Nat) (replay forced missed : Bool) : State :=
  { s with fe.sinceReplay := lmod s.fe.sinceReplay (e / 4) (fun n => if replay then 0 else n + 1)
           fe.forced := if forced then s.fe.forced + 1 else s.fe.forced
           fe.missed := if missed then s.fe.missed + 1 else s.fe.missed }

/-- Dispatch a fresh work. -/
def State.dispatchFresh (s : State) (e : Nat) (c : Choice) : State :=
  match c.place with
  | some i => ((s.take c.work.queue i).meet e c.work).refill
  | none => s.seatHeld e (flowKey c.work.item)

/-- The scheduler gives an engine its next item (R222): where three fresh works have gone before a waiting replay, the replay goes first
(R34); a floor that no replay has the credit for is missed and counted (R35). -/
def State.dispatch (s : State) (e : Nat) : State :=
  let x := s.engine e
  if x.state ≠ 0 ∨ x.next.isSome ∨ 16 ≤ e then s
  else
    let s := s.joinReplays
    let fresh := s.choices
    let waiting := s.heldReady true
    let force := !waiting.isEmpty && decide (3 ≤ (s.fe.sinceReplay[e / 4]?).getD 0)
    let replay := waiting.find? s.hasCredit
    let pick := fresh.find? (fun c => s.hasCredit c.work)
    let s := match fresh with
      | c :: _ => if s.hasCredit c.work then s else (s.bump 0x48F4).perfEdge 0x0004 c.work.item.graph 1
      | [] => s
    match replay, pick with
    | some w, some c =>
      if force then (s.seatHeld e (flowKey w.item)).countDispatch e true true false
      else (s.dispatchFresh e c).countDispatch e false false false
    | some w, none => (s.seatHeld e (flowKey w.item)).countDispatch e true false false
    | none, some c => (s.dispatchFresh e c).countDispatch e false false force
    | none, none => s

/-- ITEM_DISPATCH (R222, R269): memory errors the access meets, then the dispatch. -/
def execItemDispatch (dt : Ns) (engine : Nat) (errors : List CellError) (s : State) :
    Host.Outcome State Fault Refusal :=
  event dt (fun s => (s.cellErrors errors).dispatch engine) s

/-! ## Stopping a graph (R244) -/

/-- Graph state codes (Table 6.8). -/
def SlotState.code : SlotState → Nat
  | .empty => 0
  | .loaded => 1
  | .armed => 2
  | .running => 3
  | .suspended => 4

def State.setSlot (s : State) (g : Nat) (x : GraphSlot) : State := { s with fe.slots := lset s.fe.slots g x }

/-- GRAPH_STATE (Table 6.7). -/
def State.graphState (s : State) (g : Nat) (old new : SlotState) (cause : Nat) : State :=
  s.raise 0x48E0 0xFF (u8 g ++ u8 old.code ++ u8 new.code ++ u8 cause ++ u32 (s.slotOf g).info.imageId ++ u64 s.now)

/-- A slot enters a state, and it is told. -/
def State.enterSlot (s : State) (g : Nat) (new : SlotState) (cause : Nat) : State :=
  let x := s.slotOf g
  (s.setSlot g { x with state := new, change := none }).graphState g x.state new cause

def graphKey (g : Nat) (k : Nat) : Bool := k / 65536 == g

/-- System input queues of graphs (Table 6.2). -/
def inputQueues : List Nat := [0x00, 0x01, 0x02, 0x05, 0x07, 0x08, 0x09]

/-- The control core takes what stands in the system input queues that no RUNNING graph consumes: it computes the plan changes itself
(R247), and discards the rest, whose records it has written (R226). -/
def State.coreConsumes (s : State) : State :=
  (inputQueues.filter (fun q => (s.consumer q).isNone)).foldl (fun s q =>
    let its := (s.queue q).items
    (its.foldl (fun s _ => (s.pop q).2) s).coreTakes (its.filterMap planOf)) s

/-- What Promenade keeps of a flow goes: an open handover of its track is withdrawn (R209). -/
def State.freeStandard (s : State) (key : Nat) : State :=
  let n := key % 65536
  if isTrackFlow n then
    let s := s.cancelAll (((s.trackOf n).map (fun t => t.sent)).getD []) 2 s.tb
    { s with prom.tracks := tdel s.prom.tracks n }
  else if isPointFlow n then
    { s with prom.cover := tmap s.prom.cover (n - pointFlow0) (fun c =>
        { PointCover.none_ with lastLaunch := c.lastLaunch, lastLevel := c.lastLevel, moved := c.moved }) }
  else s

/-- What a graph holds in flows, hold lists, queues and the Backstep store is freed (R244, R290): its queues are counted as they are
emptied. Flows with an item in service are freed when it completes; after a swap `heir`'s flow of the same number waits for that. -/
def State.freeGraph (s : State) (g : Nat) (heir : Option Nat) : State :=
  let x := s.slotOf g
  let std := s.consumer 0x00 == some g
  let own := (List.range x.info.queues.length).map (fun i => x.firstQueue + i)
  let s := { s with fe.emptied := s.fe.emptied + sumOf (own.map s.depth) }
  let s := own.foldl (fun s q => s.setQueue q { s.queue q with items := [] }) s
  let gone (k : Nat) : Bool := graphKey g k && !s.inService k
  let leave (w : Work) : Work := if w.item.graph = g then { w with freed := true, heir := heir } else w
  let s' := { s with
    fe.flows := s.fe.flows.filter (fun e => !gone e.1)
    fe.hold := s.fe.hold.filter (fun e => !graphKey g e.1)
    fe.engines := s.fe.engines.map (fun e => { e with cur := e.cur.map leave, next := e.next.map leave })
    bs.ckpts := s.bs.ckpts.filter (fun e => !graphKey g e.1)
    bs.log := s.bs.log.filter (fun e => !graphKey g e.1)
    bs.newest := s.bs.newest.filter (fun e => !graphKey g e.1)
    bs.replays := s.bs.replays.filter (fun e => !graphKey g e.1)
    bs.waiting := s.bs.waiting.filter (fun e => e.1.item.graph != g) }
  if std then
    let keys := s.prom.tracks.map (fun e => g * 65536 + e.1) ++ s.prom.cover.map (fun e => g * 65536 + pointFlow0 + e.1)
    { (keys.filter gone).foldl State.freeStandard s' with prom.loose := [] }
  else s'

/-- A graph stops at its boundary: its work is freed, the points take what R247 gives them. -/
def State.stopGraph (s : State) (g : Nat) (new : SlotState) (cause : Nat) : State :=
  let s := ((s.freeGraph g none).enterSlot g new cause).coreConsumes
  s.relaunchSoon s.points 0

/-! ## Program faults (R223, R238) -/

/-- The slot of the graph whose code serves a work: the one it was dispatched from, also after a swap (R243). -/
def Work.code (w : Work) : Nat :=
  match w.moved with
  | some m => (m.1 - 0x20) / 28
  | none => w.item.graph

/-- A fault of a graph is counted and recorded, and suspends the graph when there are too many. -/
def State.graphFault (s : State) (e : Nat) (w : Work) (cause node : Nat) : State :=
  let g := w.code
  let x := s.slotOf g
  let s := s.bump 0x4882 g
  let s := if x.lastFaultRecord = some s.second then s
    else s.record 0x4801 0xFF (u8 g ++ u8 cause ++ u8 e ++ u8 0 ++ u16 w.item.flow ++ u16 node ++ u32 x.info.imageId)
  let ts := (x.faultTimes.filter (fun t => s.clk.mono < t + 60 * sec)) ++ [s.clk.mono]
  let s := s.setSlot g { x with faultTimes := ts, lastFaultRecord := some s.second }
  if s.num 0x4802 < ts.length ∧ x.state = .running then s.stopGraph g .suspended 2 else s

/-- A replay has one work less to serve. -/
def State.replayServed (s : State) (w : Work) (made : List PushRec) : State :=
  let key := flowKey w.item
  match w.pass, tget s.bs.replays key with
  | .first, _ => s
  | _, none => s
  | _, some r =>
    let r := { r with left := r.left - 1, made := r.made ++ made.map (fun p => (w.serial, p)) }
    let s := { s with bs.replays := tput s.bs.replays key r }
    if w.pass = .late then s else (s.bump 0x48F6).perfEdge 0x0020 w.item.graph 1

/-- The engine turns to its prefetched item (R219). -/
def State.freeEngine (s : State) (e : Nat) : State :=
  let x := s.engine e
  let y := { x with cur := none, next := none, old := none }
  match x.next with
  | some w => s.beginItem e y w
  | none => s.setEngine e y

/-- A flow whose graph has stopped is freed when its last item is done (R244). -/
def State.freeFlow (s : State) (w : Work) : State :=
  let key := flowKey w.item
  let s := { s with fe.flows := tdel s.fe.flows key }
  if w.standard then s.freeStandard key else s

/-- A program fault: the item has no effect (R220). -/
def State.programFault (s : State) (e : Nat) (w : Work) (cause node : Nat) : State :=
  let s := (s.freeEngine e).graphFault e w cause node
  (if w.freed then s.freeFlow w else s.replayServed w []).afterServed

/-! ## Completion (R220) -/

/-- What the standard program does with an item, by its flow and content (log entry 6). -/
def State.program (s : State) (w : Work) : State × List PushRec :=
  let it := w.item
  match it.body with
  | .plan c => s.emit it.graph it.flow it.origin c
  | .cover p opens n at_ =>
    if opens then s.openPoint it.graph it.flow it.origin p n at_ else s.closePoint it.graph it.flow it.origin p n at_
  | .detect d _ =>
    if isTrackFlow it.flow then s.detectOnTrack it.flow d (w.context != 0)
    else match s.detectedAt d with
      | some (sect, q) => s.openTrack d sect q
      | none => (s, [])
  | .birth d => match s.detectedAt d with
    | some (sect, q) => s.bear it.flow d sect q
    | none => (s, [])
  | .peer m op id p =>
    if op = 0x40C0 then s.shadowUpdate it.flow it.origin m p
    else if op = 0x40C1 then s.handedOver it.flow it.origin m id
    else if op = 0x40C2 then s.shadowCancel it.flow m p
    else (s, [])
  | .raw _ => if isTick it then s.tick it.flow it.origin else (s, [])
  | _ => (s, [])

/-- The standard program serves an item at the present time base, or in a replay at the instant the logged item was first served
(R274), with the parameters `old` where a commit came while it was in service (R95); what it pushes in a replay is gathered. -/
def State.runProgram (s : State) (old : Option (Table PVal)) (w : Work) : State × List PushRec :=
  if !w.standard then (s, [])
  else
    let t := s.clk.timeBase
    let at_ := if w.pass = .replayed then w.firstAt.getD t else t
    let r := { s with clk.timeBase := at_, par.vals := old.getD s.par.vals, bs.replaying := w.replays,
                      bs.serving := some (w.item.graph, w.item.flow, w.item.origin), bs.gathered := [] }.program w
    ({ r.1 with clk.timeBase := t, par.vals := s.par.vals, bs.replaying := false, bs.serving := none, bs.gathered := [] },
      r.2 ++ r.1.bs.gathered)

/-- The item a program's push makes (R260): bytes 8–15 are the origin stamp. Records and drive commands are read from the
payload, a drive command as PID48, reserved u16 and the entry of Table 8.12, a peer message as MAC address, opcode and handover ID before
its payload (log entry 6). After a swap the queues of the graph that handed over are those of the graph that has them now (R245). -/
def pushItem (w : Work) (p : Push) : Item :=
  let b := p.payload.drop 8
  let body : Body :=
    if p.queue = 0x0A then
      .record { stamp := fld b 0 8, place := pidAt b 8, type := fld b 14 1,
                body := slice b 16 (min 32 (16 * (fld b 15 1 % 16))) }
    else if p.queue = 0x03 then
      .drive { point := pidAt b 0, launch := fld b 8 8,
               code := { cur0 := fld b 16 2, duty0 := fld b 18 2, cur1 := fld b 20 2, duty1 := fld b 22 2 },
               fade := fld b 24 2, tol := fld b 26 2, shape := fld b 28 1 % 2, source := 1, class_ := 0, level := 0 }
    else if p.queue = 0x06 then .peer (macAt b 0) (fld b 6 2) (fld b 8 4) (b.drop 12)
    else .raw b
  { flow := p.flow, graph := if 0x20 ≤ p.queue then w.item.graph else 0xFF, flags := 0, enq := 0,
    origin := w.item.origin, body := body }

/-- Append to the newest record among pushes. -/
def growRecord (more : List Byte) : List PushRec → List PushRec
  | [] => []
  | p :: rest => match p.item.body with
    | .record h => { p with item := { p.item with body := .record { h with body := h.body ++ more } } } :: rest
    | _ => p :: growRecord more rest

/-- One push more: a record longer than an item goes on in the flow's next push to queue 0x0A. The pushes are gathered newest
first, with the flow and the bytes of the record that are still to come. -/
def gatherPush (w : Work) (acc : List PushRec × Nat × Nat) (p : Push) : List PushRec × Nat × Nat :=
  if p.queue ≠ 0x0A then ({ queue := p.queue, item := pushItem w p } :: acc.1, acc.2)
  else if 0 < acc.2.2 ∧ acc.2.1 = p.flow then
    let b := (p.payload.drop 8).take acc.2.2
    ({ queue := p.queue, item := { pushItem w p with body := .raw (p.payload.drop 8) } } :: growRecord b acc.1,
      acc.2.1, acc.2.2 - 48)
  else
    ({ queue := p.queue, item := pushItem w p } :: acc.1, p.flow, 16 * (fld p.payload 23 1 % 16) - 32)

/-- The items a program's pushes make, in order. -/
def pushRecs (w : Work) (ps : List Push) : List PushRec := (ps.foldl (gatherPush w) (([] : List PushRec), 0, 0)).1.reverse

/-- Queues a graph may push to: its own, and the system queues its image produces (R237). -/
def State.mayPush (s : State) (g q : Nat) : Bool :=
  let x := s.slotOf g
  (q < 16 && hasBit x.info.produces q) || (x.firstQueue ≤ q && q < x.firstQueue + x.info.queues.length)

/-- The fault a program's outcome shows, if it does (R223, R238, R499): an operation too many, an access R237 does not list, or more
pushes than declared, a queue its node does not declare having none. -/
def State.outcomeFault (s : State) (w : Work) (o : ItemOutcome) : Option Nat :=
  let x := s.slotOf w.code
  let home (q : Nat) : Bool := x.firstQueue ≤ q && q < x.firstQueue + x.info.queues.length
  let now_ (q : Nat) : Nat := match w.moved with | some m => if home q then q - m.1 + m.2.2 else q | none => q
  let most (q : Nat) : Nat := sumOf ((w.room.filter (fun l => l.1 == now_ q)).map Prod.snd)
  if s.num 0x4801 < o.ops then some 2
  else if o.badAccess || o.pushes.any (fun p => !s.mayPush w.code p.queue) || o.perfReads.any (fun c => !s.flag 0x8483 c) ||
      o.pops.any (fun q => !home q) then some 1
  else if 16 < o.pushes.length || o.pushes.any (fun p => most p.queue < (o.pushes.filter (fun x => x.queue == p.queue)).length) then
    some 3
  else none

/-- What a work pushes goes to the queues of the graph that has them now; a stopped graph's own queues are gone, and what would have
gone there is counted as emptied (R244, R245). -/
def State.redirect (s : State) (w : Work) (p : PushRec) : Option PushRec :=
  let x := s.slotOf w.code
  let home := x.firstQueue ≤ p.queue ∧ p.queue < x.firstQueue + 28
  if home ∧ w.freed then none
  else match w.moved with
    | some m => if home then some { p with queue := p.queue - m.1 + m.2.2 } else some p
    | none => some p

/-- The flow's state, alarm and life after a served item (R220, R233). The standard graph sets a track flow's alarm to what its track
does next, and ends a flow that keeps nothing (log entry 6). -/
def State.leaveFlow (s : State) (w : Work) (o : ItemOutcome) : State :=
  let key := flowKey w.item
  let n := w.item.flow
  let alarm := if w.standard ∧ isTrackFlow n then (s.trackOf n).map s.trackAlarm else none
  let s := s.onFlow key (fun f =>
    { f with bytes := match o.state with | some b => fit 64 b | none => f.bytes
             alarm := if w.standard ∧ isTrackFlow n then alarm else match o.alarm with | some t => some t | none => f.alarm })
  if o.endFlow || (w.standard && ((isTrackFlow n && (s.trackOf n).isNone) || isArrivalFlow n)) then
    { s with fe.flows := tdel s.fe.flows key } else s

/-- The log entry of a served item of an ORDERED flow, and n_f (R263, R264, R270). What the log has no entries left for is served all the
same (R284), and cannot be replayed. -/
def State.logServed (s : State) (w : Work) (pushes : List PushRec) : State :=
  let key := flowKey w.item
  if !s.ordered key then s
  else
    let nf := s.newest key
    let s := if s.logFree ≤ pushes.length then s.commitEarly else s
    let l : LogEntry := { stamp := if w.context = 0 then w.item.origin else nf, serial := w.serial, context := w.context
                          lost := s.logFree ≤ pushes.length, item := w.item, queue := w.queue
                          firstAt := w.firstAt.getD s.tb, pushes := pushes }
    { s.setLog key (s.logOf key ++ [l]) with
      bs.newest := if w.context = 0 then cput s.bs.newest key (max nf w.item.origin) else s.bs.newest }.commitEarly

/-- The pushes and pops of a program take effect together (R220): on a queue it both pushes to and pops, in the order of R252. In a
replay the pushes are gathered. The control core takes its own queue at once. -/
def State.pushAll (s : State) (e : Nat) (w : Work) (ps : List PushRec) (pops : List Nat) : State :=
  let ps := if w.replays then [] else ps
  let req (p : Option Item) : QueueReq := { unit := 1 + e / 4, engine := e % 4, push := p }
  let s := pops.dedup.foldl (fun s q => s.arbitrate q
    ((ps.filter (fun p => p.queue == q)).map (fun p => req (some p.item)) ++ (pops.filter (fun x => x == q)).map (fun _ => req none))) s
  (ps.filter (fun p => !pops.contains p.queue)).foldl (fun s p =>
    let s := s.put p.queue p.item
    if p.queue = 0x0B then (s.pop 0x0B).2 else s) s

/-- An item completes on an engine. -/
def State.complete (s : State) (e : Nat) (o : ItemOutcome) : State :=
  match (s.engine e).cur with
  | none => s
  | some w =>
    match s.outcomeFault w o with
    | some cause => s.programFault e w cause o.node
    | none =>
      let key := flowKey w.item
      let old := (s.engine e).old
      let s := (s.cellErrors o.errors).freeEngine e
      let x := s.engine e
      let s := s.setEngine e { x with items := (x.items + 1) % pow32 }
      let s := (s.perfEdge 0x0001 e o.ops).perfEdge 0x0002 e 1
      let q := s.queue w.queue
      let s := s.setQueue w.queue { q with ops := lastN 1024 (q.ops ++ [o.ops]) }
      let r := s.runProgram old w
      let own := pushRecs w o.pushes
      let sent := own.filterMap (r.1.redirect w)
      let s := { r.1 with fe.emptied := r.1.fe.emptied + (own.length - sent.length) }
      let s := (s.pushAll e w sent (o.pops.filterMap (fun q => (s.redirect w { queue := q, item := .zero }).map (fun p => p.queue)))).leaveFlow w o
      let s := if w.freed then s.freeFlow w
        else ((s.logServed w (r.2 ++ sent)).replayServed w (r.2 ++ sent)).replayTick key
      s.afterServed.flushPeers

/-- ITEM_COMPLETE (R220). -/
def execItemComplete (dt : Ns) (engine : Nat) (o : ItemOutcome) (s : State) : Host.Outcome State Fault Refusal :=
  event dt (fun s => s.complete engine o) s

/-- ITEM_OPS_LIMIT (R223). -/
def execItemOpsLimit (dt : Ns) (engine : Nat) (node : Nat) (s : State) : Host.Outcome State Fault Refusal :=
  event dt (fun s => match (s.engine engine).cur with
    | some w => s.programFault engine w 2 node
    | none => s) s

/-! ## Retiring engines (R228–R232) -/

/-- The works of a retired engine go back to their flows; one in service at two retirements is discarded (R229, R230). The
second component tells that it was. -/
def State.giveBack (s : State) (e : Nat) : State × Bool :=
  let x := s.engine e
  let s := s.setEngine e { x with cur := none, next := none, old := none }
  let s := match x.next with
    | some w => s.setHold (flowKey w.item) (w :: s.holdOf (flowKey w.item))
    | none => s
  match x.cur with
  | none => (s, false)
  | some w =>
    if w.retiredOnce then ((s.graphFault e w 0 0).replayServed w [] |>.afterServed, true)
    else (s.setHold (flowKey w.item) ({ w with retiredOnce := true } :: s.holdOf (flowKey w.item)), false)

/-- An engine retires; the third time within 24 h it stays so until a power-on reset (R228, R232). -/
def State.retire (s : State) (e kind : Nat) : State × Bool :=
  let x := s.engine e
  let ts := (x.times.filter (fun t => s.clk.mono < t + 86400 * sec)) ++ [s.clk.mono]
  let s := s.setEngine e { x with state := if 3 ≤ ts.length then 4 else kind, times := ts,
                                  retirements := (x.retirements + 1) % pow32 }
  let r := s.giveBack e
  ((r.1.bump 0x48F0).engineState e, r.2)

/-- A retired engine returns to service. -/
def State.reinstate (s : State) (e : Nat) : State := (s.setEngine e { s.engine e with state := 0 }).engineState e

/-- All engines retired: the rules of R247 apply from now on. -/
def State.afterRetire (s : State) : State := if s.enginesLive = 0 then s.relaunchSoon s.points 0 else s

/-- ENGINE_STALL (R228, R230): where the item stalls a second engine, that engine is retested at once. -/
def execEngineStall (dt : Ns) (engine : Nat) (retestPasses : Bool) (s : State) : Host.Outcome State Fault Refusal :=
  event dt (fun s =>
    if 16 ≤ engine ∨ (s.engine engine).state ≠ 0 then s
    else
      let r := s.retire engine 1
      -- the retirement is told before the retest ends it (R39, R40)
      (if r.2 ∧ retestPasses ∧ (r.1.engine engine).state ≠ 4 then r.1.settle.reinstate engine else r.1).afterRetire) s

/-- ENGINE_MEMORY_ERROR (R228). -/
def execEngineMemoryError (dt : Ns) (engine : Nat) (s : State) : Host.Outcome State Fault Refusal :=
  event dt (fun s =>
    if 16 ≤ engine ∨ (s.engine engine).state ≠ 0 then s else (s.retire engine 2).1.afterRetire) s

/-- ENGINE_RETEST (R232): 60 s after the retirement. -/
def execEngineRetest (dt : Ns) (engine : Nat) (passes : Bool) (s : State) : Host.Outcome State Fault Refusal :=
  event dt (fun s =>
    let x := s.engine engine
    if s.flag 0x4803 && (x.state == 1 || x.state == 2) && decide (maxOf x.times + 60 * sec ≤ s.clk.mono) && passes then
      s.reinstate engine
    else s) s

/-- An uncorrectable error in a flow's state zeros it (R235). What the standard graph keeps of it goes with it: a track ends (log entry
91). -/
def State.loseState (s : State) (key : Nat) : State :=
  match tget s.fe.flows key with
  | none => s
  | some _ =>
    let std := s.standardFlow key
    let s := ((s.onFlow key (fun f => { f with bytes := zeros 64, lost := true })).bump 0x48F2).record 0x4802 0xFF
      (u8 (key / 65536) ++ u8 0 ++ u16 (key % 65536))
    if !std then s
    else if isTrackFlow (key % 65536) then s.cutTrack (key % 65536) 2
    else s.freeStandard key

/-- An uncorrectable error in the Backstep store frees the record or entry, and is recorded (R285). -/
def State.loseRecord (s : State) (key kind : Nat) : State := s.record 0x4803 0xFF (u8 kind ++ u8 (key / 65536) ++ u16 (key % 65536))

/-- FLOW_STATE_ERROR (R235, R285). -/
def execFlowStateError (dt : Ns) (graph flow : Nat) (error : FlowError) (s : State) :
    Host.Outcome State Fault Refusal :=
  event dt (fun s =>
    let key := graph * 65536 + flow
    if error.corrected then s.bump 0x48F3
    else match error.memory with
      | .state => s.loseState key
      | .checkpoint n =>
        let l := s.ckptsOf key
        if n < l.length then (s.setCkpts key (lmod l n (fun c => { c with lost := true }))).loseRecord key 1 else s
      | .logEntry n =>
        let l := s.logOf key
        if n < l.length then (s.setLog key (lmod l n (fun x => { x with lost := true }))).loseRecord key 2 else s) s

/-! ## Alarms (R224, R238) -/

/-- A flow's alarm that has come is pushed as a tick item: it waits while queue 0x08 has no room, and a flow has at most one. -/
def State.pushTick (s : State) (graph flow : Nat) : State :=
  let key := graph * 65536 + flow
  match (s.flowState key).alarm with
  | none => s
  | some t =>
    if s.tb < t ∨ !s.room 0x08 1 ∨ (s.queue 0x08).items.any (fun it => flowKey it == key) ∨ (s.slotOf graph).state ≠ .running then s
    else (s.onFlow key (fun f => { f with alarm := none })).put 0x08 (tickWork key t).item

/-- ALARM_DUE (R224, R238). -/
def execAlarmDue (dt : Ns) (graph flow : Nat) (s : State) : Host.Outcome State Fault Refusal :=
  event dt (fun s => s.pushTick graph flow) s

/-- A track's alarm is served as an item of its flow (R191): it meets the flow as Table 7.2 says, with checkpoint, log and all. A late
one is left to the replay it begins. -/
def State.serveTick (s : State) (n : Nat) (t : Ns) : State :=
  match s.consumer 0x00 with
  | none => (s.tick n t).1
  | some g =>
    let key := g * 65536 + n
    if s.inService key ∨ !(s.holdOf key).isEmpty then s
    else
      let r := s.enliven { tickWork key t with pass := .first }
      let s := r.2
      let m := s.meeting key t
      match m with
      | .late c => (s.rewind key c [{ r.1 with pass := .late }] [] t 0x08).afterServed
      | _ =>
        let s := if m = .inOrder then s.checkpoint key t (s.bs.serial + 1) else s.countMeeting g m
        let w := s.seated { r.1 with context := m.flags }
        let p := { s with bs.serial := w.serial }.runProgram none w
        ((p.1.leaveFlow w { state := none, endFlow := false, pushes := [], pops := [], alarm := none, ops := 0, perfReads := []
                            badAccess := false, node := 0, errors := [] }).logServed w p.2).afterServed

/-- QUEUE_LEVEL_SECOND_END (R250). -/
def execQueueLevelSecondEnd (dt : Ns) (queue : Nat) (s : State) : Host.Outcome State Fault Refusal :=
  event dt (fun s =>
    let x := s.queue queue
    if x.later ∧ x.second ≤ s.second then (s.setQueue queue { x with later := false }).queueLevel queue else s) s

/-- PACE_LOWER_STEP (R31): one step of 10 mV at most every millisecond, where no deadline is then missed. -/
def execPaceLowerStep (dt : Ns) (s : State) : Host.Outcome State Fault Refusal :=
  event dt (fun s =>
    let mv := s.fe.fabricMv
    if 510 ≤ mv ∧ s.fe.lastLower + ms ≤ s.clk.mono ∧ s.meets (mv - 10) then
      { s with fe.fabricMv := mv - 10, fe.lastLower := s.clk.mono }
    else s) s

/-- REVISE_MISSED (R282). -/
def execReviseMissed (dt : Ns) (point : Pid) (launch : Ns) (s : State) : Host.Outcome State Fault Refusal :=
  event dt (fun s =>
    match s.bs.revisions.find? (fun r => r.point == point && r.launch == launch) with
    | some r =>
      if r.tol ≠ 0xFFFF ∧ launch + r.tol * ms < s.tb then
        let s := { s.bump 0x48FF with bs.revisions := s.bs.revisions.filter (fun x => x != r) }
        s.corrective 0xFF 0 point r.late r.level
      else s
    | none => s) s

end Sys2Proof.Machine
end

