-- ==== Sys2Proof/Machine/Graphs.lean ====
section
/-!
DEFINITION. The commands of groups 0x48 and 0x4C (Tables 6.7 and 7.6), and the dispatch boundary (R239–R246).
-/

namespace Sys2Proof.Machine

/-! ## Image headers (Table 15.2) -/

def Image.kind (i : Image) : Nat := fld i.header 5 1
def Image.id (i : Image) : Nat := fld i.header 8 4
def Image.build (i : Image) : Nat := fld i.header 16 4
def Image.length (i : Image) : Nat := fld i.header 20 4
def Image.digest (i : Image) : List Byte := slice i.header 48 32

/-- A held image by its ID. -/
def State.imageOf (s : State) (id : Nat) : Option Image := s.up.images.find? (fun i => i.id == id && i.accepted)

/-! ## Graph images (R240, Table 6.3) -/

/-- A queue number of an image in slot `g`: internal queues are numbered from 0x20 in the image. -/
def slotQueue (g q : Nat) : Nat := if q < 0x20 then q else 0x20 + 28 * g + (q - 0x20)

/-- What the module reads from an image loaded to slot `g` (log entry 8). -/
def graphInfo (g : Nat) (i : Image) : Option GraphInfo :=
  (Config.graph i.payload).map (fun (nodes, flows, code, consumes, produces, layout, queues, edges, limits, ordered) =>
    { imageId := i.id, version := i.build, layout := layout, nodes := nodes, flows := flows, codeBytes := code,
      consumes := consumes % 65536, produces := produces % 65536,
      queues := queues.map (fun (c, r, d, p) => { capacity := c, reserve := r, deadline := d, priority := p }),
      edges := edges.map (fun (a, b) => (slotQueue g a, slotQueue g b)),
      limits := limits.map (fun (a, b, n) => (slotQueue g a, slotQueue g b, n)), ordered := ordered })

/-- Internal queues that lead back into themselves: some walk is longer than the queues are many. -/
def cyclic (edges : List (Nat × Nat)) (n : Nat) : Bool :=
  !((List.range (n + 1)).foldl (fun (at_ : List Nat) _ =>
    ((edges.filter (fun e => at_.contains e.1)).map Prod.snd).dedup) (edges.map Prod.fst).dedup).isEmpty

/-- Slots that hold a graph. -/
def State.loadedSlots (s : State) : List GraphSlot := s.fe.slots.filter (fun x => x.state != .empty)

/-- The image is within every limit of Table 6.3 and R240. -/
def State.graphFits (s : State) (g : Nat) (x : GraphInfo) : Bool :=
  let others := s.loadedSlots
  let maxTo (q : Nat) : Nat := maxOf ((x.limits.filter (fun l => l.2.1 == q)).map (fun l => l.2.2))
  1 ≤ x.nodes && x.nodes ≤ 1024 && x.flows + sumOf (others.map (fun o => o.info.flows)) ≤ 65536 &&
    x.codeBytes + sumOf (others.map (fun o => o.info.codeBytes)) ≤ 262144 && x.queues.length ≤ 28 &&
    sumOf (x.queues.map (fun q => q.reserve)) + sumOf (others.map (fun o => sumOf (o.info.queues.map (fun q => q.reserve))))
      ≤ 8192 &&
    x.limits.all (fun l => sumOf ((x.limits.filter (fun m => m.1 == l.1)).map (fun m => m.2.2)) ≤ 16) &&
    (x.queues.zipIdx.all (fun e => maxTo (0x20 + 28 * g + e.2) ≤ e.1.reserve)) && !cyclic x.edges x.queues.length

/-- Load a graph into a slot: its code is copied into all four instruction stores, and its queues are allocated (R215, R240). -/
def State.loadGraph (s : State) (g : Nat) (x : GraphInfo) (code : List Byte) : State :=
  let first := 0x20 + 28 * g
  let s := s.setSlot g { GraphSlot.empty with state := .loaded, info := x, firstQueue := first }
  { s with fe.stores := s.fe.stores.map (fun t => tput t g code)
           qm.specs := x.queues.zipIdx.foldl (fun t e => tput t (first + e.2) e.1) s.qm.specs }

/-- Another ARMED or RUNNING graph consumes a queue that `x` consumes (R241). -/
def State.consumesTaken (s : State) (g but : Nat) (x : GraphInfo) : Bool :=
  s.fe.slots.zipIdx.any (fun e => e.2 != g && e.2 != but && (e.1.state == .armed || e.1.state == .running) &&
    e.1.info.consumes &&& x.consumes != 0)

/-- A graph begins to run (R241). -/
def State.startGraph (s : State) (g : Nat) (t : Ns) : State :=
  let s := s.setSlot g { s.slotOf g with instant := t }
  (s.enterSlot g .running 1).relaunchSoon s.points 0

/-! ## Commands -/

/-- An entry of GRAPH_LIST (Table 6.8). -/
def State.graphEntry (s : State) (g : Nat) : List Byte :=
  let x := s.slotOf g
  let live := x.state != .empty
  u8 g ++ u8 x.state.code ++ u8 (bit (s.flag 0x4881 g)) ++ u8 0 ++ u32 (if live then x.info.imageId else 0) ++
    u32 x.info.version ++ u32 x.info.layout ++ u16 x.info.nodes ++ u8 (if live then x.firstQueue else 0) ++
    u8 x.info.queues.length ++ u32 x.info.flows ++ u32 (s.liveFlows g) ++ u32 x.info.codeBytes ++ u16 x.info.consumes ++
    u16 x.info.produces ++ u32 (s.counter 0x4882 g) ++
    u64 (if x.state = .armed ∨ x.state = .running then x.instant else 0)

def graphListBody (_ : Req) (s : State) : Result :=
  ok (u16 8 ++ u16 0 ++ ((List.range 8).map s.graphEntry).flatten) s

def graphListCommand : Command :=
  { opcode := 0x4801, access := .holder, firstLane := 1, layout := isEmpty, body := graphListBody }

/-- GRAPH_LIST (R255). -/
def execGraphList (r : Req) (s : State) : Host.Outcome State Fault Refusal := shotas graphListCommand r s

def graphLoadBody (r : Req) (s : State) : Result :=
  let g := fld r.payload 0 1
  if 8 ≤ g then fail stRange s
  else if (s.slotOf g).state ≠ .empty then fail stState s
  else match s.imageOf (fld r.payload 4 4) with
    | none => fail stRange s
    | some i =>
      if i.kind ≠ 5 then fail stRange s
      else if sha256 i.payload ≠ i.digest then fail stVerifyFailed s
      else match graphInfo g i with
        | none => fail stRange s
        | some x =>
          if !s.graphFits g x then fail stRange s
          else ok (u32 x.codeBytes ++ u8 (0x20 + 28 * g) ++ u8 x.queues.length ++ u16 0)
            ((s.loadGraph g x (Config.graphCode i.payload)).graphState g .empty .loaded 1)

def graphLoadCommand : Command :=
  { opcode := 0x4802, access := .holder, firstLane := 1, layout := exactly 8, body := graphLoadBody }

/-- GRAPH_LOAD (R240). -/
def execGraphLoad (r : Req) (s : State) : Host.Outcome State Fault Refusal := shotas graphLoadCommand r s

/-- The boundary of a requested instant (R242): the instant itself, the present one for a past instant with
IMMEDIATE_IF_PAST, or the status that refuses it. -/
def State.boundary (s : State) (flags : Nat) (t : Ns) : Option (Ns × Bool) :=
  if s.tb < t then some (t, false) else if hasBit flags 0 then some (s.tb, true) else none

def graphStartBody (r : Req) (s : State) : Result :=
  let g := fld r.payload 0 1
  let t := fld r.payload 4 8
  let x := s.slotOf g
  if 8 ≤ g ∨ t = 0 then fail stRange s
  else if !(x.state = .loaded ∨ x.state = .suspended) ∨ s.consumesTaken g g x.info then fail stState s
  else match s.boundary (fld r.payload 1 1) t with
    | none => fail stTooLate s
    | some (b, atOnce) =>
      if atOnce then ok (u64 b) (s.startGraph g b)
      else ok (u64 b) ((s.setSlot g { x with instant := b }).enterSlot g .armed 1)

def graphStartCommand : Command :=
  { opcode := 0x4803, access := .holder, firstLane := 1, layout := exactly 12, body := graphStartBody }

/-- GRAPH_START (R241, R242). -/
def execGraphStart (r : Req) (s : State) : Host.Outcome State Fault Refusal := shotas graphStartCommand r s

def graphStopBody (r : Req) (s : State) : Result :=
  let g := fld r.payload 0 1
  let t := fld r.payload 4 8
  let x := s.slotOf g
  if 8 ≤ g ∨ t = 0 then fail stRange s
  else if x.state = .armed then ok (u64 s.tb) (s.enterSlot g .loaded 1)
  else if x.state ≠ .running then fail stState s
  else match s.boundary (fld r.payload 1 1) t with
    | none => fail stTooLate s
    | some (b, atOnce) =>
      if atOnce then ok (u64 b) (s.stopGraph g .loaded 1)
      else ok (u64 b) (s.setSlot g { x with change := some (b, none) })

def graphStopCommand : Command :=
  { opcode := 0x4804, access := .holder, firstLane := 1, layout := exactly 12, body := graphStopBody }

/-- GRAPH_STOP (R242, R244). -/
def execGraphStop (r : Req) (s : State) : Host.Outcome State Fault Refusal := shotas graphStopCommand r s

/-- A key of graph `a` as graph `b`'s. -/
def rekey (a b k : Nat) : Nat := if graphKey a k then b * 65536 + k % 65536 else k

def reItem (a b : Nat) (it : Item) : Item := if it.graph = a then { it with graph := b } else it
def reWork (a b : Nat) (w : Work) : Work := { w with item := reItem a b w.item }

/-- Move a table's entries of graph `a` to graph `b`, in key order. -/
def reTable {α : Type} (a b : Nat) (t : Table α) : Table α :=
  t.foldl (fun acc e => tput acc (rekey a b e.1) e.2) []

/-- A queue of graph `a` as the queue of graph `b` that takes its contents over. -/
def reQueue (xa xb : GraphSlot) (q : Nat) : Nat :=
  if xa.firstQueue ≤ q ∧ q < xa.firstQueue + 28 then q - xa.firstQueue + xb.firstQueue else q

def rePush (a b : Nat) (xa xb : GraphSlot) (p : PushRec) : PushRec :=
  { p with queue := reQueue xa xb p.queue, item := reItem a b p.item }

/-- A work of graph `a` that waits goes on as one of graph `b`. -/
def reHeld (a b : Nat) (xa xb : GraphSlot) (w : Work) : Work := { reWork a b w with queue := reQueue xa xb w.queue }

/-- A work in service completes on A's code: its flow and what it pushes are B's, its room stays reserved (R243, R245). -/
def reSeated (a b : Nat) (xa xb : GraphSlot) (w : Work) : Work :=
  if w.item.graph ≠ a ∨ w.freed then w
  else
    { reHeld a b xa xb w with
      room := w.room.map (fun l => (reQueue xa xb l.1, l.2))
      moved := match w.moved with
        | some m => some (m.1, m.2.1, xb.firstQueue)
        | none => some (xa.firstQueue, xa.info.queues.length, xb.firstQueue) }

/-- Graph `b` takes over what graph `a` holds (R245, R291). -/
def State.carry (s : State) (a b : Nat) : State :=
  let xa := s.slotOf a
  let xb := s.slotOf b
  let s := (List.range xa.info.queues.length).foldl (fun s i =>
    let q := s.queue (xa.firstQueue + i)
    (s.setQueue (xb.firstQueue + i) { q with items := q.items.map (reItem a b) }).setQueue (xa.firstQueue + i)
      { q with items := [] }) s
  let push := rePush a b xa xb
  { s with fe.flows := reTable a b s.fe.flows
           fe.hold := (reTable a b s.fe.hold).map (fun e => (e.1, e.2.map (reHeld a b xa xb)))
           fe.engines := s.fe.engines.map (fun e =>
             { e with cur := e.cur.map (reSeated a b xa xb), next := e.next.map (reSeated a b xa xb) })
           bs.ckpts := reTable a b s.bs.ckpts
           bs.log := (reTable a b s.bs.log).map (fun e => (e.1, e.2.map (fun l =>
             { l with item := reItem a b l.item, queue := reQueue xa xb l.queue, pushes := l.pushes.map push })))
           bs.newest := reTable a b s.bs.newest
           bs.waiting := s.bs.waiting.map (fun e => (push e.1, e.2))
           bs.replays := (reTable a b s.bs.replays).map (fun e => (e.1,
             { e.2 with queue := reQueue xa xb e.2.queue, retracted := e.2.retracted.map push,
                        made := e.2.made.map (fun m => (m.1, push m.2)) })) }

/-- The swap at its boundary (R245). -/
def State.swapGraphs (s : State) (a b : Nat) (t : Ns) : State :=
  let same := (s.slotOf a).info.layout = (s.slotOf b).info.layout
  let s := s.setSlot b { s.slotOf b with instant := t }
  let s := if same then s.carry a b else s.freeGraph a (some b)
  (((s.enterSlot a .loaded 1).enterSlot b .running 1).coreConsumes).relaunchSoon s.points 0

/-- Why a swap cannot be made, if it cannot (R241, R245). Table 6.7 gives no order: STATE comes before the RANGE of too few flows (log
entry 92). -/
def State.swapRefused (s : State) (a b : Nat) : Option Nat :=
  let xa := s.slotOf a
  let xb := s.slotOf b
  if xa.state ≠ .running ∨ xb.state ≠ .loaded ∨ s.consumesTaken b a xb.info then some stState
  else if xa.info.layout = xb.info.layout ∧ xb.info.flows < xa.info.flows then some stRange
  else none

def graphSwapBody (r : Req) (s : State) : Result :=
  let a := fld r.payload 0 1
  let b := fld r.payload 1 1
  let t := fld r.payload 4 8
  let xa := s.slotOf a
  if 8 ≤ a ∨ 8 ≤ b ∨ t = 0 then fail stRange s
  else match s.swapRefused a b with
    | some st => fail st s
    | none => match s.boundary (fld r.payload 2 1) t with
      | none => fail stTooLate s
      | some (t', atOnce) =>
        let payload := u64 t' ++ u32 (if xa.info.layout = (s.slotOf b).info.layout then s.liveFlows a else 0) ++ u32 0
        if atOnce then ok payload (s.swapGraphs a b t')
        else ok payload (s.setSlot a { xa with change := some (t', some b) })

def graphSwapCommand : Command :=
  { opcode := 0x4805, access := .holder, firstLane := 1, layout := exactly 12, body := graphSwapBody }

/-- GRAPH_SWAP (R245). -/
def execGraphSwap (r : Req) (s : State) : Host.Outcome State Fault Refusal := shotas graphSwapCommand r s

def graphUnloadBody (r : Req) (s : State) : Result :=
  let g := fld r.payload 0 1
  let x := s.slotOf g
  if 8 ≤ g then fail stRange s
  else if !(x.state = .loaded ∨ x.state = .suspended) then fail stState s
  else
    let s := s.enterSlot g .empty 1
    let own (q : Nat) : Bool := x.firstQueue ≤ q && q < x.firstQueue + x.info.queues.length
    ok [] { s.setSlot g .empty with fe.stores := s.fe.stores.map (fun t => tdel t g)
                                    qm.specs := tkeep s.qm.specs (fun q _ => !own q)
                                    qm.queues := tkeep s.qm.queues (fun q _ => !own q)
                                    par.vals := tkeep s.par.vals (fun k _ => !(k / 65536 == 0x4C82 && own (k % 65536))) }

def graphUnloadCommand : Command :=
  { opcode := 0x4806, access := .holder, firstLane := 1, layout := exactly 4, body := graphUnloadBody }

/-- GRAPH_UNLOAD (R241). -/
def execGraphUnload (r : Req) (s : State) : Host.Outcome State Fault Refusal := shotas graphUnloadCommand r s

/-- An entry of ENGINE_STATUS (Table 6.7). -/
def State.engineEntry (s : State) (e : Nat) : List Byte :=
  let x := s.engine e
  u8 e ++ u8 x.state ++ u8 (e / 4) ++ u8 (bit x.cur.isSome + bit x.next.isSome) ++ u32 x.items ++ u32 x.retirements ++ u32 0

def engineStatusBody (_ : Req) (s : State) : Result :=
  ok (u16 16 ++ u16 0 ++ ((List.range 16).map s.engineEntry).flatten) s

def engineStatusCommand : Command :=
  { opcode := 0x4810, access := .holder, firstLane := 1, layout := isEmpty, body := engineStatusBody }

/-- ENGINE_STATUS (R255). -/
def execEngineStatus (r : Req) (s : State) : Host.Outcome State Fault Refusal := shotas engineStatusCommand r s

/-- An entry of QUEUE_STATUS (Table 6.7). -/
def State.queueEntry (s : State) (q : Nat) : List Byte :=
  u8 q ++ u8 (bit (s.depth q == 0) + 2 * bit (s.above q) + 4 * bit (s.queueFull q)) ++ u16 (s.depth q) ++
    u16 (s.capacity q) ++ u16 (s.num 0x4C82 q) ++ u32 (s.counter 0x4C86 q) ++ u32 (s.counter 0x4C87 q) ++
    u32 (s.counter 0x4C88 q)

def queueStatusBody (r : Req) (s : State) : Result :=
  let q := fld r.payload 0 1
  let n := fld r.payload 1 1
  if n = 0 ∨ 64 < n ∨ 256 < q + n then fail stRange s
  else ok (u16 n ++ u16 0 ++ ((List.range n).map (fun i => s.queueEntry (q + i))).flatten) s

def queueStatusCommand : Command :=
  { opcode := 0x4C01, access := .holder, firstLane := 1, layout := exactly 4, body := queueStatusBody }

/-- QUEUE_STATUS (R255): all queues at one instant. -/
def execQueueStatus (r : Req) (s : State) : Host.Outcome State Fault Refusal := shotas queueStatusCommand r s

/-- The BACKSTEP_STATUS response (Table 7.7). -/
def State.backstepReport (s : State) : List Byte :=
  u64 s.now ++ u64 s.horizon ++ u32 ((s.tb - s.horizon) / ms) ++ u32 s.ckptFree ++ u32 s.logFree ++
    u32 s.bs.ckpts.length ++ u32 (sumOf (s.bs.replays.map (fun e => e.2.left))) ++ u32 0 ++ u32 (s.counter 0x48F5) ++
    u32 (s.counter 0x48FA)

def backstepStatusBody (_ : Req) (s : State) : Result := let s := s.trim; ok s.backstepReport s

def backstepStatusCommand : Command :=
  { opcode := 0x4811, access := .holder, firstLane := 1, layout := isEmpty, body := backstepStatusBody }

/-- BACKSTEP_STATUS (R293). -/
def execBackstepStatus (r : Req) (s : State) : Host.Outcome State Fault Refusal := shotas backstepStatusCommand r s

/-- DISPATCH_BOUNDARY (R243): a start, stop or swap whose instant has come. -/
def execDispatchBoundary (dt : Ns) (graph : Nat) (s : State) : Host.Outcome State Fault Refusal :=
  event dt (fun s =>
    let x := s.slotOf graph
    match x.state, x.change with
    | .armed, _ => if x.instant ≤ s.tb then s.startGraph graph x.instant else s
    | .running, some (t, other) =>
      if s.tb < t then s
      else match other with
        | none => s.stopGraph graph .loaded 1
        -- what has become of graph B since is looked at again (log entry 92)
        | some b =>
          if (s.swapRefused graph b).isSome then s.setSlot graph { x with change := none } else s.swapGraphs graph b t
    | _, _ => s) s

end Sys2Proof.Machine
end

