-- ==== Sys2Proof/Machine/Promenade.lean ====
section
/-!
DEFINITION. The commands and events of group 0x40 (R171–R213), PEER_RESPONSE apart.
-/

namespace Sys2Proof.Machine

/-- BUSY with its wait, a free value (log entry 13). -/
def busy (s : State) : Result := let d := s.draw; .done stBusy (u16 d.1) d.2

/-! ## The road graph -/

def sectionAt (b : List Byte) : Section :=
  { number := fld b 0 1, flags := fld b 1 1, start := fld b 2 2, finish := fld b 4 2, length := fld b 8 4,
    vmax := fld b 12 2 }

def Section.bytes (x : Section) : List Byte :=
  u8 x.number ++ u8 x.flags ++ u16 x.start ++ u16 x.finish ++ u16 0 ++ u32 x.length ++ u16 x.vmax ++ u16 0

def junctionAt (b : List Byte) : Junction :=
  { number := fld b 0 2, kind := fld b 2 1, portal := fld b 3 1, neighbour := fld b 4 1, peerPortal := fld b 5 1 }

def Junction.bytes (x : Junction) : List Byte :=
  u16 x.number ++ u8 x.kind ++ u8 x.portal ++ u8 x.neighbour ++ u8 x.peerPortal ++ u16 0

/-- The fields of a section record are in range and what it names is there (Table 5.1, R172). -/
def State.sectionOk (s : State) (x : Section) : Bool :=
  s.flag 0x30A0 x.number && x.flags / 2 % 8 != 0 && (s.junctionOf x.start).isSome && (s.junctionOf x.finish).isSome &&
    100 ≤ x.length && x.length ≤ 500000 && 50 ≤ x.vmax && x.vmax ≤ 4000

/-- Section ends at a junction. -/
def endsAt (t : Table Section) (j : Nat) : Nat :=
  sumOf (t.map (fun e => bit (e.2.start == j) + bit (e.2.finish == j)))

/-- No junction is the end of too many sections (R172). -/
def State.endsOk (s : State) (t : Table Section) : Bool :=
  s.prom.junctions.all (fun e => endsAt t e.1 ≤ (if e.2.kind = 0 then 5 else 1))

def sectionSetBody (r : Req) (s : State) : Result :=
  let xs := (entries 16 r.payload).map sectionAt
  let t := xs.foldl (fun t x => tput t x.number { x with flags := x.flags % 16 }) s.prom.sections
  if xs.isEmpty ∨ !xs.all s.sectionOk ∨ !s.endsOk t then fail stRange s
  else
    let s := s.graphChange (xs.map (fun x => x.number)) [] [] []
    ok [] { s with prom.sections := t }

def sectionSetCommand : Command :=
  { opcode := 0x4001, access := .holder, firstLane := 1, layout := counted 16, body := sectionSetBody }

/-- SECTION_SET (R171, R172). -/
def execSectionSet (r : Req) (s : State) : Host.Outcome State Fault Refusal := shotas sectionSetCommand r s

def junctionOk (x : Junction) : Bool :=
  x.number < 512 && x.kind ≤ 2 && (if x.kind = 2 then x.portal < 16 && x.neighbour < 64 && x.peerPortal < 16
                                   else x.portal == 0)

def junctionSetBody (r : Req) (s : State) : Result :=
  let xs := (entries 8 r.payload).map junctionAt
  if xs.isEmpty ∨ !xs.all junctionOk then fail stRange s
  else
    let s := s.graphChange [] (xs.map (fun x => x.number)) [] []
    ok [] { s with prom.junctions := xs.foldl (fun t x => tput t x.number x) s.prom.junctions }

def junctionSetCommand : Command :=
  { opcode := 0x4002, access := .holder, firstLane := 1, layout := counted 8, body := junctionSetBody }

/-- JUNCTION_SET (R171). -/
def execJunctionSet (r : Req) (s : State) : Host.Outcome State Fault Refusal := shotas junctionSetCommand r s

/-- Why a place record is refused (R173). -/
def State.placeRefused (s : State) (b : List Byte) : Option Nat :=
  let p := pidAt b 0
  let x := fld b 8 4
  match s.pointRefused p with
  | some st => some st
  | none =>
    match s.lampOf p with
    | none => some stRange
    | some l =>
      if x = 0xFFFFFFFF then none
      else match s.sectionOf l.section_ with
        | some sc => if sc.length < x then some stRange else none
        | none => some stRange

/-- The first refusal of a list, RANGE taking precedence over ABSENT (R4). -/
def firstRefusal (l : List (Option Nat)) : Option Nat :=
  if l.any (fun x => x == some stRange) then some stRange else l.findSome? id

/-- Where a place record puts its point (R175). -/
def State.spotOf (s : State) (b : List Byte) : Option (Nat × Int) :=
  if fld b 8 4 = 0xFFFFFFFF then none else (s.lampOf (pidAt b 0)).map (fun l => (l.section_, (fld b 8 4 : Int) * cm))

def placeSetBody (r : Req) (s : State) : Result :=
  let es := entries 12 r.payload
  if es.isEmpty then fail stRange s
  else match firstRefusal (es.map s.placeRefused) with
    | some st => fail st s
    | none =>
      let ps := es.map (fun b => pidAt b 0)
      let s := s.graphChange [] [] ps (es.filterMap s.spotOf)
      let t := es.foldl (fun t b =>
        let k := pointKey (pidAt b 0)
        if fld b 8 4 = 0xFFFFFFFF then tdel t k else tput t k (fld b 8 4)) s.prom.places
      { s with prom.places := t }.relaunchAnswer r ps []

def placeSetCommand : Command :=
  { opcode := 0x4003, access := .holder, firstLane := 1, layout := counted 12, body := placeSetBody }

/-- PLACE_SET (R173). -/
def execPlaceSet (r : Req) (s : State) : Host.Outcome State Fault Refusal := shotas placeSetCommand r s

/-- A page of records: count, the index of the next, then the records. -/
def page (recs : List (Nat × List Byte)) (first most : Nat) : List Byte :=
  let l := recs.filter (fun e => first ≤ e.1)
  let next := match (l.drop most).head? with | some e => e.1 | none => 0xFFFF
  u16 (min most l.length) ++ u16 next ++ ((l.take most).map Prod.snd).flatten

/-- Records numbered by their place in the table. -/
def ordinal {α : Type} (l : List α) (f : α → List Byte) : List (Nat × List Byte) :=
  l.zipIdx.map (fun e => (e.2, f e.1))

/-- A place record (Table 5.3). -/
def State.placeBytes (s : State) (k x : Nat) : List Byte :=
  pidBytes (mkPid s.ownPrefix (k / 256) (k % 256)) ++ u16 0 ++ u32 x

def graphGetBody (r : Req) (s : State) : Result :=
  let first := fld r.payload 2 2
  match fld r.payload 0 1 with
  | 0 => ok (page (s.prom.sections.map (fun e => (e.1, e.2.bytes))) first 91) s
  | 1 => ok (page (s.prom.junctions.map (fun e => (e.1, e.2.bytes))) first 183) s
  | 2 => ok (page (ordinal s.prom.places (fun e => s.placeBytes e.1 e.2)) first 122) s
  | _ => fail stRange s

def graphGetCommand : Command :=
  { opcode := 0x4004, access := .holder, firstLane := 1, layout := exactly 4, body := graphGetBody }

/-- GRAPH_GET (Table 5.10). -/
def execGraphGet (r : Req) (s : State) : Host.Outcome State Fault Refusal := shotas graphGetCommand r s

def graphRemoveBody (r : Req) (s : State) : Result :=
  let kind := fld r.payload 0 1
  let ns := ((List.range (fld r.payload 2 2)).map (fun i => fld r.payload (4 + 2 * i) 2)).dedup
  if 1 < kind ∨ ns.isEmpty ∨ ns.any (fun n => (if kind = 0 then 256 else 512) ≤ n) then fail stRange s
  else if kind = 0 then
    if ns.any (fun n => (s.sectionOf n).isSome && s.flag 0x4080 n) then fail stState s
    else
      let gone := ns.filter (fun n => (s.sectionOf n).isSome)
      let s := s.graphChange gone [] [] []
      ok (u16 gone.length ++ u16 0) { s with prom.sections := tkeep s.prom.sections (fun n _ => !gone.contains n) }
  else if ns.any (fun n => 0 < endsAt s.prom.sections n) then fail stState s
  else
    let gone := ns.filter (fun n => (s.junctionOf n).isSome)
    ok (u16 gone.length ++ u16 0) { s with prom.junctions := tkeep s.prom.junctions (fun n _ => !gone.contains n) }

def graphRemoveCommand : Command :=
  { opcode := 0x4005, access := .holder, firstLane := 1,
    layout := fun p => 4 ≤ p.length && p.length == 4 + 2 * fld p 2 2, body := graphRemoveBody }

/-- GRAPH_REMOVE (R172). -/
def execGraphRemove (r : Req) (s : State) : Host.Outcome State Fault Refusal := shotas graphRemoveCommand r s

/-! ## Tracks -/

/-- State code of a track (Table 5.10). -/
def TrackState.code : TrackState → Nat
  | .tentative => 1
  | .confirmed => 2
  | .shadow => 3

def State.trackEntry (s : State) (t : Track) : List Byte :=
  u16 t.number ++ u8 t.state.code ++ u8 (s.kindOf t) ++ u8 t.section_ ++ u8 (s.branches t s.tb).length ++ u16 0 ++
    u32 (posCm t.pos) ++ leI 2 t.speed ++ u16 (min 65535 (posCm (s.gate t s.tb))) ++ u64 t.tLast ++
    u32 t.handoverId ++ u32 0

def trackListBody (r : Req) (s : State) : Result :=
  ok (page (s.prom.tracks.map (fun e => (e.1, s.trackEntry e.2))) (fld r.payload 0 2) 45) s

def trackListCommand : Command :=
  { opcode := 0x4010, access := .holder, firstLane := 1, layout := exactly 4, body := trackListBody }

/-- TRACK_LIST (Table 5.10). -/
def execTrackList (r : Req) (s : State) : Host.Outcome State Fault Refusal := shotas trackListCommand r s

/-- What a track's flow does at an instant is done where the track is there, the graph runs, and that instant has come. -/
def State.trackDue (s : State) (n : Nat) (due : Track → Option Ns) : State :=
  match (s.trackOf n).bind due with
  | some t => if t ≤ s.tb ∧ s.served 0x00 then s.serveTick n t else s
  | none => s

/-- TRACK_TICK (R191): the tick, or the end of the road where the track comes to it first (R184). -/
def execTrackTick (dt : Ns) (track : Nat) (s : State) : Host.Outcome State Fault Refusal :=
  event dt (fun s => s.trackDue track (fun t =>
    let tick := t.lastBatch + s.num 0x4003 * ms
    if t.state = .confirmed then some (min tick ((s.endedAt t s.tb).getD tick)) else none)) s

/-- TRACK_COAST_TIMEOUT (R185). -/
def execTrackCoastTimeout (dt : Ns) (track : Nat) (s : State) : Host.Outcome State Fault Refusal :=
  event dt (fun s => s.trackDue track (fun t => if t.state = .confirmed then some (t.heard + s.coastTime t) else none)) s

/-- TENTATIVE_TIMEOUT (Table 5.5). -/
def execTentativeTimeout (dt : Ns) (track : Nat) (s : State) : Host.Outcome State Fault Refusal :=
  event dt (fun s => s.trackDue track (fun t => if t.state = .tentative then some (t.since + s.num 0x4022 * ms) else none)) s

/-- SHADOW_TIMEOUT (Table 5.5). -/
def execShadowTimeout (dt : Ns) (track : Nat) (s : State) : Host.Outcome State Fault Refusal :=
  event dt (fun s => s.trackDue track (fun t => if t.state = .shadow then some (t.heard + s.coastTime t) else none)) s

/-- UNTRACKED_COVER_EXPIRY (R202). -/
def execUntrackedCoverExpiry (dt : Ns) (s : State) : Host.Outcome State Fault Refusal :=
  event dt (fun s =>
    let due := s.prom.loose.filter (fun l => l.until_ ≤ s.tb)
    let s := { s with prom.loose := s.prom.loose.filter (fun l => s.tb < l.until_) }
    due.foldl (fun s l => (s.pushCovers l.until_ l.points l.number false l.until_).1) s) s

/-- A fall that was deferred goes out (R197): never before its hold has ended (R194). -/
def State.sendFall (s : State) (p : Pid) : State :=
  let c := s.coverOf p
  let held := match c.closedAt with | some t => t + s.num 0x4008 * sec | none => 0
  let launch := max s.soonest held
  let s := s.onCover p (fun c => { c with deferredAt := none })
  if s.commands p launch then (s.emit 0xFF 0 s.tb (s.promCmd p launch false)).1 else s

/-- HOLD_EXPIRY (R189, R197): the level turns to rest; a fall that was deferred goes out where there is room. -/
def execHoldExpiry (dt : Ns) (point : Pid) (s : State) : Host.Outcome State Fault Refusal :=
  event dt (fun s =>
    let c := s.coverOf point
    match c.closedAt with
    | some t =>
      if t + s.num 0x4008 * sec ≤ s.tb then
        let s := if c.deferredAt.isSome && s.room 0x03 1 then s.sendFall point else s
        s.onCover point (fun c => { c with closedAt := none })
      else s
    | none => s) s

/-- FLAP_HOLD_EXPIRY (R190): a point no track covers falls. -/
def execFlapHoldExpiry (dt : Ns) (point : Pid) (s : State) : Host.Outcome State Fault Refusal :=
  event dt (fun s =>
    let c := s.coverOf point
    match c.flapUntil with
    | some t =>
      if t ≤ s.tb then
        let s := s.onCover point (fun c => { c with flapUntil := none })
        let launch := s.tb + s.num 0x4002 * ms
        if s.promActive point launch then s
        else (s.onCover point (fun c => { c with active := true }) |>.fall 0xFF 0 s.tb point launch).1
      else s
    | none => s) s

/-- FALL_DEFER_EXPIRY (R197). -/
def execFallDeferExpiry (dt : Ns) (point : Pid) (s : State) : Host.Outcome State Fault Refusal :=
  event dt (fun s =>
    match (s.coverOf point).deferredAt with
    | some t => if t + s.num 0x4028 * sec ≤ s.clk.mono then (s.bump 0x40F3).sendFall point else s
    | none => s) s

/-! ## Handovers -/

/-- The MAC address of a ring source. -/
def sourceMac (x : Source) : Mac :=
  match x with
  | .ring m _ _ _ => m
  | _ => 0#48

/-- A handover that no track place is free for is covered until pm.confirm_ms later, renewed by each update (R207). -/
def State.renewLoose (s : State) (mac : Mac) (id : Nat) (ps : List Pid) (launch : Ns) : State :=
  let until_ := s.tb + s.num 0x4022 * ms
  match s.prom.loose.find? (fun l => l.handover == some (mac, id)) with
  | some l =>
    let more := ps.filter (fun p => !l.points.contains p)
    let grown (x : LooseCover) : LooseCover :=
      if x.number = l.number then { x with points := x.points ++ more, until_ := until_ } else x
    (({ s with prom.loose := s.prom.loose.map grown }.openBatch l.number launch (some launch)).pushCovers s.tb more l.number true
      launch).1
  | none => (s.coverLoose s.tb ps until_ launch (some launch) (some (mac, id))).1

/-- A peer message as the item of a track's flow (R260): its stamp, and its payload. -/
def State.peerItem (s : State) (n : Nat) (stamp : Ns) (mac : Mac) (opcode : Nat) (p : List Byte) : State :=
  s.feed 0x05 n stamp (.peer mac opcode (fld p 0 4) p)

/-- The track that a HANDOVER is for, or the coverage of one that finds no room (R207): RESULT 0 or 1. The shadow's flow opens or
updates it; the message it is handed carries the accepted launch. -/
def State.takeHandover (s : State) (p : List Byte) (mac : Mac) (sect : Nat) (x : Int) (fwd : Bool) (launch : Ns) : Nat × State :=
  let id := fld p 0 4
  let place := match s.shadowPlace mac id with
    | some n => some n
    | none => if s.handoversOpen < 64 then s.freeTrack else none
  match place with
  | some n => (0, s.peerItem n (fld p 32 8) mac 0x40C0 (p.take 16 ++ u64 launch ++ p.drop 24))
  | none =>
    let ps := s.beyondPortal (fld p 12 1) sect x fwd ((fld p 40 4 : Int) * cm)
    (1, ((s.bump 0x40FA 0 ps.2).promLoad 1 0 0).renewLoose mac id ps.1 launch)

/-- A HANDOVER's fields are in range (R14, R206, Table 5.8). -/
def handoverOk (p : List Byte) : Bool :=
  1 ≤ fld p 12 1 && fld p 12 1 ≤ 3 && fld p 16 8 != 0 && fld p 24 8 != 0 && fld p 32 8 != 0

def handoverBody (r : Req) (s : State) : Result :=
  let p := r.payload
  let sender := pidAt p 4
  let mac := sourceMac r.src
  match s.portalJunction (fld p 11 1) with
  | none => fail stRange s
  | some jn =>
    if !s.moduleOfRing sender ∨ jn.neighbour ≠ pidSegment sender ∨ jn.peerPortal ≠ fld p 10 1 ∨ !handoverOk p then
      fail stRange s
    else if s.served 0x05 ∧ !s.room 0x05 1 then busy s
    else
      let asked := fld p 16 8
      let launch := max asked s.soonest
      let answer (n : Nat) : List Byte := u64 launch ++ u8 n ++ zeros 3
      match s.entryOf jn.number with
      | none => ok (answer 2) s
      | some (sect, x, fwd) =>
        if !s.served 0x05 ∨ !s.flag 0x4080 sect then ok (answer 2) s
        else
          let y := State.takeHandover (if asked < launch then (s.bump 0x40F2).promLoad 0 1 0 else s) p mac sect x fwd launch
          ok (answer y.1) y.2

def handoverCommand : Command :=
  { opcode := 0x40C0, access := .peer, firstLane := 1, layout := exactly 48, body := handoverBody }

/-- HANDOVER (R206, R207). -/
def execHandover (r : Req) (s : State) : Host.Outcome State Fault Refusal := shotas handoverCommand r s

/-- The track that has sent a handover. -/
def State.senderOf (s : State) (mac : Mac) (id : Nat) : Option Track :=
  (s.prom.tracks.find? (fun e => e.2.sent.any (fun h => h.peer == mac && h.id == id))).map Prod.snd

/-- A peer message for the flow of track `n` goes through queue 0x05, and is answered BUSY while that has no room (Table 6.2). -/
def State.toTrack (s : State) (n : Option Nat) (stamp : Ns) (mac : Mac) (opcode : Nat) (p : List Byte) : Result :=
  match n with
  | none => ok [] s
  | some n => if s.served 0x05 ∧ !s.room 0x05 1 then busy s else ok [] (s.peerItem n stamp mac opcode p)

def handoverTakenBody (r : Req) (s : State) : Result :=
  let p := r.payload
  let mac := sourceMac r.src
  if !s.moduleOfRing (pidAt p 4) ∨ fld p 12 8 = 0 then fail stRange s
  else s.toTrack ((s.senderOf mac (fld p 0 4)).map (fun t => t.number)) (fld p 12 8) mac 0x40C1 p

def handoverTakenCommand : Command :=
  { opcode := 0x40C1, access := .peer, firstLane := 1, layout := exactly 20, body := handoverTakenBody }

/-- HANDOVER_TAKEN (R208). -/
def execHandoverTaken (r : Req) (s : State) : Host.Outcome State Fault Refusal := shotas handoverTakenCommand r s

/-- Coverage that stands for a handover without a track closes at the stated launch (R207, R209). -/
def State.cancelLoose (s : State) (mac : Mac) (id : Nat) (launch : Ns) : State :=
  let mine := s.prom.loose.filter (fun l => l.handover == some (mac, id))
  let s := { s with prom.loose := s.prom.loose.filter (fun l => l.handover != some (mac, id)) }
  mine.foldl (fun s l => (s.pushCovers launch l.points l.number false launch).1) s

def handoverCancelBody (r : Req) (s : State) : Result :=
  let p := r.payload
  let mac := sourceMac r.src
  let launch := fld p 12 8
  if !s.moduleOfRing (pidAt p 4) ∨ fld p 10 1 < 1 ∨ 3 < fld p 10 1 ∨ launch = 0 then fail stRange s
  else
    match s.shadowPlace mac (fld p 0 4) with
    | some n => s.toTrack (some n) launch mac 0x40C2 p
    | none => ok [] (s.cancelLoose mac (fld p 0 4) launch)

def handoverCancelCommand : Command :=
  { opcode := 0x40C2, access := .peer, firstLane := 1, layout := exactly 20, body := handoverCancelBody }

/-- HANDOVER_CANCEL (R209). -/
def execHandoverCancel (r : Req) (s : State) : Host.Outcome State Fault Refusal := shotas handoverCancelCommand r s

/-- A handover whose crossing instant has come unanswered is lost (R210). -/
def State.loseHandover (s : State) (id : Nat) : State :=
  let lost (h : Handover) : Bool := h.id == id && decide (h.crossing ≤ s.tb) && !h.answered && !h.lost
  match s.prom.tracks.find? (fun e => e.2.sent.any lost) with
  | some (n, _) =>
    (s.bump 0x40F5).onTrack n (fun t => { t with sent := t.sent.map (fun h => if lost h then { h with lost := true } else h) })
  | none => s

/-- HANDOVER_CROSSING (R210). -/
def execHandoverCrossing (dt : Ns) (id : Nat) (s : State) : Host.Outcome State Fault Refusal :=
  event dt (fun s => s.loseHandover id) s

end Sys2Proof.Machine
end

