-- ==== Sys2Proof/Machine/MeshOps.lean ====
section
/-!
DEFINITION. Mesh time (R304, R305), node keys and LPP PDUs (R324, R335), the radios' cells, duty and counters (R299, R300,
R307, R317), hold-off (R321), schedules (R310), and what is sent down to nodes.
-/

namespace Sys2Proof.Machine

/-! ## Mesh time -/

/-- The timeslot's length (Table 8.1). -/
def State.slotNs (s : State) : Ns := if s.mesh.band.phy = 1 then 10 * ms else 4 * ms

/-- Timeslots of a slotframe (R307). -/
def State.slotsPer (s : State) : Nat := if s.mesh.band.phy = 1 then 8 else 20

/-- How far mesh time has slewed towards the time base after `e` ns, at 50 µs per second, from an initial Δ (R305). -/
def slew (delta : Int) (e : Nat) : Int :=
  let m : Int := (min delta.natAbs (e / 20000) : Nat)
  if delta < 0 then -m else m

/-- The stretch of time under way. -/
def State.stretch (s : State) : Ns × Ns × Int := s.mesh.stretches.getLastD (0, sec, 0)

def State.meshTime (s : State) : Ns :=
  let x := s.stretch
  let e := ((s.clk.timeBase : Int) - ((x.2.1 : Int) + x.2.2)).toNat
  ((x.2.1 : Int) + e + slew x.2.2 e).toNat

/-- The absolute slot number, 40 bits. -/
def State.asn (s : State) : Nat := s.meshTime / s.slotNs % 2 ^ 40

/-- The timeslot of the slotframe. -/
def State.timeslot (s : State) : Nat := s.asn % s.slotsPer

/-- Δ as it stood at a mesh instant of a stretch. -/
def deltaAt (x : Ns × Ns × Int) (m : Ns) : Int :=
  let run := m - x.2.1
  x.2.2 - slew x.2.2 (if 0 ≤ x.2.2 then run * 20000 / 20001 else run * 20000 / 19999)

/-- The time-base instant of a mesh instant: Δ as it stood then is added. -/
def State.tbOfMesh (s : State) (m : Ns) : Ns :=
  let past := s.mesh.stretches.filter (fun x => x.2.1 ≤ m)
  let x := past.getLastD (s.mesh.stretches.headD (0, sec, 0))
  ((m : Int) + deltaAt x m).toNat

/-- The Stamp64 of a mesh instant, 0 while network time is not valid (R14). -/
def State.stampOfMesh (s : State) (m : Ns) : Ns := if s.timeValid then s.tbOfMesh m else 0

/-- The mesh time of a time-base instant, with the Δ expected then. -/
def State.meshOf (s : State) (t : Ns) : Ns :=
  let x := s.stretch
  let e : Int := (t : Int) - ((x.2.1 : Int) + x.2.2)
  if e < 0 then ((t : Int) - x.2.2).toNat else ((x.2.1 : Int) + e + slew x.2.2 e.toNat).toNat

/-- Drop the stretches that ended more than 16 s ago. -/
def dropStretches (now_ : Ns) : List (Ns × Ns × Int) → List (Ns × Ns × Int)
  | a :: b :: rest => if b.1 + 16 * sec ≤ now_ then dropStretches now_ (b :: rest) else a :: b :: rest
  | l => l

/-- The time base takes a new value; mesh time runs on, and Δ changes (R305). Instants that a step
passes over do not come (log entry 31). -/
def State.setTimeBase (s : State) (t : Ns) : State :=
  let s := s.latchHorizon
  let m := s.meshTime
  { s with mesh.stretches := dropStretches s.clk.mono (s.mesh.stretches ++ [(s.clk.mono, m, (t : Int) - m)])
           clk.timeBase := t
           mt.ledgerDone := t / (900 * sec) * (900 * sec)
           mt.inputs := s.mt.inputs.map (fun x => { x with freqDone := t / (10 * sec) * (10 * sec) }) }

/-- The radios start afresh: the band plan is adopted and mesh time is set from the time base (R298, R304). -/
def State.freshRadios (s : State) : State :=
  let band : BandPlan :=
    { phy := s.num 0x5001, panId := s.num 0x5003, ch0 := s.num 0x5004, spacing := s.num 0x5005,
      hop := (s.value 0x5006 0).bytes }
  let s := { s with mesh.band := band }
  let m := s.clk.timeBase / s.slotNs * s.slotNs
  { s with mesh.stretches := [(s.clk.mono, m, (s.clk.timeBase : Int) - m)] }

/-- The Stamp64 of a past instant of `mono`, 0 of none. -/
def State.stampAt (s : State) (m : Ns) : Ns := if s.timeValid ∧ 0 < m then s.clk.timeBase - (s.clk.mono - m) else 0

/-! ## Nodes -/

/-- Short addresses 0–3 are the radios' (log entry 23). -/
def State.byShort (s : State) (a : Nat) : Option Node :=
  if a < 4 then none else (s.mesh.nodes.find? (fun e => e.2.short == a)).map Prod.snd

def State.byEui (s : State) (e : Eui) : Option Node := tget s.mesh.nodes e.toNat

def State.onNode (s : State) (e : Eui) (f : Node → Node) : State :=
  { s with mesh.nodes := tmap s.mesh.nodes e.toNat f }

/-- The radio's neighbour on the way to a node: its ancestor at depth 1. -/
def State.nextHop (s : State) (fuel : Nat) (n : Node) : Nat :=
  match fuel with
  | 0 => n.short
  | fuel + 1 => if n.parent < 4 then n.short else match s.byShort n.parent with
    | some p => s.nextHop fuel p
    | none => n.short

/-- NODE_STATE and the NODE record of a change of state (R334, Table 12.2; log entry 24). -/
def State.nodeState (s : State) (e : Eui) (new : Nat) : State :=
  match s.byEui e with
  | none => s
  | some n =>
    if n.state = new then s
    else
      ((s.onNode e (fun n => { n with state := new })).raise 0x50E0 (8 + n.radio % 4)
        (pidBytes n.point ++ u8 n.state ++ u8 new ++ u64 e.toNat ++ u64 s.now)).hist s.now n.point 0x0D
        (u8 n.state ++ u8 new ++ u8 n.radio ++ u8 0 ++ u64 e.toNat)

/-- K_node (R324, R519): cached, or derived under the node master key. -/
def State.nodeKey (s : State) (e : Eui) : Option (List Byte) × State :=
  match s.ks.cache.find? (fun c => c.1 == e) with
  | some c => (some c.2, s)
  | none =>
    let i := s.num 0x9003
    let v := s.invoke i 1
    if v.1 then
      let k := kdf (s.slot i).rec_.key [0x4C#8, 0x50#8, 0x50#8, 0x20#8, 0x6E#8, 0x6F#8, 0x64#8, 0x65#8] (be 8 e.toNat) 16
      (some k, { s with ks.cache := lastN s.pointsFitted (s.ks.cache ++ [(e, k)]) })
    else (none, v.2)

/-! ## LPP PDUs (R335–R341) -/

/-- The CCM* nonce: EUI-64, counter octets, DIR. -/
def lppNonce (e : Eui) (ctr : List Byte) (dir : Nat) : List Byte := be 8 e.toNat ++ ctr ++ u8 dir

/-- A downlink PDU under K_node (Table 8.9). -/
def sealPdu (key : List Byte) (e : Eui) (node ctr : Nat) (enc : Bool) (elements : List Byte) : List Byte :=
  let head := u16 node ++ u8 (1 + 2 * bit enc) ++ u8 elements.length ++ u32 ctr
  let nonce := lppNonce e (u32 ctr) 1
  if enc then head ++ ccmSeal key nonce head elements 4 else head ++ elements ++ ccmTag key nonce (head ++ elements) [] 4

/-- The elements of an uplink PDU whose MIC verifies under K_node. -/
def openPdu (key : List Byte) (e : Eui) (pdu : List Byte) : Option (List Byte) :=
  let head := pdu.take 8
  let body := pdu.drop 8
  let nonce := lppNonce e (slice pdu 4 4) (fld pdu 2 1 % 2)
  let n := body.length - 4
  if hasBit (fld pdu 2 1) 1 then ccmOpen key nonce head body 4
  else if ccmTag key nonce (head ++ body.take n) [] 4 = body.drop n then some (body.take n) else none

/-- The largest PDU under the PHY and security level in force (R339). -/
def State.pduLimit (s : State) : Nat :=
  (if s.mesh.band.phy = 1 then 67 else 104) - (if s.num 0x5007 = 6 then 4 else 0)

/-- The form of an uplink PDU: DIR up, its length as its len field says, within the limit. -/
def State.pduOk (s : State) (pdu : List Byte) : Bool :=
  2 ≤ fld pdu 3 1 && pdu.length == 12 + fld pdu 3 1 && pdu.length ≤ s.pduLimit && !hasBit (fld pdu 2 1) 0

/-- Elements: type and body; what is cut short is not an element. -/
def lppElements (fuel : Nat) (b : List Byte) : List (Nat × List Byte) :=
  match fuel, b with
  | fuel + 1, t :: n :: rest =>
    if n.toNat ≤ rest.length then (t.toNat, rest.take n.toNat) :: lppElements fuel (rest.drop n.toNat) else []
  | _, _ => []

/-- An element (R341). -/
def element (type : Nat) (body : List Byte) : List Byte := u8 type ++ u8 body.length ++ body

/-! ## Radios -/

def State.radio (s : State) (r : Nat) : Radio := (s.mesh.radios[r]?).getD .reset

def State.onRadio (s : State) (r : Nat) (f : Radio → Radio) : State := { s with mesh.radios := lmod s.mesh.radios r f }

/-- The channel of radio `r`'s root cell now (R301, R303) is one that mesh.hop_list names (R296). -/
def State.channelOk (s : State) (r : Nat) : Bool :=
  match s.mesh.band.hop[(s.asn + r) % s.mesh.band.hop.length]? with
  | some c => (s.value 0x5006 0).bytes.contains c
  | none => false

/-- The radio may send under its key and band plan (R297, R317, R510), outside LAST-GASP (Table 16.4). -/
def State.mayTransmit (s : State) (r : Nat) : Bool :=
  r < s.radiosFitted && s.pwr.state != .lastGasp && !s.radioOut r && s.channelOk r && (s.radio r).counter < 0xFFFFFFFF

/-- A frame or an ack of `octets` leaves under the next link counter, which is committed 2¹⁶ ahead of use (R317). -/
def State.transmit (s : State) (r octets : Nat) (ack : Bool) : State :=
  let a := s.airtime octets ack
  let f (x : Radio) : Radio :=
    { x with sent := x.sent.filter (fun t => s.clk.mono < t.1 + 3600 * sec) ++ [(s.clk.mono, a)]
             counter := x.counter + 1
             committed := if x.committed ≤ x.counter + 1 then x.counter + 1 + 65536 else x.committed
             tx := if ack then x.tx else (x.tx + 1) % pow32 }
  ((s.onRadio r f).perfEdge 0x0041 r (a / 40 * 40)).meterBytes (3 + r) 1 octets

/-- Octets of an Enhanced Ack with its time correction and HOLD_OFF. -/
abbrev ackOctets : Nat := 32

/-- Octets of the MPDU of a received frame (R339): its PDUs and what its level puts around them. -/
def uplinkOctets (f : UplinkFrame) : Nat :=
  sumOf (f.pdus.map List.length) + (if f.level = 0 then 13 else if f.level = 6 then 27 else 23)

/-- What became of a cell. -/
inductive CellOutcome where
  | sent | busy | skipped
  deriving DecidableEq, Repr

/-- Use a cell for a frame of `octets` and of a kind of R300: keep the duty, assess the channel (R299), send. -/
def State.useCell (s : State) (r : Nat) (busy : Bool) (octets kind : Nat) : CellOutcome × State :=
  let a := s.airtime octets false
  if s.overDuty r a kind then (.skipped, s.onRadio r (fun x => { x with skipping := max x.skipping (kind + 1) }))
  else
    let s := s.onRadio r (fun x => { x with skipping := min x.skipping kind })
    if s.flag 0x5082 r && busy then
      (.busy, (s.onRadio r (fun x => { x with ccaBusy := (x.ccaBusy + 1) % pow32 })).bump 0x50F9)
    else (.sent, s.transmit r octets false)

/-- Octets of the MPDU around LPP PDUs (R339). -/
def State.mpdu (s : State) (n : Nat) : Nat := n + 23 + (if s.num 0x5007 = 6 then 4 else 0)

/-! ## Hold-off (R321) -/

def State.heldLevel (s : State) (q : Nat) : Bool := s.num 0x500F * s.capacity q ≤ 100 * s.depth q

/-- The HOLD_OFF mask. -/
def State.holdMask (s : State) : Nat :=
  let b1 := s.heldLevel 1
  let b2 := s.heldLevel 2
  bit b1 + 2 * bit b2 + 12 * bit (b1 || b2) + 16 * bit (s.heldLevel 0)

/-- Acks withheld, duplicates and replays are noted; MESH_LOAD tells those of the past second, at most once per second while a bit is
set (Table 8.15). -/
def State.meshLoad (s : State) (withheld dups replays : Nat) : State :=
  let r := s.mesh.load.add s.clk.mono withheld dups replays 0
  if s.holdMask ≠ 0 ∧ r.2 then
    let n := r.1.past 65535
    { s with mesh.load := r.1 }.raise 0x50E2 0x08
      (u8 s.holdMask ++ u8 0 ++ u16 n.1 ++ u16 n.2.1 ++ u16 n.2.2.1 ++ u64 s.now)
  else { s with mesh.load := { r.1 with since := s.mesh.load.since } }

/-- A probe's answer: result, length, round trip in µs, data (R355). -/
def probeAnswer (result trip : Nat) (data : List Byte) : List Byte :=
  u8 result ++ u8 data.length ++ u16 0 ++ u32 trip ++ data

/-! ## Schedules (R310, R351) -/

/-- A relay's own cells: downlink to its children, and the uplink they share. -/
def Node.ownCells (n : Node) : List Cell := n.schedule.filter (fun c => c.neighbour == 0xFFFF)

/-- Two nodes lie within two hops of each other in the tree of the mesh. -/
def State.near2 (s : State) (a b : Node) : Bool :=
  let grand (x y : Node) : Bool := match s.byShort x.parent with | some p => p.parent == y.short | none => false
  a.parent == b.short || b.parent == a.short || a.parent == b.parent || (a.parent < 4 && b.parent < 4) || grand a b ||
    grand b a

/-- Free pairs of timeslot and channel offset among `slots` for a relay. -/
def State.freePairs (s : State) (n : Node) (slots : List Nat) : List (Nat × Nat) :=
  let used := (tvals s.mesh.nodes).flatMap (fun m => if m.eui ≠ n.eui ∧ s.near2 m n then m.ownCells else [])
  let offs := (List.range 16).filter (fun o => s.radiosFitted ≤ o && o < s.mesh.band.hop.length)
  slots.flatMap (fun t => (offs.map (fun o => (t, o))).filter (fun p =>
    !used.any (fun c => c.timeslot == p.1 && c.offset == p.2)))

/-- A relay's own cells: downlink by ascending depth, uplink by descending depth; every second slotframe (slotframe 2) where
no pair is free, with the first pair there is. -/
def State.relayCells (s : State) (n : Node) : List Cell × Bool :=
  let len := s.slotsPer
  let d := min n.depth 3
  let span (i : Nat) : List Nat := (List.range len).filter (fun t => i * len / 3 ≤ t && t < (i + 1) * len / 3)
  let pick (slots : List Nat) (taken : Option Nat) : Option (Nat × Nat) :=
    (s.freePairs n slots).find? (fun p => some p.1 != taken)
  let down := pick (span (d - 1)) none
  let up := pick (span (3 - d)) (down.map Prod.fst)
  match down, up with
  | some a, some b =>
    ([{ slotframe := 1, timeslot := a.1, offset := a.2, options := 9, neighbour := 0xFFFF },
      { slotframe := 1, timeslot := b.1, offset := b.2, options := 6, neighbour := 0xFFFF }], false)
  | _, _ =>
    let o := s.radiosFitted
    if s.mesh.band.hop.length ≤ o then ([], true)
    else
      ([{ slotframe := 2, timeslot := (d - 1) * len / 3, offset := o, options := 9, neighbour := 0xFFFF },
        { slotframe := 2, timeslot := ((4 - d) * len / 3) - 1, offset := o, options := 6, neighbour := 0xFFFF }], true)

/-- The schedule of a node: its own cells if it may be a parent, and its part in its parent's. -/
def State.scheduleFor (s : State) (n : Node) : List Cell × State :=
  let own := if hasBit n.caps 3 ∧ n.depth < s.num 0x5008 then s.relayCells n else ([], false)
  let s := if own.2 then s.bump 0x50FB else s
  let fromParent := match s.byShort n.parent with
    | some p => p.ownCells.map (fun c =>
        { c with options := if hasBit c.options 0 then 2 else 5, neighbour := p.short })
    | none => []
  (own.1 ++ fromParent, s)

def Cell.bytes (c : Cell) : List Byte :=
  u8 c.slotframe ++ u8 c.timeslot ++ u8 c.offset ++ u8 c.options ++ u16 c.neighbour

/-- SCHEDULE, to be installed 1 s from now (Table 8.13; log entry 25). -/
def State.scheduleElement (s : State) (n : Node) : List Byte :=
  element 0x84 (le 5 ((s.asn + sec / s.slotNs) % 2 ^ 40) ++ u8 n.radio ++ u8 0 ++ u8 0 ++
    (n.schedule.take 8).flatMap Cell.bytes)

/-! ## What goes down -/

/-- A PDU of the core waits in queue 0x04. -/
def State.pushOther (s : State) (p : OtherPdu) : State :=
  s.offer 0x04 { flow := 0, graph := 0xFF, flags := 0, enq := 0, origin := s.tb, body := .other p }

/-- A PDU for a node, under its key and the next downlink counter (R336); nothing where there is no key. -/
def State.makePdu (s : State) (e : Eui) (node : Nat) (enc : Bool) (elements : List Byte) :
    Option (List Byte × Nat) × State :=
  match s.nodeKey e with
  | (none, s) => (none, s)
  | (some k, s) =>
    let ctr := (cget s.mesh.downCtr e.toNat + 1) % pow32
    (some (sealPdu k e node ctr enc elements, ctr), { s with mesh.downCtr := cput s.mesh.downCtr e.toNat ctr })

/-- A drive entry (Table 8.12). -/
def State.driveEntry (s : State) (c : DriveCmd) : List Byte :=
  u64 (s.meshOf c.launch) ++ u16 c.code.cur0 ++ u16 c.code.duty0 ++ u16 c.code.cur1 ++ u16 c.code.duty1 ++ u16 c.fade ++
    u16 c.tol ++ u8 c.shape ++ u8 0

/-- Most entries of one DRIVE element (R340). -/
def State.driveMost (s : State) : Nat := if s.mesh.band.phy = 1 then 2 else if s.num 0x5007 = 6 then 3 else 4

/-- Order of R308 and R197: rises, falls, others; within a class the earlier launch. -/
def DriveCmd.rank (c : DriveCmd) : Nat := c.class_ * 2 ^ 64 + c.launch

/-- A frame's class: the most urgent of its entries (R308). -/
def Flight.class_ (f : Flight) : Nat := ((minOf (f.entries.map (fun c => c.class_))).getD 2)

/-- Delivery of a drive PDU is confirmed: revisions in place it carried are delivered too (R281, R315). -/
def State.delivered (s : State) (f : Flight) : State :=
  { s with mesh.flights := s.mesh.flights.filter (fun g => g.id != f.id)
           bs.revisions := s.bs.revisions.filter (fun r =>
             !f.entries.any (fun c => c.point == r.point && c.launch == r.launch && c.source == 5)) }

end Sys2Proof.Machine
end

