-- ==== Sys2Proof/Machine/Recon.lean ====
section
/-!
DEFINITION. Reconciliation (R390–R396): what a window's reports and metered values say of a circuit, the learned voltage
offsets, and the fit that localises a leak. Quantities are exact rationals; what is reported is rounded to the nearest unit
(log entry 29).
-/

namespace Sys2Proof.Machine

/-- The integer square root, bit by bit from bit `k - 1`. -/
def isqrtFrom (k root n : Nat) : Nat :=
  match k with
  | 0 => root
  | k + 1 => let r := root + 2 ^ k; if r * r ≤ n then isqrtFrom k r n else isqrtFrom k root n

/-- The integer square root of a number below 2²⁵⁶. -/
def isqrt (n : Nat) : Nat := isqrtFrom 128 0 n

/-- The square root rounded to the nearest integer. -/
def isqrtNear (n : Nat) : Nat := (isqrt (4 * n) + 1) / 2

/-- `a / b` rounded to the nearest integer. -/
def nearDiv (a b : Int) : Int := if b = 0 then 0 else (2 * a + b) / (2 * b)

/-- A rational rounded to the nearest integer. -/
def nearRat (x : Rat) : Int := nearDiv x.num x.den

/-- A number held within the bounds of a field. -/
def clampTo (lo hi x : Int) : Int := max lo (min hi x)

/-! ## Spans -/

def Meter.span (m : Meter) (p : Pid) : Option Span := tget m.spans (pointKey p)

/-- Spans from the cabinet to a point. -/
def Meter.trail (m : Meter) (fuel : Nat) (p : Pid) : List Span :=
  match fuel with
  | 0 => []
  | fuel + 1 =>
    match m.span p with
    | some x => if pidPoint x.upstream = 255 then [x] else m.trail fuel x.upstream ++ [x]
    | none => []

def Meter.path (m : Meter) (p : Pid) : List Span := m.trail 256 p

/-- Resistance in Ω of spans. -/
def ohms (l : List Span) : Rat := (sumOf (l.map (fun (x : Span) => x.rLoop)) : Rat) / 1000

/-- ρ(k, a): resistance of the path that two points share. -/
def Meter.shared (m : Meter) (k a : Pid) : Rat :=
  ohms ((m.path k).filter (fun x => (m.path a).any (fun y => y.point == x.point)))

/-- The span records of a circuit. -/
def Meter.spansOf (m : Meter) (c : Nat) : List Span := (tvals m.spans).filter (fun x => pidCircuit x.point == c)

/-- The Meter with `p` out of the span tree: points below it take its upstream, with the two resistances added (R392). -/
def Meter.dropSpan (m : Meter) (p : Pid) : Meter :=
  match m.span p with
  | none => { m with offsets := tdel m.offsets (pointKey p) }
  | some x =>
    let moved := (tvals m.spans).filter (fun y => y.upstream == p)
    { m with
      spans := moved.foldl (fun t y => tput t (pointKey y.point) { y with upstream := x.upstream, rLoop := y.rLoop + x.rLoop })
        (tdel m.spans (pointKey p))
      offsets := moved.foldl (fun t y => tdel t (pointKey y.point)) (tdel m.offsets (pointKey p)) }

/-- The EUI-64 mapped to the point of a key. -/
def mappedTo (t : Table Pid) (k : Nat) : Option Nat := (t.find? (fun e => pointKey e.2 == k)).map Prod.fst

/-- The node map changes: offsets of points whose mapping changes return to 0 (R395). -/
def State.setMap (s : State) (t : Table Pid) : State :=
  { s with mesh.map := t, mt.offsets := tkeep s.mt.offsets (fun k _ => mappedTo t k == mappedTo s.mesh.map k) }

/-! ## Node reports of a window (R391) -/

def Node.report? (n : Node) (m : Ns) : Option (Nat × Nat) := (n.reports.find? (fun x => x.1 == m)).map Prod.snd

/-- A node keeps the reports that windows not yet judged can need. -/
def State.keepReport (s : State) (n : Node) (m : Ns) (mwh v : Nat) : Node :=
  let reach := (2 * s.num 0x6010 + s.num 0x6011) * sec
  { n with reports := (n.reports.filter (fun x => x.1 != m && m ≤ x.1 + reach)) ++ [(m, mwh, v)] }

/-- Joined nodes of a circuit, silent ones among them (log entry 30). -/
def State.circuitNodes (s : State) (c : Nat) : List Node :=
  (tvals s.mesh.nodes).filter (fun n =>
    (n.state == 1 || n.state == 2) && pidPrefix n.point == s.ownPrefix && pidCircuit n.point == c)

/-- The window of a circuit that ends at `w`, `t` ns long, as its ends were metered. -/
def MeterCircuit.window (m : MeterCircuit) (w t : Ns) : Option (WindowEnd × WindowEnd) :=
  match m.recon.ends.find? (fun e => e.mesh + t == w), m.recon.ends.find? (fun e => e.mesh == w) with
  | some a, some b => some (a, b)
  | _, _ => none

/-- Both boundary reports of a node are there. -/
def Node.hasWindow (n : Node) (w t : Ns) : Bool := (n.report? (w - t)).isSome && (n.report? w).isSome

/-- A point as a window shows it: its energy in mWh, mean voltage in V, and current in A. -/
structure PointWindow where
  point : Pid
  energy : Nat
  volts : Rat
  amps : Rat

/-- A point's part of a window. A mean voltage of 0 gives no current the rule states: a free value in mA (log entry 3). -/
def State.pointWindow (s : State) (n : Node) (w t : Ns) : PointWindow × State :=
  let e := match n.report? (w - t), n.report? w with
    | some a, some b => (b.1 + pow32 - a.1) % pow32
    | _, _ => 0
  let vs := ((n.reports.filter (fun x => w < x.1 + t && x.1 ≤ w)).map (fun x => x.2.2))
  let v : Rat := if vs.isEmpty then 0 else (sumOf vs : Rat) / (100 * vs.length)
  if v = 0 then
    let d := s.draw
    ({ point := n.point, energy := e, volts := v, amps := (d.1 : Rat) / 1000 }, d.2)
  else ({ point := n.point, energy := e, volts := v, amps := (e : Rat) * (36 / 10 : Rat) / ((t / sec : Nat) : Rat) / v }, s)

def State.pointWindows (s : State) (ns : List Node) (w t : Ns) : List PointWindow × State :=
  ns.foldl (fun acc n => let r := acc.2.pointWindow n w t; (acc.1 ++ [r.1], r.2)) ([], s)

/-! ## Cable loss, drops, residuals -/

/-- The current of a span in A: what the points at or beyond it draw. -/
def Meter.spanAmps (m : Meter) (ps : List PointWindow) (x : Span) : Rat :=
  ((ps.filter (fun k => (m.path k.point).any (fun y => y.point == x.point))).map PointWindow.amps).foldl (· + ·) 0

/-- E_c in µWh: the sum of I² × r × T over the spans. -/
def Meter.cableLoss (m : Meter) (c : Nat) (ps : List PointWindow) (t : Ns) : Int :=
  let watts : Rat := ((m.spansOf c).map (fun (x : Span) =>
    let i := m.spanAmps ps x; i * i * ((x.rLoop : Rat) / 1000))).foldl (· + ·) 0
  nearRat (watts * ((t / sec : Nat) : Rat) * (10000 / 36 : Rat))

/-- The expected voltage at a point. -/
def Meter.expected (m : Meter) (ps : List PointWindow) (v0 : Rat) (p : Pid) : Rat :=
  v0 - ((m.path p).map (fun (x : Span) => m.spanAmps ps x * ((x.rLoop : Rat) / 1000))).foldl (· + ·) 0

/-- The learned offset of a point in V. -/
def Meter.offset (m : Meter) (p : Pid) : Rat := (((tget m.offsets (pointKey p)).getD 0 : Int) : Rat) / 1000000

/-- A CLEAN window moves the offset of each point by a sixteenth (R395). -/
def Meter.learn (m : Meter) (ps : List PointWindow) (v0 : Rat) : Meter :=
  { m with offsets := (ps.filter (fun k => (m.span k.point).isSome)).foldl (fun t k =>
      let o := m.offset k.point
      tput t (pointKey k.point) (nearRat ((o + (m.expected ps v0 k.point - k.volts - o) / 16) * 1000000))) m.offsets }

/-! ## Localisation (R396) -/

/-- A candidate's outcome: current, resistance and error of the fit, with the span (its two points; no downstream point
beyond a leaf). -/
structure Fit where
  amps : Rat
  rho : Rat
  err : Rat
  up : Pid
  down : Option Pid
  rhoA : Rat
  rhoB : Rat

/-- Fit the candidate span from `a` to `b`, or beyond the leaf `a`, to the residuals. Points beside a span from the cabinet
share no resistance with it, so that the quotient is not stated: a free value in mA (log entry 3). -/
def State.fitSpan (s : State) (rs : List (Pid × Rat)) (even : Rat) (a : Pid) (b : Option Pid) : Fit × State :=
  let m := s.mt
  let far (k : Pid) : Bool := match b with
    | some b => (m.path k).any (fun y => y.point == b)
    | none => false
  let u := rs.filter (fun r => !far r.1)
  let d := rs.filter (fun r => far r.1)
  let num : Rat := (u.map (fun (r : Pid × Rat) => r.2 * m.shared r.1 a)).foldl (· + ·) 0
  let den : Rat := (u.map (fun (r : Pid × Rat) => m.shared r.1 a * m.shared r.1 a)).foldl (· + ·) 0
  let pick : Rat × State :=
    if u.length < 2 then (even, s)
    else if den = 0 then (let f := s.draw; ((f.1 : Rat) / 1000, f.2)) else (num / den, s)
  let i := pick.1
  let rhoA := ohms (m.path a)
  let rhoB := match b with | some b => ohms (m.path b) | none => rhoA
  let mean : Rat := (d.map Prod.snd).foldl (· + ·) 0 / d.length
  let rho := if d.isEmpty then rhoA else max rhoA (min rhoB (mean / i))
  let sq (x : Rat) : Rat := x * x
  let err := (u.map (fun (r : Pid × Rat) => sq (r.2 - i * m.shared r.1 a))).foldl (· + ·) 0 +
    (d.map (fun (r : Pid × Rat) => sq (r.2 - i * rho))).foldl (· + ·) 0
  ({ amps := i, rho := rho, err := err, up := a, down := b, rhoA := rhoA, rhoB := rhoB }, pick.2)

/-- Every candidate: the spans of the circuit, and beyond each point nothing hangs from. -/
def Meter.candidates (m : Meter) (c : Nat) : List (Pid × Option Pid) :=
  let l := m.spansOf c
  l.map (fun x => (x.upstream, some x.point)) ++
    (l.filter (fun x => l.all (fun y => y.upstream != x.point))).map (fun x => (x.point, none))

/-- The candidate with the least error, the first of equals. -/
def bestFit (l : List Fit) : Option Fit :=
  match l with
  | [] => none
  | f :: rest => some (rest.foldl (fun b x => if x.err < b.err then x else b) f)

/-- The position in cm along the section two points share, 0xFFFFFFFF when unknown. -/
def State.leakPosition (s : State) (a : Pid) (b : Option Pid) (share : Rat) : Nat :=
  match b with
  | none => 0xFFFFFFFF
  | some b =>
    match s.lampOf a, s.lampOf b, tget s.prom.places (pointKey a), tget s.prom.places (pointKey b) with
    | some la, some lb, some xa, some xb =>
      if la.section_ = lb.section_ then (nearRat ((xa : Rat) + share * (((xb : Int) - (xa : Int) : Int) : Rat))).toNat
      else 0xFFFFFFFF
    | _, _, _, _ => 0xFFFFFFFF

/-- The residuals of a window's points in V, counted in whole mV, as Table 9.9 works them (log entry 29). -/
def State.residuals (s : State) (ps : List PointWindow) (v0 : Rat) : List (Pid × Rat) :=
  (ps.filter (fun k => (s.mt.span k.point).isSome)).map (fun k =>
    (k.point, (nearRat ((s.mt.expected ps v0 k.point - k.volts - s.mt.offset k.point) * 1000) : Rat) / 1000))

/-- A result with the leak placed, if a candidate explains it with at least mt.loc_min_ma. -/
def State.localise (s : State) (c : Nat) (ps : List PointWindow) (v0 even : Rat) (x : Recon) : Recon × State :=
  let rs := s.residuals ps v0
  let r := (s.mt.candidates c).foldl (fun (acc : List Fit × State) e =>
    let f := acc.2.fitSpan rs even e.1 e.2; (acc.1 ++ [f.1], f.2)) (([] : List Fit), s)
  match bestFit r.1 with
  | none => (x, r.2)
  | some f =>
    if f.amps * 1000 < (s.num 0x6015 : Rat) then (x, r.2)
    else
      let share : Rat := if f.rhoB = f.rhoA then 0 else (f.rho - f.rhoA) / (f.rhoB - f.rhoA)
      ({ x with loc := if f.down.isSome then 1 else 2, fraction := (nearRat (share * 10000)).toNat, upstream := f.up
                downstream := f.down.getD 0, iX := (clampTo 0 65535 (nearRat (f.amps * 1000))).toNat
                fit := min 65535 (isqrtNear (f.err / rs.length * 1000000).floor.toNat)
                position := s.leakPosition f.up f.down share }, r.2)

/-! ## Judging (R393, R394) -/

def Recon.none_ : Recon :=
  { state := 0, start := 0, finish := 0, reported := 0, expected := 0, eM := 0, eL := 0, eC := 0, eU := 0, loc := 0,
    fraction := 0, upstream := 0, downstream := 0, iX := 0, fit := 0, position := 0xFFFFFFFF, run := 0, raised := false,
    ends := [], judgedTo := 0 }

/-- Table 9.14. -/
def Recon.bytes (x : Recon) (c : Nat) : List Byte :=
  u8 c ++ u8 x.state ++ u16 x.reported ++ u16 x.expected ++ u16 0 ++ u64 x.start ++ u64 x.finish ++ leI 8 x.eM ++
    leI 8 x.eL ++ leI 8 x.eC ++ leI 8 x.eU ++ u8 x.loc ++ u8 0 ++ u16 x.fraction ++ pidBytes x.upstream ++
    pidBytes x.downstream ++ u16 x.iX ++ u16 x.fit ++ u32 x.position

def Registers.zero : Registers :=
  { imp := 0, exp := 0, lag := 0, lead := 0, impRes := 0, expRes := 0, lagRes := 0, leadRes := 0 }

def Summary.zero : Summary :=
  { flags := 0, cycles := 0, v2 := 0, freq := 0, i2 := 0, p := 0, q1 := 0, p1 := 0, dImp := 0, dExp := 0, dLag := 0,
    dLead := 0, thdV := 0, thdI := 0, gain := 1 }

def RecordSum.zero : RecordSum :=
  { base := .zero, cycles := 0, v2 := 0, i2 := 0, p := 0, q1 := 0, flags := 0, gain := 0, pMin := 0, pMax := 0, seconds := 0, on := 0 }

def MeterCircuit.fresh : MeterCircuit :=
  { regs := .zero, prev := .zero, cycleStart := 0, cycleEnd := 0, row := default, gain := 0, peaks := [], sinceSwitch := 8, settling := 0,
    lastI := 0, steadyI := true, last := default, gapNs := 0, gapCycles := 0, summary := .zero, folded := none,
    ledger := none, vSum := 0, vCount := 0, recon := .none_, second := .zero, minute := .zero }

def State.metered (s : State) (c : Nat) : MeterCircuit := (tget s.mt.circuits c).getD .fresh

def State.setMetered (s : State) (c : Nat) (x : MeterCircuit) : State :=
  { s with mt.circuits := tput s.mt.circuits c x }

def State.setRecon (s : State) (c : Nat) (x : Recon) : State := s.setMetered c { s.metered c with recon := x }

/-- A judged window is recorded in the History Store, and raises RECON_ANOMALY where `tell`. -/
def State.reconTold (s : State) (c : Nat) (x : Recon) (tell : Bool) : State :=
  let s := (s.setRecon c x).hist x.finish (s.circuitPid c) 0x0C (x.bytes c)
  if tell then s.raise 0x60E1 0x0E (x.bytes c) else s

/-- Every point with a lamp record on the circuit has a span record. -/
def State.spansComplete (s : State) (c : Nat) : Bool :=
  (s.points.filter (fun p => pidCircuit p == c)).all (fun p => (s.mt.span p).isSome)

/-- ANOMALY, NEGATIVE or CLEAN. -/
def State.verdict (s : State) (eU eM : Int) (seconds : Nat) : Nat :=
  let big (x : Int) : Bool := (s.num 0x6012 * 1000 * seconds : Nat) < x * 36 && (s.num 0x6013 : Int) * eM < x * 10000
  if big eU then 2 else if big (-eU) then 3 else 1

/-- Judge one window of a circuit. -/
def State.judgeWindow (s : State) (c : Nat) (a b : WindowEnd) : State :=
  let t := b.mesh - a.mesh
  let m := s.metered c
  let ns := s.circuitNodes c
  let got := ns.filter (fun n => n.hasWindow b.mesh t)
  let x : Recon :=
    { m.recon with
      start := s.stampOfMesh a.mesh, finish := s.stampOfMesh b.mesh, reported := got.length, expected := ns.length
      eM := ((b.imp : Int) - a.imp) - ((b.exp : Int) - a.exp), eL := 0, eC := 0, eU := 0, loc := 0, fraction := 0
      upstream := 0, downstream := 0, iX := 0, fit := 0, position := 0xFFFFFFFF, judgedTo := b.mesh
      ends := m.recon.ends.filter (fun e => b.mesh ≤ e.mesh) }
  if got.length < ns.length then (s.bump 0x60F6).reconTold c { x with state := 4 } false
  else
    let r := s.pointWindows ns b.mesh t
    let ps := r.1
    let s := r.2
    let full := s.spansComplete c
    let eL : Int := (1000 * sumOf (ps.map PointWindow.energy) : Nat)
    let eC : Int := if full then s.mt.cableLoss c ps t else 0
    let eU := x.eM - eL - eC
    let n := b.vCount - a.vCount
    let v0 : Rat := if n = 0 then 0 else ((b.vSum - a.vSum : Nat) : Rat) / (100 * n)
    let st := s.verdict eU x.eM (t / sec)
    let x := { x with eL := eL, eC := eC, eU := eU, state := st }
    if st = 1 then
      let s := if full then { s with mt := s.mt.learn ps v0 } else s
      s.reconTold c { x with run := 0, raised := false } x.raised
    else
      let run := x.run + 1
      let tell := s.num 0x6014 ≤ run && !x.raised
      let x := { x with run := run, raised := x.raised || tell }
      if tell && st == 2 && full then
        let r :=
          if v0 = 0 then (let d := s.draw; d.2.localise c ps v0 ((d.1 : Rat) / 1000) x)
          else s.localise c ps v0 ((eU : Rat) * (36 / 10000 : Rat) / ((t / sec : Nat) : Rat) / v0) x
        r.2.reconTold c r.1 true
      else s.reconTold c x tell

/-- The first window of a circuit that has been metered and waits to be judged. -/
def State.openWindow (s : State) (c : Nat) : Option (WindowEnd × WindowEnd) :=
  let m := s.metered c
  (m.recon.ends.filter (fun e => m.recon.judgedTo < e.mesh)).findSome? (fun e => m.window e.mesh (s.num 0x6010 * sec))

/-- Reconciliation watches the circuit (R390). -/
def State.reconciles (s : State) (c : Nat) : Bool := s.circuitUsed c && s.flag 0x6095 c

/-- Judge what can be judged: a window with every report in, or, where `late`, one mt.rec_wait past its end (R393). -/
def State.judgeReady (s : State) (c : Nat) (late : Bool) : State :=
  if !s.reconciles c then s
  else match s.openWindow c with
    | none => s
    | some (a, b) =>
      let full := (s.circuitNodes c).all (fun n => n.hasWindow b.mesh (b.mesh - a.mesh))
      if full || (late && b.mesh + s.num 0x6011 * sec ≤ s.meshTime) then s.judgeWindow c a b else s

/-- A node's ENERGY report has come (R391, R393). -/
def State.energyReport (s : State) (n : Node) (mesh : Ns) (mwh v : Nat) : State :=
  (s.putNode (s.keepReport n mesh mwh v)).judgeReady (pidCircuit n.point) false

end Sys2Proof.Machine
end

