-- ==== Sys2Proof/Machine/Plan.lean ====
section
/-!
DEFINITION. The commands and events of group 0x30 (R121–R170): overrides, lamp types and records, targets, nights, diagnostics.
-/

namespace Sys2Proof.Machine

/-! ## Overrides -/

/-- Step 1 of R140: a field is out of range, or the target breaks R25. -/
def State.overrideRefused (s : State) (p : List Byte) : Option Nat :=
  let kind := fld p 2 1
  let mode := fld p 3 1
  let flags := fld p 11 1
  let start := fld p 16 8
  let cct := fld p 14 2
  if start = 0 ∨ fld p 24 8 ≤ start ∨ 255 < fld p 0 2 ∨ 1 < kind ∨ mode < 1 ∨ 3 < mode ∨ 10000 < fld p 12 2 ∨
      60000 < fld p 36 2 ∨ (if hasBit flags 1 then cct < 1800 ∨ 5000 < cct else cct ≠ 0) then some stRange
  else if kind = 1 then (if fld p 4 6 ≠ 0 then some stRange else none)
  else if fld p 10 1 ≠ 0 then some stRange
  else s.pidRefused (pidAt p 4)

/-- Nanoseconds in 24 hours. -/
abbrev day24 : Nat := 86400 * sec

def overrideAt (p : List Byte) (start : Ns) : Override :=
  { handle := fld p 0 2, kind := fld p 2 1, mode := fld p 3 1, target := pidAt p 4, section_ := fld p 10 1,
    flags := fld p 11 1 % 4, level := fld p 12 2, cct := fld p 14 2, start := start, finish := fld p 24 8,
    lateTol := fld p 32 4, fade := fld p 36 2, endFade := fld p 36 2, begun := false, startSent := false, endSent := false }

/-- Overrides of other handles stay; one on the handle ends where the new one starts (R142), and one that would not have begun by then
never does. `sent` says that the commands for that instant are issued now. -/
def replaceHandle (h : Nat) (start : Ns) (sent : Bool) (l : List Override) : List Override :=
  (l.filter (fun o => o.handle != h || decide (o.start < start))).map (fun o =>
    if o.handle = h ∧ start < o.finish then { o with finish := start, endSent := sent } else o)

/-- The instant is near enough for its commands to be issued now: lp.override_lead ahead. -/
def State.near (s : State) (t : Ns) : Bool := t ≤ s.tb + s.num 0x3023 * ms

/-- One command for a point at an instant, the first of those asked for. -/
def onePerPoint (cs : List DriveCmd) : List DriveCmd :=
  cs.foldl (fun l c => if l.any (fun d => d.point == c.point && d.launch == c.launch) then l else l ++ [c]) []

/-- The overrides whose effect a change at `t` ends: those on the handle that have not ended by then. -/
def State.endedBy (s : State) (named : Override → Bool) (t : Ns) : List Override :=
  s.plan.overrides.filter (fun o => named o && decide (t < o.finish) && (decide (o.start < t) || o.startSent))

def overrideSetBody (r : Req) (s : State) : Result :=
  let p := r.payload
  match s.overrideRefused p with
  | some st => fail st s
  | none =>
    let start := fld p 16 8
    let finish := fld p 24 8
    let tol := fld p 32 4
    let admitted := s.admittedTb r
    let eff := max start (admitted + s.num 0x3023 * ms)
    if finish ≤ admitted ∨ (tol ≠ 0xFFFFFFFF ∧ start + tol * ms < admitted) then fail stTooLate s
    else if hasBit (fld p 11 1) 0 ∧ eff + day24 < finish then fail stRange s
    else
      let near := s.near eff
      let o := { overrideAt p eff with startSent := near }
      let before := s.endedBy (fun x => x.handle == o.handle) eff
      let s := { s with plan.overrides := insertBy (fun x => x.handle) o (replaceHandle o.handle eff near s.plan.overrides) }
      let s := s.demandAll
      let cmds := (if eff < finish then s.overrideCmds o eff o.fade else []) ++
        before.flatMap (fun x => s.overrideCmds x eff x.endFade)
      s.planAnswer r (if near then onePerPoint cmds else []) (u64 eff ++ u16 (s.covered o).length ++ u16 0)

def overrideSetCommand : Command :=
  { opcode := 0x3001, access := .holder, firstLane := 1, layout := exactly 40, body := overrideSetBody }

/-- OVERRIDE_SET (R140–R144). -/
def execOverrideSet (r : Req) (s : State) : Host.Outcome State Fault Refusal := shotas overrideSetCommand r s

/-- End an override at `t` with a fade; one that would not have begun by then is withdrawn (R145), and one that has ended by then ends
as it would have. -/
def endOverride (t : Ns) (fade : Nat) (o : Override) : Option Override :=
  if t ≤ o.start then none
  else if t < o.finish then some { o with finish := t, endFade := fade, endSent := true } else some o

def overrideClearBody (r : Req) (s : State) : Result :=
  let h := fld r.payload 0 2
  let fade := fld r.payload 2 2
  if (255 < h ∧ h ≠ 0xFFFF) ∨ 60000 < fade then fail stRange s
  else
    let t := s.admittedTb r + s.num 0x3023 * ms
    let named (o : Override) : Bool := h == 0xFFFF || o.handle == h
    let mine := s.plan.overrides.filter named
    let cmds := onePerPoint ((s.endedBy named t).flatMap (fun o => s.overrideCmds o t fade))
    let s := { s with plan.overrides := s.plan.overrides.filterMap (fun o =>
      if named o then endOverride t fade o else some o) }.demandAll
    s.planAnswer r cmds (u16 ((mine.map (fun o => o.handle)).dedup).length ++ u16 0)

def overrideClearCommand : Command :=
  { opcode := 0x3002, access := .holder, firstLane := 1, layout := exactly 4, body := overrideClearBody }

/-- OVERRIDE_CLEAR (R145). -/
def execOverrideClear (r : Req) (s : State) : Host.Outcome State Fault Refusal := shotas overrideClearCommand r s

def overrideListBody (r : Req) (s : State) : Result :=
  ok (page (s.plan.overrides.map (fun o => (o.handle, o.entry))) (fld r.payload 0 2) 36) s

def overrideListCommand : Command :=
  { opcode := 0x3003, access := .holder, firstLane := 1, layout := exactly 4, body := overrideListBody }

/-- OVERRIDE_LIST (Table 4.8). -/
def execOverrideList (r : Req) (s : State) : Host.Outcome State Fault Refusal := shotas overrideListCommand r s

/-- OVERRIDE_START (R146): an override whose start commands were still to be issued has them issued now. -/
def execOverrideStart (dt : Ns) (handle : Nat) (s : State) : Host.Outcome State Fault Refusal :=
  event dt (fun s =>
    match s.plan.overrides.find? (fun o => o.handle == handle && !o.begun && decide (o.start ≤ s.tb)) with
    | none => s
    | some o =>
      let s := (s.onOverride handle o.start (fun o => { o with begun := true, startSent := true })).floorExempt o 1
      let s := if o.startSent then s
        else s.planChange (s.overrideCmds o (s.tb + s.num 0x3023 * ms) o.fade) none
      s.demandAll) s

/-- OVERRIDE_END (R145, R146). -/
def execOverrideEnd (dt : Ns) (handle : Nat) (s : State) : Host.Outcome State Fault Refusal :=
  event dt (fun s =>
    match s.plan.overrides.find? (fun o => o.handle == handle && decide (o.finish ≤ s.tb)) with
    | none => s
    | some o =>
      let s := { s with plan.overrides := s.plan.overrides.filter (fun x => x != o) }
      let s := if o.begun then s.floorExempt o 2 else s
      let s := if o.endSent then s
        else s.planChange (s.overrideCmds o (s.tb + s.num 0x3023 * ms) o.endFade) none
      s.demandAll) s

/-! ## Lamp types and records (Tables 4.5 and 4.6) -/

def typeAt (b : List Byte) : LampType :=
  { type := fld b 0 1, channels := fld b 1 1, crossover := fld b 2 2, droop := fld b 4 2, dMin := fld b 6 2,
    diagMs := fld b 8 2, knee := fld b 10 1, slope := fld b 11 1 }

/-- The factory type defaults (Table 4.5, R350): crossover 2,000; the figures the spec does not give are log entry 28. -/
def LampType.factory (type channels : Nat) : LampType :=
  { type := type, channels := channels, crossover := 2000, droop := Config.factoryType 0, dMin := Config.factoryType 1,
    diagMs := Config.factoryType 2, knee := 0, slope := 0 }

def LampType.bytes (t : LampType) : List Byte :=
  u8 t.type ++ u8 t.channels ++ u16 t.crossover ++ u16 t.droop ++ u16 t.dMin ++ u16 t.diagMs ++ u8 t.knee ++ u8 t.slope

def typeOk (t : LampType) : Bool :=
  t.type < 16 && 1 ≤ t.channels && t.channels ≤ 2 && 500 ≤ t.crossover && t.crossover ≤ 5000 && t.droop ≤ 5000 &&
    t.dMin ≤ 10000 && 10 ≤ t.diagMs && t.diagMs ≤ 2000 && (t.knee == 0 || (40 ≤ t.knee && t.knee ≤ 110)) &&
    (t.slope == 0 || (5 ≤ t.slope && t.slope ≤ 100))

/-- A node's configuration has changed: it is sent LEAVE with reason 2 (R329). -/
def State.reconfigure (s : State) (ps : List Pid) : State :=
  ps.foldl (fun s p => match s.nodeAt p with
    | some n => s.putNode { n with leave := if n.leave = 1 then 1 else 2, leaveSent := false }
    | none => s) s

def typeSetBody (r : Req) (s : State) : Result :=
  let ts := (entries 12 r.payload).map typeAt
  let used (t : LampType) : List Pid := (s.plan.lamps.filter (fun e => e.2.type == t.type)).map (fun e => e.2.point)
  if ts.isEmpty ∨ 16 < ts.length ∨ !ts.all typeOk then fail stRange s
  else if ts.any (fun (t : LampType) => match tget s.plan.types t.type with
      | some o => o.channels != t.channels && !(used t).isEmpty
      | none => false) then fail stState s
  else
    let ps := ts.flatMap used
    let s := { s with plan.types := ts.foldl (fun a (t : LampType) => tput a t.type t) s.plan.types }
    (s.reconfigure ps).relaunchAnswer r ps []

def typeSetCommand : Command :=
  { opcode := 0x3010, access := .holder, firstLane := 1, layout := counted 12, body := typeSetBody }

/-- TYPE_SET (R168, R157). -/
def execTypeSet (r : Req) (s : State) : Host.Outcome State Fault Refusal := shotas typeSetCommand r s

def typeGetBody (_ : Req) (s : State) : Result :=
  ok (u16 16 ++ u16 0 ++ ((List.range 16).map (fun i =>
    ((tget s.plan.types i).map LampType.bytes).getD (LampType.factory i 0).bytes)).flatten) s

def typeGetCommand : Command :=
  { opcode := 0x3011, access := .holder, firstLane := 1, layout := isEmpty, body := typeGetBody }

/-- TYPE_GET (Table 4.8). -/
def execTypeGet (r : Req) (s : State) : Host.Outcome State Fault Refusal := shotas typeGetCommand r s

def lampAt (b : List Byte) : Lamp :=
  { point := pidAt b 0, section_ := fld b 6 1, type := fld b 7 1, flux0 := fld b 8 2, flux1 := fld b 10 2,
    cct0 := fld b 12 2, cct1 := fld b 14 2 }

def Lamp.bytes (l : Lamp) : List Byte :=
  pidBytes l.point ++ u8 l.section_ ++ u8 l.type ++ u16 l.flux0 ++ u16 l.flux1 ++ u16 l.cct0 ++ u16 l.cct1

/-- Why a lamp record is refused (R168, Table 4.6). -/
def State.lampRefused (s : State) (l : Lamp) : Option Nat :=
  let fields (channels : Nat) : Bool :=
    5000 ≤ l.flux0 && l.flux0 ≤ 15000 && 1500 ≤ l.cct0 && l.cct0 ≤ 6500 &&
      (if channels = 2 then 5000 ≤ l.flux1 && l.flux1 ≤ 15000 && l.cct0 < l.cct1 && l.cct1 ≤ 6500
       else l.flux1 == 0 && l.cct1 == 0)
  match tget s.plan.types l.type with
  | none => some stRange
  | some t => if !s.flag 0x30A0 l.section_ || !fields t.channels then some stRange else s.pointRefused l.point

/-- Points of the light-point table: those with a lamp record or a joined node (R330). -/
def State.tablePoints (s : State) (lamps : Table Lamp) : List Nat :=
  (lamps.map Prod.fst ++ (s.mesh.nodes.filter (fun e => e.2.state == 1 || e.2.state == 2)).map
    (fun e => pointKey e.2.point)).dedup

/-- A lamp record is stored: a new one's channels count their lit time from now (R164); a moved point loses its place
(R173). -/
def State.storeLamp (s : State) (l : Lamp) : State :=
  let k := pointKey l.point
  let old := tget s.plan.lamps k
  let s := match old with
    | some o => if o.section_ ≠ l.section_ then
        let s := s.graphChange [] [] [l.point] []
        { s with prom.places := tdel s.prom.places k } else s
    | none => s
  let channels := ((tget s.plan.types l.type).map (fun t => t.channels)).getD 1
  let s := { s with plan.lamps := tput s.plan.lamps k l }
  let fresh : ChannelDiag := { state := 3, litRef := s.plan.litTime, last := 0, pulseUntil := none }
  (List.range 2).foldl (fun s ch =>
    if ch < channels then
      (match tget s.plan.diag (k * 2 + ch), old with
        | some _, some _ => s
        | _, _ => { s with plan.diag := tput s.plan.diag (k * 2 + ch) fresh })
    else { s with plan.diag := tdel s.plan.diag (k * 2 + ch) }) s

def lampSetBody (r : Req) (s : State) : Result :=
  let ls := (entries 16 r.payload).map lampAt
  if ls.isEmpty then fail stRange s
  else match firstRefusal (ls.map s.lampRefused) with
    | some st => fail st s
    | none =>
      let n := (s.tablePoints (ls.foldl (fun t l => tput t (pointKey l.point) l) s.plan.lamps)).length
      if 4096 < n then fail stRange (s.bump 0x10F2)
      else if s.pointsFitted < n then fail stAbsent (s.bump 0x10F2)
      else
        let ps := ls.map (fun l => l.point)
        let moved := ls.filter (fun l => ((s.lampOf l.point).map (fun o => o.type)) != some l.type)
        let s := ls.foldl State.storeLamp s
        (s.reconfigure (moved.map (fun l => l.point))).demandAll.relaunchAnswer r ps []

def lampSetCommand : Command :=
  { opcode := 0x3012, access := .holder, firstLane := 1, layout := counted 16, body := lampSetBody }

/-- LAMP_SET (R168, R157). -/
def execLampSet (r : Req) (s : State) : Host.Outcome State Fault Refusal := shotas lampSetCommand r s

def lampGetBody (r : Req) (s : State) : Result :=
  ok (page (ordinal s.plan.lamps (fun e => e.2.bytes)) (fld r.payload 0 2) 91) s

def lampGetCommand : Command :=
  { opcode := 0x3013, access := .holder, firstLane := 1, layout := exactly 4, body := lampGetBody }

/-- LAMP_GET (Table 4.8). -/
def execLampGet (r : Req) (s : State) : Host.Outcome State Fault Refusal := shotas lampGetCommand r s

/-- A point's records go, and its node is sent LEAVE with reason 1 (R169, R173, R328, R392). -/
def State.removeLamp (s : State) (p : Pid) : State :=
  let k := pointKey p
  let s := s.graphChange [] [] [p] []
  let s := { s with plan.lamps := tdel s.plan.lamps k, plan.diag := tdel (tdel s.plan.diag (k * 2)) (k * 2 + 1),
                    plan.temps := tdel s.plan.temps k, prom.places := tdel s.prom.places k,
                    prom.cover := tdel s.prom.cover k, mt := s.mt.dropSpan p }
  let s := s.setMap (tkeep s.mesh.map (fun _ v => v != p))
  match s.nodeAt p with
  | some n => (s.putNode { n with leave := 1, leaveSent := false }).nodeState n.eui 3
  | none => s

def lampRemoveBody (r : Req) (s : State) : Result :=
  let ps := ((entries 6 r.payload).map (fun b => pidAt b 0)).dedup
  if ps.isEmpty then fail stRange s
  else match firstRefusal (ps.map s.pointRefused) with
    | some st => fail st s
    | none =>
      let gone := ps.filter (fun p => (s.lampOf p).isSome)
      ok (u16 gone.length ++ u16 0) (gone.foldl State.removeLamp s).demandAll

def lampRemoveCommand : Command :=
  { opcode := 0x3014, access := .holder, firstLane := 1, layout := counted 6, body := lampRemoveBody }

/-- LAMP_REMOVE (R169). -/
def execLampRemove (r : Req) (s : State) : Host.Outcome State Fault Refusal := shotas lampRemoveCommand r s

/-! ## Queries -/

/-- A pulse of the channel is in progress. -/
def State.inPulse (s : State) (k ch : Nat) : Bool :=
  match (tget s.plan.diag (k * 2 + ch)).bind (fun d => d.pulseUntil) with
  | some e => decide (s.tb < e)
  | none => false

/-- The TARGET_QUERY response (Table 4.9) of a point with a lamp record. -/
def State.target (s : State) (p : Pid) (l : Lamp) (ty : LampType) : List Byte :=
  let t := s.tb
  let y := s.layers p l.section_ t
  let d := s.lampModel l ty y.level y.cct
  let code := s.pulsed p t d.code
  let k := pointKey p
  let diag (ch : Nat) : Nat × Ns := ((tget s.plan.diag (k * 2 + ch)).map (fun x => (x.state, x.last))).getD (3, 0)
  let base := match y.band with | none => 0 | some _ => if s.civilKnown then 1 else 2
  u64 s.now ++ u8 base ++ u8 (y.band.getD 0xFF) ++ u8 y.activeClass ++ u8 y.restClass ++ u16 y.active ++ u16 y.rest ++
    u16 (y.prom.getD 0xFFFF) ++ u16 ((y.winner.map (fun o => o.handle)).getD 0xFFFF) ++ u16 y.afterOverride ++
    u16 y.floor ++ u16 d.level ++ u16 y.cct ++ u16 code.cur0 ++ u16 code.duty0 ++ u16 code.cur1 ++ u16 code.duty1 ++
    u16 (bit d.fluxLimited + 2 * bit d.cctLimited + 4 * bit d.derated + 8 * bit d.tempStale +
      16 * bit (s.inPulse k 0 || s.inPulse k 1) + 32 * bit ((y.winner.map Override.exempt).getD false)) ++
    (match tget s.plan.temps k with | some r => leI 2 r.celsius | none => u16 0x8000) ++
    u8 (diag 0).1 ++ u8 (diag 1).1 ++ u16 0 ++ u64 (diag 0).2 ++ u64 (diag 1).2

/-- A point without a lamp record has no section and no type to answer with: RANGE (log entry 20). -/
def targetQueryBody (r : Req) (s : State) : Result :=
  let p := pidAt r.payload 0
  match s.pointRefused p with
  | some st => fail st s
  | none => match s.lampOf p with
    | none => fail stRange s
    | some l => match tget s.plan.types l.type with
      | none => fail stRange s
      | some ty => ok (s.target p l ty) s

def targetQueryCommand : Command :=
  { opcode := 0x3020, access := .holder, firstLane := 1, layout := exactly 8, body := targetQueryBody }

/-- TARGET_QUERY (Table 4.9). -/
def execTargetQuery (r : Req) (s : State) : Host.Outcome State Fault Refusal := shotas targetQueryCommand r s

/-- The NIGHT_QUERY response (R626). -/
def nightBytes (n : Night) : List Byte :=
  let opt (x : Option Ns) : List Byte := u64 (x.getD 0)
  u8 n.profile ++ u8 (if n.lit then (n.bands.filter Option.isSome).length else 0) ++ u16 0 ++ opt n.dusk ++ opt n.dawn ++
    u64 n.on ++ u64 n.off ++ (((List.range 5).map (fun i => opt ((n.bands[i + 1]?).getD none))).flatten)

def nightQueryBody (r : Req) (s : State) : Result :=
  let d : Date := { year := fld r.payload 0 2, month := fld r.payload 2 1, day := fld r.payload 3 1 }
  if !d.exists_ ∨ d.year < 2020 ∨ 2603 < d.year then fail stRange s
  else ok (nightBytes (s.night (dayNumber d))) s

def nightQueryCommand : Command :=
  { opcode := 0x3021, access := .holder, firstLane := 1, layout := exactly 4, body := nightQueryBody }

/-- NIGHT_QUERY (R626). -/
def execNightQuery (r : Req) (s : State) : Host.Outcome State Fault Refusal := shotas nightQueryCommand r s

/-- An entry of DIAG_LIST (Table 4.8). -/
def State.diagEntry (s : State) (e : Nat × ChannelDiag) : List Byte :=
  pidBytes (mkPid s.ownPrefix (e.1 / 2 / 256) (e.1 / 2 % 256)) ++ u8 (e.1 % 2) ++ u8 e.2.state ++ u64 e.2.last

def diagListBody (r : Req) (s : State) : Result :=
  ok (page (ordinal s.plan.diag s.diagEntry) (fld r.payload 0 2) 91) s

def diagListCommand : Command :=
  { opcode := 0x3022, access := .holder, firstLane := 1, layout := exactly 4, body := diagListBody }

/-- DIAG_LIST (Table 4.8). -/
def execDiagList (r : Req) (s : State) : Host.Outcome State Fault Refusal := shotas diagListCommand r s

/-! ## Nights -/

/-- NIGHT_RESOLVE (R134): at 12:00 civil time the night of that date is resolved. -/
def execNightResolve (dt : Ns) (s : State) : Host.Outcome State Fault Refusal :=
  event dt (fun s =>
    let d := s.dayAt s.tb
    if !s.civilKnown ∨ s.civilOfTb s.tb % 86400 < 43200 ∨ s.plan.nights.any (fun n => (n.day : Int) = d) then s
    else
      let r := s.resolved d
      { r.2 with plan.nights := r.2.plan.nights.filter (fun n => n.lit && s.nightStays n) ++ [r.1] }) s

/-- The photocell holds a night's switch-off back: a dark reading counts when the command falls due, and the night's switch-off has
not been judged before (R129). -/
def State.holdsOff (s : State) (n : Night) (t : Ns) : Bool :=
  s.num 0x3004 == 1 && t == n.off && s.plan.photo.counted == some true && !n.offHeld

/-- Change the night of a day. -/
def State.onNight (s : State) (day : Nat) (f : Night → Night) : State :=
  { s with plan.nights := s.plan.nights.map (fun n => if n.day = day then f n else n) }

/-- A change of layers that alters commands still to be launched revises them (R124). -/
def State.reviseAll (s : State) : State := s.points.foldl (fun s p => s.reviseLater 0xFF 0 s.tb p) s

/-- A dark reading counts, from lp.photo_window before the computed switch-on: the switch-on moves to the first instant at least
lp.plan_lead away, where that is earlier (R129). -/
def State.photoOn (s : State) : State :=
  let soon := s.tb + s.num 0x3020 * sec
  match s.plan.nights.find? (fun n =>
      n.lit && n.movedOn.isNone && n.on ≤ s.tb + s.num 0x3005 * sec && decide (soon < n.on)) with
  | some n =>
    if s.num 0x3004 = 1 ∧ s.plan.photo.counted = some true then
      (s.onNight n.day (fun n => { n with movedOn := some soon })).issuePlan soon
    else s
  | none => s

/-- The instants of a night whose command is due, lp.plan_lead ahead, and has not been issued. -/
def State.dueOf (s : State) (n : Night) : List Ns :=
  n.instants.filter (fun t => t ≤ s.tb + s.num 0x3020 * sec && s.tb ≤ t && !s.plan.issued.contains t)

/-- A due switch-on, band start or switch-off: its command is issued, or the photocell holds a switch-off back by at most
lp.photo_window (R129, R134). -/
def State.nightDue (s : State) (n : Night) (t : Ns) : State :=
  if s.holdsOff n t then
    (s.onNight n.day (fun n => { n with offHeld := true, movedOff := some (n.off + s.num 0x3005 * sec) })).reviseAll
  else s.issuePlan t

/-- The edges of overrides that are lp.override_lead ahead have their commands issued, one for a point and an instant (log entry 21). -/
def State.overridesDue (s : State) : State :=
  let starts := s.plan.overrides.filter (fun o => !o.startSent && s.near o.start)
  let ends := s.plan.overrides.filter (fun o => !o.endSent && s.near o.finish)
  let cmds := starts.flatMap (fun o => s.overrideCmds o o.start o.fade) ++
    ends.flatMap (fun o => s.overrideCmds o o.finish o.endFade)
  let mark (o : Override) : Override :=
    { o with startSent := o.startSent || s.near o.start, endSent := o.endSent || s.near o.finish }
  { s with plan.overrides := s.plan.overrides.map mark }.planChange (onePerPoint cmds) none

/-- PLAN_COMMAND_DUE (R134, R129): the photocell's dark reading that already counts when its window opens, the instants of nights that
are due, and the edges of overrides. -/
def State.planDue (s : State) : State :=
  let s := s.photoOn
  ((s.plan.nights.flatMap (fun n => (s.dueOf n).map (fun t => (n, t)))).foldl (fun s e => s.nightDue e.1 e.2) s).overridesDue

def execPlanCommandDue (dt : Ns) (s : State) : Host.Outcome State Fault Refusal := event dt State.planDue s

/-- A held switch-off whose command is still to be issued. -/
def State.heldNight (s : State) : Option Night :=
  s.plan.nights.find? (fun n => n.lit && n.offHeld && s.tb ≤ n.finish && !s.plan.issued.contains n.finish)

/-- A reading that counts moves a switch-on forward, or releases a held switch-off (R129). -/
def State.photoCounts (s : State) (dark : Bool) : State :=
  let s := { s with plan.photo.counted := some dark }
  if dark then s.photoOn
  else
    match s.heldNight with
    | some n =>
      let t := max n.off (min (s.tb + s.num 0x3020 * sec) n.finish)
      (s.onNight n.day (fun n => { n with movedOff := some t })).issuePlan t
    | none => s

/-- PHOTO_DEBOUNCE (R129). -/
def execPhotoDebounce (dt : Ns) (s : State) : Host.Outcome State Fault Refusal :=
  event dt (fun s =>
    if s.plan.photo.since + s.num 0x3006 * sec ≤ s.clk.mono then s.photoCounts s.plan.photo.dark else s) s

/-- PHOTO_WINDOW_EXPIRY (R129): a switch-off held back all that time is issued lp.plan_lead ahead of the computed switch-off plus
lp.photo_window. -/
def execPhotoWindowExpiry (dt : Ns) (s : State) : Host.Outcome State Fault Refusal :=
  event dt (fun s =>
    match s.heldNight with
    | some n => if n.finish ≤ s.tb + s.num 0x3020 * sec then s.issuePlan n.finish else s
    | none => s) s

/-! ## The diagnostic floor (R162–R167) -/

/-- Promenade predicts no road user in a section over a window (R165). -/
def State.clearOf (s : State) (sect : Nat) (a b : Ns) : Bool :=
  s.prom.tracks.all (fun e =>
    let t := e.2
    let ps := (s.walk 16 (s.openTo t) false t.section_ t.pos t.forward (t.travel b)).1
    (ps.flatMap (fun p => p.stretches)).all (fun x => x.section_ != sect || decide (x.to_ < t.travel a)))

/-- A channel's count reaches the due point within the present lit period (R164, R165). -/
def State.channelDue (s : State) (k ch : Nat) (ahead : Ns) : Bool :=
  match tget s.plan.diag (k * 2 + ch) with
  | some d => decide ((s.num 0x3030 - s.num 0x3031) * sec ≤ s.litCount d + ahead)
  | none => false

/-- Launch a pulse of the due channels: duty at least d_min for diag_ms, then the combined result (R165). -/
def State.pulse (s : State) (p : Pid) (ty : LampType) (chs : List Nat) (w : Ns) : State :=
  let k := pointKey p
  let stop := w + ty.diagMs * ms
  let s := chs.foldl (fun s ch => match tget s.plan.diag (k * 2 + ch) with
    | some d => { s with plan.diag := tput s.plan.diag (k * 2 + ch) { d with pulseUntil := some stop } }
    | none => s) s
  let s := (s.emit 0xFF 0 s.tb { planCmd p w 0 0 3 with shape := 0 }).1
  (s.emit 0xFF 0 s.tb (planCmd p stop 0 (s.num 0x3022) 3)).1

/-- DIAG_DUE (R165): while no graph runs the plan, pulses are deferred (R247). -/
def execDiagDue (dt : Ns) (point : Pid) (channel : Nat) (s : State) : Host.Outcome State Fault Refusal :=
  event dt (fun s =>
    match (s.lampOf point).bind (fun l => (tget s.plan.types l.type).map (fun t => (l, t))) with
    | none => s
    | some (l, ty) =>
      let k := pointKey point
      let w := s.tb + s.num 0x3023 * ms
      let clear := s.num 0x3032 * ms
      if !s.served 0x07 ∨ !s.baseLit ∨ !s.channelDue k channel 0 ∨ s.inPulse k channel ∨
          !s.clearOf l.section_ (w - clear) (w + ty.diagMs * ms + clear) then s
      else
        let ahead := match s.plan.nights.find? (fun n => n.lit && n.start ≤ s.tb && s.tb < n.finish) with
          | some n => n.finish - s.tb
          | none => 0
        let other := 1 - channel
        s.pulse point ty (channel :: (if s.channelDue k other ahead then [other] else [])) w) s

/-- UNDIAGNOSED (R167). -/
def execUndiagnosed (dt : Ns) (point : Pid) (channel : Nat) (s : State) : Host.Outcome State Fault Refusal :=
  event dt (fun s => match tget s.plan.diag (pointKey point * 2 + channel) with
    | some d => if s.num 0x3030 * sec ≤ s.litCount d ∧ channel < 2 then s.channelState point channel 2 else s
    | none => s) s

/-- LATE_DISCARD (R160, R161). -/
def execLateDiscard (dt : Ns) (point : Pid) (launch : Ns) (s : State) : Host.Outcome State Fault Refusal :=
  event dt (fun s =>
    let here (it : Item) : Option DriveCmd := match it.body with
      | .drive c => if c.point = point ∧ c.launch = launch then some c else none
      | _ => none
    match (s.queue 0x03).items.findSome? here with
    | some c =>
      if c.tol ≠ 0xFFFF ∧ launch + c.tol * ms < s.tb then
        ((s.purge 0x03 (fun it => (here it).isSome)).bump 0x30F0).discarded c
      else s
    | none => s) s

end Sys2Proof.Machine
end

