-- ==== Sys2Proof/Machine/Mesh.lean ====
section
/-!
DEFINITION. The commands and events of group 0x50 (R296–R357): node maps, nodes, probes, uplink frames and joins, the
radios' cells, resends and the network key.
-/

namespace Sys2Proof.Machine

/-! ## Node maps (R325) -/

def euiAt (b : List Byte) (off : Nat) : Eui := BitVec.ofNat 64 (fld b off 8)

/-- Map an EUI-64 to a point, one to one; the node that was mapped to the point is sent LEAVE with reason 1, and a node
whose own point changes LEAVE with reason 2 (R325, R329). -/
def State.mapNode (s : State) (e : Eui) (p : Pid) : State :=
  let moved := tget s.mesh.map e.toNat != some p
  let old := s.mesh.map.filter (fun x => x.2 == p && x.1 != e.toNat)
  let s := old.foldl (fun s x => match tget s.mesh.nodes x.1 with
    | some n => if n.state = 0 then s
      else (s.putNode { n with leave := 1, leaveSent := false }).nodeState n.eui 3
    | none => s) s
  let s := match s.byEui e with
    | some n => if moved ∧ n.state ≠ 0 ∧ n.leave = 0 then s.putNode { n with leave := 2, leaveSent := false } else s
    | none => s
  s.setMap (tput (tkeep s.mesh.map (fun _ v => v != p)) e.toNat p)

def nodeMapSetBody (r : Req) (s : State) : Result :=
  let es := (entries 16 r.payload).map (fun b => (euiAt b 0, pidAt b 8))
  if es.isEmpty then fail stRange s
  else match firstRefusal (es.map (fun e => s.pointRefused e.2)) with
    | some st => fail st s
    | none => ok [] (es.foldl (fun s e => s.mapNode e.1 e.2) s)

def nodeMapSetCommand : Command :=
  { opcode := 0x5001, access := .holder, firstLane := 1, layout := counted 16, body := nodeMapSetBody }

/-- NODE_MAP_SET (R325). -/
def execNodeMapSet (r : Req) (s : State) : Host.Outcome State Fault Refusal := shotas nodeMapSetCommand r s

def nodeMapGetBody (r : Req) (s : State) : Result :=
  ok (page (ordinal s.mesh.map (fun e => u64 e.1 ++ pidBytes e.2 ++ u16 0)) (fld r.payload 0 2) 91) s

def nodeMapGetCommand : Command :=
  { opcode := 0x5002, access := .holder, firstLane := 1, layout := exactly 4, body := nodeMapGetBody }

/-- NODE_MAP_GET (Table 8.15). -/
def execNodeMapGet (r : Req) (s : State) : Host.Outcome State Fault Refusal := shotas nodeMapGetCommand r s

def nodeMapRemoveBody (r : Req) (s : State) : Result :=
  let es := ((entries 8 r.payload).map (fun b => (euiAt b 0).toNat)).dedup
  if es.isEmpty then fail stRange s
  else
    let gone := es.filter (fun e => (tget s.mesh.map e).isSome)
    ok (u16 gone.length ++ u16 0) (s.setMap (tkeep s.mesh.map (fun k _ => !gone.contains k)))

def nodeMapRemoveCommand : Command :=
  { opcode := 0x5003, access := .holder, firstLane := 1, layout := counted 8, body := nodeMapRemoveBody }

/-- NODE_MAP_REMOVE (Table 8.15). -/
def execNodeMapRemove (r : Req) (s : State) : Host.Outcome State Fault Refusal := shotas nodeMapRemoveCommand r s

/-! ## Nodes and radios as they are shown (Table 8.15) -/

def State.nodeEntry (s : State) (n : Node) : List Byte :=
  pidBytes n.point ++ u16 n.short ++ u64 n.eui.toNat ++ u8 n.state ++ u8 n.radio ++ u8 n.depth ++ leI 1 n.rssi ++
    u16 n.parent ++ u8 n.drift ++ u8 n.imageType ++ u64 (s.stampAt n.lastContact)

def nodeListBody (r : Req) (s : State) : Result :=
  ok (page (ordinal (tvals s.mesh.nodes) s.nodeEntry) (fld r.payload 0 2) 45) s

def nodeListCommand : Command :=
  { opcode := 0x5004, access := .holder, firstLane := 1, layout := exactly 4, body := nodeListBody }

/-- NODE_LIST (Table 8.15). -/
def execNodeList (r : Req) (s : State) : Host.Outcome State Fault Refusal := shotas nodeListCommand r s

/-- Joined nodes homed on a radio. -/
def State.homed (s : State) (r : Nat) : List Node :=
  (tvals s.mesh.nodes).filter (fun n => n.radio == r && (n.state == 1 || n.state == 2))

def State.radioEntry (s : State) (r : Nat) : List Byte :=
  let x := s.radio r
  u8 r ++ u8 (s.unitHealth (8 + r)).state.code ++ u16 (s.homed r).length ++
    u16 ((s.homed r).filter (fun n => n.parent < 4)).length ++ u16 (s.txTime r / (360 * ms)) ++ u32 x.ccaBusy ++
    u32 x.rx ++ u32 x.tx ++ u32 x.acksWithheld

def radioStatusBody (_ : Req) (s : State) : Result :=
  ok (u16 s.radiosFitted ++ u16 0 ++ ((List.range s.radiosFitted).map s.radioEntry).flatten) s

def radioStatusCommand : Command :=
  { opcode := 0x5010, access := .holder, firstLane := 1, layout := isEmpty, body := radioStatusBody }

/-- RADIO_STATUS (Table 8.15). -/
def execRadioStatus (r : Req) (s : State) : Host.Outcome State Fault Refusal := shotas radioStatusCommand r s

/-! ## NODE_PROBE and NODE_LEAVE -/

/-- A point without a joined node does not reply. -/
def nodeProbeBody (r : Req) (s : State) : Result :=
  let p := pidAt r.payload 0
  let kind := fld r.payload 6 1
  match s.pointRefused p with
  | some st => fail st s
  | none =>
    if 3 < kind then fail stRange s
    else match s.nodeAt p with
      | none => ok (probeAnswer 1 0 []) s
      | some n =>
        let tag := s.mesh.nextTag
        let probe : Probe :=
          { point := p, kind := kind, tag := tag, sentAt := s.clk.mono, waiter := some (r.src.endpoint, r.lane.toNat) }
        .wait ({ s with mesh.nextTag := (tag + 1) % 256, mesh.probes := s.mesh.probes ++ [probe] }.pushOther
          { node := n.short, eui := n.eui, radio := n.radio, enc := false, element := element 0x85 (u8 kind ++ u8 tag) })

def nodeProbeCommand : Command :=
  { opcode := 0x5005, access := .holder, firstLane := 1, layout := exactly 8, body := nodeProbeBody }

/-- NODE_PROBE (R352, R355). -/
def execNodeProbe (r : Req) (s : State) : Host.Outcome State Fault Refusal := shotas nodeProbeCommand r s

def nodeLeaveBody (r : Req) (s : State) : Result :=
  let p := pidAt r.payload 0
  let reason := fld r.payload 6 1
  match s.pointRefused p with
  | some st => fail st s
  | none =>
    if reason ≠ 2 ∧ reason ≠ 3 then fail stRange s
    else match s.nodeAt p with
      | none => fail stState s
      | some n => ok [] (s.putNode { n with leave := if n.leave = 1 then 1 else reason, leaveSent := false })

def nodeLeaveCommand : Command :=
  { opcode := 0x5006, access := .holder, firstLane := 1, layout := exactly 8, body := nodeLeaveBody }

/-- NODE_LEAVE (Table 8.15; log entry 26). -/
def execNodeLeave (r : Req) (s : State) : Host.Outcome State Fault Refusal := shotas nodeLeaveCommand r s

/-! ## Origin windows (R314) -/

/-- The origin window accepts a counter (R314). -/
def Node.accepts (n : Node) (ctr : Nat) : Bool :=
  match n.oMax with
  | none => true
  | some m => m < ctr || (ctr < m && m - ctr ≤ 64 && !n.oMap.getLsbD (m - ctr - 1))

/-- The window after it has accepted a counter. -/
def Node.seen (n : Node) (ctr : Nat) : Node :=
  match n.oMax with
  | none => { n with oMax := some ctr, oMap := 0 }
  | some m =>
    if m < ctr then { n with oMax := some ctr, oMap := ((n.oMap <<< 1) ||| 1) <<< (ctr - m - 1) }
    else { n with oMap := n.oMap ||| (1 <<< (m - ctr - 1)) }

/-! ## Joins (R324–R327, Table 8.7) -/

/-- A candidate parent of a join: short address, RSSI, depth, and the radio it leads to. -/
structure Candidate where
  short : Nat
  rssi : Int
  depth : Nat
  radio : Nat
  deriving DecidableEq, Repr

/-- The candidates that may be parents: heard at mesh.join_rssi or better, a radio that can send or a joined relay, less
deep than mesh.max_depth. -/
def State.candidates (s : State) (b : List Byte) : List Candidate :=
  (List.range 4).filterMap (fun i =>
    let a := fld b (4 * i) 2
    let rssi := fldI b (4 * i + 2) 1
    if rssi < s.int 0x5016 then none
    else if a < 4 then
      (if a < s.radiosFitted ∧ !s.radioOut a then some { short := a, rssi := rssi, depth := 0, radio := a } else none)
    else match s.byShort a with
      | some n => if n.state = 1 ∧ hasBit n.caps 3 ∧ n.depth < s.num 0x5008 then
          some { short := a, rssi := rssi, depth := n.depth, radio := n.radio } else none
      | none => none)

/-- Least depth, then the strongest. -/
def best (l : List Candidate) : Option Candidate :=
  l.foldl (fun (b : Option Candidate) (c : Candidate) => match b with
    | none => some c
    | some d => if c.depth < d.depth ∨ (c.depth = d.depth ∧ d.rssi < c.rssi) then some c else b) none

/-- The least short address from 4 that no node has. -/
def State.freeShort (s : State) : Nat :=
  ((List.range (s.mesh.nodes.length + 1)).find? (fun i => (s.byShort (i + 4)).isNone)).getD 0 + 4

/-- A PDU for the node that joins. -/
def State.pushJoin (s : State) (n : Node) (enc : Bool) (el : List Byte) : State :=
  s.pushOther { node := n.short, eui := n.eui, radio := n.radio, enc := enc, element := el }

/-- The body of JOIN_ACCEPT (Table 8.13); `key` is zeros in a REJOIN answer. -/
def State.acceptBody (s : State) (n : Node) (index : Nat) (key : List Byte) : List Byte :=
  let ty : LampType := match (s.lampOf n.point).bind (fun l => tget s.plan.types l.type) with
    | some t => t
    | none => .factory 0 1
  u16 n.short ++ u8 n.depth ++ u8 index ++ fit 16 key ++ pidBytes n.point ++ u16 n.parent ++ u16 n.backup ++
    u16 (s.num 0x5012) ++ u8 (s.knee ty) ++ u16 (s.slope ty) ++ u16 ty.droop ++ u16 ty.crossover ++ u16 ty.dMin ++
    u16 ty.diagMs ++ u16 (s.num 0x500D) ++ u16 (s.num 0x500E) ++ u16 (s.num 0x500B) ++ u16 (s.num 0x500C) ++
    u8 (s.num 0x5009) ++ u8 ty.channels ++ u16 (s.num 0x5013) ++ fit 8 (s.value 0x5014 0).bytes ++ u8 0

/-- JOIN_ACCEPT, whole or in two parts (R340), then SCHEDULE. -/
def State.acceptNode (s : State) (n : Node) (rejoin : Bool) : State :=
  let key := if rejoin then zeros 16 else (s.slot s.netkeySlot).rec_.key
  let b := s.acceptBody n (if rejoin then 0 else s.mesh.keyIndex) key
  let s := if s.mesh.band.phy = 1 then
      (s.pushJoin n true (element 0x82 (u8 0 ++ b.take 32))).pushJoin n true (element 0x82 (u8 1 ++ b.drop 32))
    else s.pushJoin n true (element 0x82 b)
  s.pushJoin n false (s.scheduleElement n)

/-- A refused join is answered with its reason and counted (R326). -/
def State.denyJoin (s : State) (e : Eui) (short radio : Nat) (rssi : Int) (reason : Nat) : State :=
  let s := (s.bump 0x50F3).pushOther
    { node := short, eui := e, radio := radio, enc := false, element := element 0x83 (u8 reason ++ u8 0) }
  let s := if reason = 2 then s.bump 0x10F2 else s
  if reason = 1 ∧ (tget s.mesh.unknownAt e.toNat).all (fun (t : Ns) => decide (t + 3600 * sec ≤ s.clk.mono)) then
    { s with mesh.unknownAt := tput s.mesh.unknownAt e.toNat s.clk.mono }.raise 0x50E1 (8 + radio)
      (u64 e.toNat ++ u8 radio ++ leI 1 rssi ++ u16 0 ++ u64 s.now)
  else s

/-- What a JOIN_REQ or REJOIN says from its drift octet on: drift, caps, image type, image ID, candidates. -/
def State.joinRefusal (s : State) (e : Eui) (rejoin : Bool) (b : List Byte) : Option Nat :=
  match tget s.mesh.map e.toNat with
  | none => some 1
  | some p =>
    if !rejoin ∧ !s.flag 0x5015 then some 3
    else if !(s.tablePoints s.plan.lamps).contains (pointKey p) ∧
        s.pointsFitted ≤ (s.tablePoints s.plan.lamps).length then some 2
    else if (best (s.candidates (b.drop 8))).isNone then some 4
    else none

/-- The node is admitted (R325, R327). -/
def State.admitNode (s : State) (e : Eui) (ctr : Nat) (rssi : Int) (rejoin : Bool) (b : List Byte) : State :=
  let cs := s.candidates (b.drop 8)
  match tget s.mesh.map e.toNat, best cs with
  | some p, some c =>
    let rest := cs.filter (fun d => d.short != c.short)
    let backup := (best (rest.filter (fun d => d.radio != c.radio))).or (best rest)
    let old := (s.byEui e).getD default
    let known := (s.byEui e).isSome
    let w := if old.oMax = some ctr then old else old.seen ctr
    let n : Node :=
      { old with point := p, eui := e, short := if known then old.short else s.freeShort, state := if known then old.state else 0,
                 radio := c.radio, backup := (backup.map (fun d => d.short)).getD 0xFFFF, parent := c.short,
                 depth := c.depth + 1, rssi := rssi, drift := fld b 0 1, caps := fld b 1 1, imageType := fld b 2 1 % 4,
                 imageId := fld b 4 4, lastPdu := s.clk.mono,
                 oMax := w.oMax, oMap := w.oMap, leave := 0, leaveSent := false, joining := true }
    let s := ({ s with mesh.joinCtr := tput s.mesh.joinCtr e.toNat ctr }.putNode n).nodeState e 1
    let n := (s.byEui e).getD n
    let sc := s.scheduleFor n
    let n := { n with schedule := sc.1 }
    ((sc.2.putNode n).bump 0x50F2).acceptNode n rejoin
  | _, _ => s

/-- The highest counter seen from an EUI-64. -/
def State.lastCounter (s : State) (e : Eui) : Option Nat :=
  let a := tget s.mesh.joinCtr e.toNat
  let b := (s.byEui e).bind (fun n => n.oMax)
  match a, b with
  | some x, some y => some (max x y)
  | some x, none => some x
  | none, y => y

/-- A JOIN_REQ whose PDU has arrived (Table 8.7 step 3). Without the node master key it is not answered (R510). -/
def State.joinReq (s : State) (radio : Nat) (rssi : Int) (pdu body : List Byte) : State :=
  let e := euiAt body 0
  match s.nodeKey e with
  | (none, s) => s
  | (some k, s) =>
    match openPdu k e pdu with
    | none => s.bump 0x50F7
    | some _ =>
      let ctr := fld pdu 4 4
      if (s.lastCounter e).any (fun c => decide (ctr ≤ c)) then s.bump 0x50F6
      else
        let b := body.drop 8
        match s.joinRefusal e false b with
        | some reason => { s with mesh.joinCtr := tput s.mesh.joinCtr e.toNat ctr }.denyJoin e 0xFFFE radio rssi reason
        | none => s.admitNode e ctr rssi false b

/-! ## Uplink elements (R342–R345, R352, R354) -/

/-- A detection: written to the Raw tier, and used for tracking where R176 lets it and a graph consumes it (R226). -/
def State.onDetect (s : State) (radio : Nat) (n : Node) (b : List Byte) : State :=
  let stamp := s.stampOfMesh (fld b 0 8)
  let bits := fld b 8 1
  let d : Detection :=
    { stamp := stamp, point := n.point, sensor := bits % 4, kind := bits / 16 % 4, direction := bits / 4 % 4,
      confidence := fld b 9 1, offset := fldI b 10 2, speed := fld b 12 2 }
  let place := match s.detectedAt d with
    | some (sect, q) => if s.flag 0x4080 sect then some (sect, q) else none
    | none => none
  let used := if stamp ≠ 0 ∧ stamp ≤ s.tb + 100 * ms ∧ (s.consumer 0x00).isSome then place else none
  let track := used.bind (fun x => s.associate stamp x.1 x.2)
  let s := match used with
    | none => s.bump 0x40F8
    | some x => s.feed 0x00 (match track with | some t => t | none => sectionFlow x.1) stamp (.detect d s.tb)
  s.hist stamp n.point 0x01
    (u64 s.now ++ b.drop 8 |>.take 14 |> (· ++ u8 radio ++ u8 (bit used.isSome) ++ u16 (track.getD 0xFFFF) ++ u8 n.depth))

/-- Node activations whose instant has passed: those retired, and arms whose instant has come. -/
def State.activations (s : State) : List (Nat × Nat × Ns) :=
  s.up.activated ++ s.up.arms.filterMap (fun e =>
    if 1 ≤ e.1 ∧ e.1 ≤ 4 ∧ !e.2.pending ∧ e.2.instant ≤ s.tb then some (e.1, e.2.imageId, e.2.instant) else none)

/-- The module judges a node's image once after an activation (R546). -/
def State.judgeImage (s : State) (n : Node) (stamp : Ns) : State :=
  match s.activations.reverse.find? (fun a => a.1 == n.imageType + 1 && a.2.2 ≤ stamp) with
  | some (kind, id, _) =>
    if n.judged = id then s
    else
      let s := s.onNode n.eui (fun n => { n with judged := id })
      if n.imageId = id then s else s.bump 0x9883 kind
  | none => s

/-- A channel's test result in a STATUS: 1 good, 2 open, 0 none since the last report (Table 8.11). -/
def State.channelTest (s : State) (p : Pid) (ch result : Nat) (stamp : Ns) : State :=
  match result with
  | 1 => s.testResult p ch false stamp
  | 2 => s.testResult p ch true stamp
  | _ => s

/-- STATUS (R344): counters, test results, temperature; after a join it brings the point its combined result. -/
def State.onStatus (s : State) (n : Node) (b : List Byte) : State :=
  let at_ := s.tbOfMesh (fld b 0 8)
  let stamp := s.stampOfMesh (fld b 0 8)
  let exec := fld b 12 2
  let disc := fld b 14 2
  let dExec := if n.reported then (exec + 65536 - n.lateExec) % 65536 else 0
  let dDisc := if n.reported then (disc + 65536 - n.lateDisc) % 65536 else 0
  let t := fldI b 8 2
  let s := if t = -32768 then s
    else { s with plan.temps := tput s.plan.temps (pointKey n.point) { celsius := t, at_ := at_ } }
  let s := ((s.feed 0x01 (statusFlow n.point) stamp (.raw b)).channelTest n.point 0 (fld b 10 1) stamp).channelTest n.point 1
    (fld b 11 1) stamp
  let n' := { n with reported := true, lateExec := exec, lateDisc := disc, parent := fld b 20 2, rssi := fldI b 22 1,
                     depth := fld b 23 1, imageId := fld b 24 4, joining := false }
  let s := ((s.putNode n').bump 0x30F1 0 dExec).bump 0x30F0 0 dDisc
  let s := s.judgeImage n' stamp
  let s := if 0 < dDisc ∧ (s.lampOf n.point).isSome then (s.recover n.point).planLate dDisc 1 else s
  let s := if n.joining ∧ (s.lampOf n.point).isSome then s.relaunchSoon [n.point] 0 else s
  s.hist stamp n.point 0x04 (b.drop 8)

/-- ENERGY (R345). -/
def State.onEnergy (s : State) (n : Node) (b : List Byte) : State :=
  let stamp := s.stampOfMesh (fld b 0 8)
  let n := { n with energyAt := stamp, energy := fld b 8 4, vAvg := fld b 12 2 }
  ((s.feed 0x02 (energyFlow n.point) stamp (.raw b)).hist stamp n.point 0x03 (slice b 8 10)).energyReport n (fld b 0 8)
    (fld b 8 4) (fld b 12 2)

/-- ALARM (Table 8.11): an open channel is a test result (R163). -/
def State.onAlarm (s : State) (n : Node) (b : List Byte) : State :=
  let stamp := s.stampOfMesh (fld b 0 8)
  let s := s.feed 0x01 (statusFlow n.point) stamp (.raw b)
  let s := if fld b 8 1 = 1 ∧ fld b 9 1 < 2 then s.testResult n.point (fld b 9 1) true stamp else s
  s.hist stamp n.point 0x05 (slice b 8 2)

/-- DRIVE_ACK (R315, R349): the drive PDUs it names are delivered. -/
def State.onDriveAck (s : State) (n : Node) (b : List Byte) : State :=
  let c := fld b 0 4
  let map := fld b 4 4
  let got (f : Flight) : Bool :=
    f.target == n.eui && !f.entries.isEmpty && 0 < f.attempts &&
      (f.ctr == c || (f.ctr < c && c - 1 - f.ctr < 32 && hasBit map (c - 1 - f.ctr)))
  (s.mesh.flights.filter got).foldl State.delivered s

/-- PROBE_REPLY answers the probe that waits for it (R352). -/
def State.onProbeReply (s : State) (n : Node) (b : List Byte) : State :=
  let s := s.feed 0x01 (statusFlow n.point) s.now (.raw b)
  match s.mesh.probes.find? (fun p => p.point == n.point && p.kind == fld b 0 1 && p.tag == fld b 1 1) with
  | some p =>
    let s := { s with mesh.probes := s.mesh.probes.filter (fun q => q != p) }
    match p.waiter with
    | some w => s.finish w.1 w.2 stOk (probeAnswer 0 ((s.clk.mono - p.sentAt) / us) (b.drop 2))
    | none => s
  | none => s

/-- IMAGE_STATUS (R544). -/
def State.onImageStatus (s : State) (n : Node) (b : List Byte) : State :=
  (s.putNode { n with imageFor := fld b 0 4, imageResult := fld b 6 1, imageMissing := fld b 8 2 }).feed 0x01
    (statusFlow n.point) s.now (.raw b)

/-- A REJOIN (R327). -/
def State.onRejoin (s : State) (n : Node) (radio ctr : Nat) (rssi : Int) (b : List Byte) : State :=
  match s.joinRefusal n.eui true b with
  | some reason => s.denyJoin n.eui n.short radio rssi reason
  | none => s.admitNode n.eui ctr rssi true b

/-- Body octets of the uplink elements (Table 8.10). -/
def elementFits (type len : Nat) : Bool :=
  match type with
  | 1 => len == 16
  | 2 => len == 28
  | 3 => len == 18
  | 4 => len == 12
  | 5 => len == 8
  | 6 => 2 ≤ len && len ≤ 64
  | 7 => len == 32
  | 8 => len == 24
  | 9 => len == 12
  | _ => true

/-- One element of an accepted PDU. -/
def State.onElement (s : State) (radio ctr : Nat) (rssi : Int) (e : Eui) (el : Nat × List Byte) : State :=
  match s.byEui e with
  | none => s
  | some n =>
    if !elementFits el.1 el.2.length then s.bump 0x50FD
    else match el.1 with
      | 1 => s.onDetect radio n el.2
      | 2 => s.onStatus n el.2
      | 3 => s.onEnergy n el.2
      | 4 => s.onAlarm n el.2
      | 5 => s.onDriveAck n el.2
      | 6 => s.onProbeReply n el.2
      | 7 => s
      | 8 => s.onRejoin n radio ctr rssi el.2
      | 9 => s.onImageStatus n el.2
      | _ => s.bump 0x50FD

/-! ## Uplink frames (R312–R314, R318–R323) -/

/-- A PDU that is neither a join nor broken: its node, and its elements where its MIC verifies. -/
def State.readPdu (s : State) (pdu : List Byte) : Option (Node × Option (List Byte)) × State :=
  match s.byShort (fld pdu 0 2) with
  | none => (none, s)
  | some n =>
    match s.nodeKey n.eui with
    | (none, s) => (some (n, none), s)
    | (some k, s) => (some (n, openPdu k n.eui pdu), s)

/-- The queue an element's item goes to. -/
def elementQueue (type : Nat) : Option Nat :=
  match type with
  | 1 => some 0
  | 3 => some 2
  | 2 | 4 | 6 | 9 => some 1
  | _ => none

/-- Queues that the elements of the PDUs to be accepted need, each with its cells (R225). -/
def State.needs (s : State) (pdus : List (List Byte)) : List (Nat × Nat) :=
  pdus.flatMap (fun p =>
    if !s.pduOk p then [] else match (s.readPdu p).1 with
      | some (n, some els) =>
        if !n.accepts (fld p 4 4) then []
        else (lppElements 64 els).filterMap (fun el =>
          if elementFits el.1 el.2.length then (elementQueue el.1).map (fun q => (q, cellsOf (.raw el.2))) else none)
      | _ => [])

/-- What a frame reserves: one sum for each of the queues that a graph consumes. -/
def State.claimsOf (s : State) (needs : List (Nat × Nat)) : List (Nat × Nat) :=
  ([0, 1, 2].filter (fun q => (s.consumer q).isSome)).map (fun q =>
    (q, sumOf ((needs.filter (fun l => l.1 == q)).map Prod.snd)))

/-- One PDU of a delivered frame (R314, R334). -/
def State.onPdu (s : State) (radio : Nat) (f : UplinkFrame) (pdu : List Byte) : State :=
  if !s.pduOk pdu then s.bump 0x50FC
  else if fld pdu 0 2 = 0xFFFE then
    match (lppElements 64 (slice pdu 8 (pdu.length - 12))).find? (fun el => el.1 == 7 && el.2.length == 32) with
    | some el => s.joinReq radio f.rssi pdu el.2
    | none => s.bump 0x50F7
  else
    match s.readPdu pdu with
    | (none, s) => s.bump 0x50F7
    | (some (_, none), s) => s.bump 0x50F7
    | (some (n, some els), s) =>
      let ctr := fld pdu 4 4
      if !n.accepts ctr then s.bump 0x50F6
      else
        let n := { n.seen ctr with lastPdu := s.clk.mono, leaveSent := false,
                                   rssi := if n.short = f.neighbour then f.rssi else n.rssi }
        let s := s.putNode n
        let s := if n.state = 2 then s.nodeState n.eui 1 else s
        (lppElements 64 els).foldl (fun s el => s.onElement radio ctr f.rssi n.eui el) s

/-- The receive window of a cell dedicated to a neighbour (R318); `none` where the node is no longer expected (R320). -/
def State.guard (s : State) (n : Node) : Option Ns :=
  let long := if s.mesh.band.phy = 1 then 1100 * us else 500 * us
  let g := s.num 0x500A * us + (n.drift + 2) * (s.clk.mono - n.lastContact) / 1000000
  if long < g then none else some g

/-- The number of the slotframe under way (R307, R322). -/
def State.slotframe (s : State) : Nat := s.asn / s.slotsPer

/-- The depth-1 relays of a radio, by short address. -/
def State.relays (s : State) (r : Nat) : List Node :=
  sortBy (fun n => n.short) ((s.homed r).filter (fun n => n.parent < 4 && hasBit n.caps 3))

/-- The relay whose turn the relay uplink cells of this slotframe are: they rotate over the relays of the radio (Table 8.4; log
entry 93). -/
def State.relayTurn (s : State) (r : Nat) : Option Node :=
  let l := s.relays r
  l[s.slotframe % l.length]?

/-- The timeslot is one of a radio's relay uplink cells, or of its shared uplink cells (Table 8.4). -/
def State.relaySlot (s : State) : Bool := (if s.slotsPer = 20 then [4, 8, 14, 18] else [4]).contains s.timeslot
def State.sharedSlot (s : State) : Bool := (if s.slotsPer = 20 then [6, 10, 16] else [6]).contains s.timeslot

/-- The radio is listening when the frame comes: in a relay uplink cell for the relay whose turn it is, within its guard, and in a
shared one for all (R307, R318). -/
def State.listening (s : State) (r : Nat) (f : UplinkFrame) : Bool :=
  let long := if s.mesh.band.phy = 1 then 1100 * us else 500 * us
  if f.dedicated then s.relaySlot && match s.relayTurn r with
    | some n => n.short == f.neighbour && (match s.guard n with | some g => decide (f.offset.natAbs ≤ g) | none => false)
    | none => false
  else s.sharedSlot && decide (f.offset.natAbs ≤ long)

/-- The link key the frame names is in force (R353). -/
def State.linkKey (s : State) (index : Nat) : Bool :=
  index == s.mesh.keyIndex || (match s.mesh.oldKey with | some (i, t) => i == index && decide (s.clk.mono < t + 60 * sec) | none => false)

/-- What R313 makes of a frame counter. -/
inductive LinkVerdict where
  | new | repeated | replay
  deriving DecidableEq, Repr

def Node.judgeLink (n : Node) (index counter : Nat) (mic : Word) : LinkVerdict :=
  match n.links.find? (fun l => l.1 == index) with
  | none => .new
  | some (_, c, m) => if c < counter then .new else if counter = c ∧ mic = m then .repeated else .replay

/-- An Enhanced Ack leaves, with its time correction and the hold-off in force (R312, R321). -/
def State.sendAck (s : State) (r : Nat) (f : UplinkFrame) : State :=
  let mask := s.holdMask
  let s := s.transmit r ackOctets true
  { s with out := s.out ++ [Out.enhancedAck r f.neighbour (-f.offset)
      (if mask = 0 then none else some (mask, s.num 0x5010))] }

/-- A frame whose measured offset lies within mesh.guard_min is contact with its sender (R319). -/
def State.contact (s : State) (f : UplinkFrame) (n : Node) : Node :=
  if f.offset.natAbs ≤ s.num 0x500A * us then { n with lastContact := s.clk.mono } else n

/-- A new frame: withheld where there is no room for its items (R323), else room is reserved, and it is acknowledged and delivered
(R225, R312). -/
def State.deliver (s : State) (r : Nat) (f : UplinkFrame) (n : Option Node) : State :=
  let claims := s.claimsOf (s.needs f.pdus)
  if s.switchQuiet || !s.rooms claims then
    ((s.onRadio r (fun x => { x with acksWithheld := (x.acksWithheld + 1) % pow32 })).bump 0x50F8).meshLoad 1 0 0
  else
    let s : State := match n with
      | some n => s.putNode (s.contact f { n with
          links := n.links.filter (fun (l : Nat × Nat × Word) => l.1 != f.keyIndex) ++ [(f.keyIndex, f.counter, f.mic)] })
      | none => s
    let s := f.pdus.foldl (fun s p => s.onPdu r f p) { s.sendAck r f with qm.claims := claims }
    { s with qm.claims := [] }.meshLoad 0 0 0

/-- A join frame carries JOIN_REQ PDUs alone. -/
def joinFrame (f : UplinkFrame) : Bool := f.pdus.all (fun p => fld p 0 2 == 0xFFFE)

/-- A frame heard by a radio. -/
def State.uplink (s : State) (r : Nat) (f : UplinkFrame) : State :=
  if !s.mayTransmit r ∨ !s.listening r f ∨ !f.fcsOk then s
  else
    let s := ((s.onRadio r (fun x => { x with rx := (x.rx + 1) % pow32 })).perfEdge 0x0040 r 1).meterBytes (3 + r) 0 (uplinkOctets f)
    if !f.supported ∨ (f.level ≠ 5 ∧ f.level ≠ 6 ∧ !(f.level = 0 ∧ joinFrame f)) then s.bump 0x50FC
    else if f.level = 0 then s.deliver r f none
    else if !s.linkKey f.keyIndex ∨ !f.ccmOk then s
    else match s.byShort f.neighbour with
      | none => s
      | some n => match n.judgeLink f.keyIndex f.counter f.mic with
        | .new => s.deliver r f (some n)
        | .repeated => (((s.putNode (s.contact f n)).sendAck r f).bump 0x50F4).meshLoad 0 1 0
        | .replay => (s.bump 0x50F5).meshLoad 0 0 1

/-- UPLINK_FRAME (R302, R312–R314). -/
def execUplinkFrame (dt : Ns) (radio : Nat) (frame : UplinkFrame) (s : State) : Host.Outcome State Fault Refusal :=
  event dt (fun s => s.uplink radio frame) s

/-! ## Downlink cells (R307, R308, R315) -/

/-- BEACON_CELL (R299, R300, R333): a skipped beacon is counted. -/
def execBeaconCell (dt : Ns) (radio : Nat) (use : CellUse) (s : State) : Host.Outcome State Fault Refusal :=
  event dt (fun s =>
    if !s.mayTransmit radio ∨ s.timeslot ≠ 0 then s
    else match s.useCell radio use.busy (s.mpdu 60) 3 with
      | (.sent, s) => { s with out := s.out ++ [.beacon radio] }
      | (_, s) => s.bump 0x50FA) s

/-- A frame on the air. -/
def State.air (s : State) (r node : Nat) (pdus : List (List Byte)) : State :=
  { s with out := s.out ++ [.radioFrame r node pdus] }

/-- Send a flight's frame in a cell, `other` an other-downlink one; a busy channel counts as no acknowledgement. -/
def State.fly (s : State) (r : Nat) (busy other : Bool) (f : Flight) : State :=
  let put (s : State) (f : Flight) : State :=
    if s.mesh.flights.any (fun g => g.id == f.id) then
      { s with mesh.flights := s.mesh.flights.map (fun g => if g.id = f.id then f else g) }
    else { s with mesh.flights := s.mesh.flights ++ [f] }
  let tried := { f with attempts := f.attempts + 1, sentAt := s.clk.mono, inOther := other }
  let x := s.useCell r busy (s.mpdu f.pdu.length) (if f.entries.isEmpty then 1 else 2)
  if x.1 = .sent then (put x.2 tried).air r f.neighbour [f.pdu]
  else if x.1 = .busy then put x.2 tried
  else put x.2 f

/-- The flights of a radio that may be sent in a cell: not acknowledged, sent fewer than five times, and in cells of the same kind
(R315). -/
def State.resendable (s : State) (r : Nat) (drive other : Bool) : List Flight :=
  s.mesh.flights.filter (fun f => f.radio == r && !f.acked && f.attempts < 5 && (!f.entries.isEmpty) == drive &&
    (f.attempts == 0 || f.inOther == other))

/-- The drive command an item carries. -/
def itemDrive (it : Item) : Option DriveCmd :=
  match it.body with
  | .drive c => some c
  | _ => none

/-- Waiting commands that radio `r` can send now, in the order of R308 and R197. -/
def State.waitingDrive (s : State) (r : Nat) : List DriveCmd :=
  let cs := ((s.queue 0x03).items.filterMap itemDrive).filter (fun c => s.stillGood c &&
    (match s.nodeAt c.point with | some n => n.state == 1 && n.radio == r && (s.lampOf c.point).isSome | none => false))
  sortBy DriveCmd.rank cs

/-- A new flight for a PDU. -/
def State.newFlight (s : State) (n : Node) (pdu : List Byte × Nat) : Flight × State :=
  ({ id := s.mesh.nextFlight, radio := n.radio, neighbour := s.nextHop 4 n, target := n.eui, pdu := pdu.1, ctr := pdu.2,
     entries := [], attempts := 0, sentAt := 0, acked := false, leave := 0, schedule := false },
   { s with mesh.nextFlight := (s.mesh.nextFlight + 1) % pow32 })

/-- A command is sent to its point: its launch and level are kept for R195 and R281. -/
def State.noteSent (s : State) (d : DriveCmd) : State :=
  s.onCover d.point (fun v => if v.lastLaunch ≤ d.launch then { v with lastLaunch := d.launch, lastLevel := d.level } else v)

/-- A PDU of entries that wait for the node of the most urgent one, those of the earliest launches, for none is sent after a later one
of its point (R195, R340); they leave queue 0x03. -/
def State.takeDrive (s : State) (c : DriveCmd) (waiting : List DriveCmd) : Option Flight × State :=
  let es := (sortBy (fun (d : DriveCmd) => d.launch) (waiting.filter (fun d => d.point == c.point))).take s.driveMost
  match s.nodeAt c.point with
  | none => (none, s)
  | some n =>
    match s.makePdu n.eui n.short false (element 0x81 (es.flatMap s.driveEntry)) with
    | (none, s) => (none, s)
    | (some p, s) =>
      let s := s.purge 0x03 (fun it => match itemDrive it with | some d => es.contains d | none => false)
      let s := es.foldl (fun s d => ((s.perfEdge 0x0011 3 1).meterBytes 8 1 64).noteSent d) s
      let x := s.newFlight n p
      (some { x.1 with entries := es }, x.2)

/-- The next drive frame of a radio: the most urgent, one sent before first. -/
def State.driveNext (s : State) (r : Nat) (other : Bool) : Option Flight × State :=
  let again := sortBy Flight.class_ (s.resendable r true other)
  let waiting := s.waitingDrive r
  match again, waiting with
  | f :: _, c :: _ => if f.class_ ≤ c.class_ then (some f, s) else s.takeDrive c waiting
  | f :: _, [] => (some f, s)
  | [], c :: _ => s.takeDrive c waiting
  | [], [] => (none, s)

/-- Frames other than drive that were sent five times without an ack are given up; a schedule is sent again with a later
activation (R315, R340). -/
def State.giveUp (s : State) (r : Nat) : State :=
  let dead := s.mesh.flights.filter (fun f => f.radio == r && !f.acked && f.entries.isEmpty && 5 ≤ f.attempts)
  dead.foldl (fun s f =>
    let s := { s with mesh.flights := s.mesh.flights.filter (fun g => g.id != f.id) }
    match s.byEui f.target with
    | some n => if f.schedule ∧ n.state = 1 then s.pushJoin n false (s.scheduleElement n) else s
    | none => s) s

/-- An item of queue 0x04 for radio `r`: the core's, or a program's as PID48, reserved u16 and an element (log entry 6). -/
def State.otherFor (s : State) (r : Nat) (it : Item) : Option OtherPdu :=
  match it.body with
  | .other p => if p.radio = r then some p else none
  | .raw b => match s.nodeAt (pidAt b 0) with
    | some n => if n.radio = r then
        some { node := n.short, eui := n.eui, radio := r, enc := false, element := slice b 8 (2 + fld b 9 1) } else none
    | none => none
  | _ => none

/-- A PDU of queue 0x04 becomes a frame. -/
def State.takeOther (s : State) (r : Nat) : Option (Option Flight × State) :=
  match (s.queue 0x04).items.findIdx? (fun it => (s.otherFor r it).isSome) with
  | none => none
  | some i => match ((s.queue 0x04).items[i]?).bind (s.otherFor r) with
    | none => none
    | some p =>
      let s := s.take 0x04 i
      match s.makePdu p.eui p.node p.enc p.element with
      | (none, s) => some (none, s)
      | (some pdu, s) =>
        let n := (s.byEui p.eui).getD { (default : Node) with eui := p.eui, short := p.node, radio := r, parent := r }
        let x := s.newFlight { n with radio := r } pdu
        some (some { x.1 with schedule := fld p.element 0 1 == 0x84 }, x.2)

/-- LEAVEs in one second of the time base (R329). -/
def State.leaveRoom (s : State) : Bool := s.mesh.leaveSecond != s.second + 1 || s.mesh.leaveCount < 20

/-- The next LEAVE or NETKEY that waits for a node of the radio. -/
def State.takeNode (s : State) (r : Nat) : Option (Option Flight × State) :=
  let leaving (n : Node) : Bool :=
    n.radio == r && n.leave != 0 && !n.leaveSent && n.state != 0 && (n.leave != 2 || s.leaveRoom)
  match (tvals s.mesh.nodes).find? leaving with
  | some n =>
    let s := s.putNode { n with leaveSent := true }
    let s := if n.leave ≠ 2 then s
      else if s.mesh.leaveSecond = s.second + 1 then { s with mesh.leaveCount := s.mesh.leaveCount + 1 }
      else { s with mesh.leaveSecond := s.second + 1, mesh.leaveCount := 1 }
    let s := s.nodeState n.eui 3
    match s.makePdu n.eui n.short false (element 0x86 (u8 n.leave ++ u8 0)) with
    | (none, s) => some (none, s)
    | (some pdu, s) => let x := s.newFlight n pdu; some (some { x.1 with leave := n.leave }, x.2)
  | none =>
    match (tvals s.mesh.nodes).find? (fun n => n.radio == r && n.rekey && n.state == 1), s.mesh.nextKey with
    | some n, some (index, instant) =>
      let s := s.putNode { n with rekey := false }
      let key := (s.slot (s.num 0x9004 + 1 - s.ks.netkeyTurn)).rec_.key
      match s.makePdu n.eui n.short true (element 0x87 (fit 16 key ++ u64 instant ++ u8 index ++ zeros 3)) with
      | (none, s) => some (none, s)
      | (some pdu, s) => let x := s.newFlight n pdu; some (some x.1, x.2)
    | _, _ => none

/-- Joined nodes of an image's kind that have not verified it. -/
def State.wanting (s : State) (b : Broadcast) : List Node :=
  (tvals s.mesh.nodes).filter (fun n => n.state == 1 && n.imageType + 1 == b.kind &&
    !(n.imageFor == b.imageId && n.imageResult == 1))

/-- Image PDUs carry counter 0 and MIC 0 (R337). -/
def imagePdu (el : List Byte) : List Byte := u16 0xFFFF ++ u8 1 ++ u8 el.length ++ u32 0 ++ el ++ u32 0

/-- The octets of an image as a file. -/
def State.imageFile (s : State) (id : Nat) : Option (List Byte) :=
  (s.up.images.find? (fun i => fld i.header 8 4 == id)).map (fun i => i.header ++ i.payload)

/-- The next image block or half block of a radio, when its pace lets one go (R544). -/
def State.takeImage (s : State) (r : Nat) : Option (List Byte × State) :=
  let fsk := s.mesh.band.phy = 1
  let per := if fsk then 2 else 1
  let gap := sec / (s.num 0x9807 * per)
  let due (b : Broadcast) : Bool :=
    decide (b.sentAt.getD r 0 + gap ≤ s.clk.mono ∨ b.sentAt.getD r 0 = 0) && !(s.wanting b).isEmpty
  match s.mesh.broadcasts.find? due with
  | none => none
  | some b => match s.imageFile b.imageId with
    | none => none
    | some file =>
      let blocks := (file.length + 63) / 64
      let i := b.next.getD r 0
      let block := i / per
      let missing := ((minOf ((s.wanting b).map (fun n => if n.imageFor = b.imageId then n.imageMissing else 0))).getD 0)
      let last := if fsk then (file.length + 31) / 32 else blocks
      let next := if last ≤ i + 1 then missing * per else i + 1
      let b' := { b with next := lset b.next r next, sentAt := lset b.sentAt r s.clk.mono }
      let data := if fsk then slice file (32 * i) 32 else slice file (64 * block) 64
      let head := u32 b.imageId ++ u16 block ++ u16 blocks
      let el := if fsk then element 0x8A (head ++ u8 (i % 2) ++ u8 0 ++ data) else element 0x88 (head ++ data)
      some (imagePdu el, { s with mesh.broadcasts := s.mesh.broadcasts.map (fun c => if c.imageId = b.imageId then b' else c) })

/-- The next frame of other downlink PDUs. -/
def State.otherNext (s : State) (r : Nat) (other : Bool) : Option Flight × State :=
  let s := s.giveUp r
  match s.resendable r false other with
  | f :: _ => (some f, s)
  | [] => match s.takeOther r with
    | some x => x
    | none => match s.takeNode r with
      | some x => x
      | none => (none, s)

/-- A broadcast that no joined node waits for has ended (R544). -/
def State.endBroadcasts (s : State) : State :=
  { s with mesh.broadcasts := s.mesh.broadcasts.filter (fun b => !(s.wanting b).isEmpty) }

/-- The next image PDU of a radio: an activation block whose instant is still ahead (R546), or a block of a broadcast. -/
def State.imageNext (s : State) (r : Nat) : Option (List Byte × State) :=
  let s := { s with mesh.activations := s.mesh.activations.filter (fun a => s.tb < a.2.2) }
  match s.mesh.activations.find? (fun a => a.1 == r) with
  | some a =>
    some (imagePdu (element 0x88 (u32 a.2.1 ++ u16 0xFFFF ++ u16 0 ++ u64 (s.meshOf a.2.2))),
      { s with mesh.activations := s.mesh.activations.filter (fun b => b != a) })
  | none => s.endBroadcasts.takeImage r

/-- An image PDU goes out where the channel and the duty let it; one that is skipped waits for the next cell. -/
def State.imageCell (s : State) (r : Nat) (busy : Bool) : State :=
  match s.imageNext r with
  | none => s.endBroadcasts
  | some (pdu, s') =>
    if (s.useCell r busy (s.mpdu pdu.length) 0).1 = .sent then (s'.useCell r busy (s.mpdu pdu.length) 0).2.air r 0xFFFF [pdu]
    else (s.endBroadcasts.useCell r busy (s.mpdu pdu.length) 0).2

/-- DRIVE_CELL (R308): drive PDUs first, other PDUs where none waits. -/
def execDriveCell (dt : Ns) (radio : Nat) (use : CellUse) (s : State) : Host.Outcome State Fault Refusal :=
  event dt (fun s =>
    if !s.mayTransmit radio ∨ s.switchQuiet ∨ s.timeslot % 2 = 0 then s
    else match (s.cellErrors use.errors).driveNext radio false with
      | (some f, s) => (s.fly radio use.busy false f).coreDrain
      | (none, s) => match s.otherNext radio false with
        | (some f, s) => (s.fly radio use.busy false f).coreDrain
        | (none, s) => (s.imageCell radio use.busy).coreDrain) s

/-- OTHER_DOWNLINK_CELL (R308). -/
def execOtherDownlinkCell (dt : Ns) (radio : Nat) (use : CellUse) (s : State) : Host.Outcome State Fault Refusal :=
  event dt (fun s =>
    if !s.mayTransmit radio ∨ s.switchQuiet ∨ !(s.timeslot = 2 ∨ (s.timeslot = 12 ∧ s.slotsPer = 20)) then s
    else match (s.cellErrors use.errors).otherNext radio true with
      | (some f, s) => (s.fly radio use.busy true f).coreDrain
      | (none, s) => match s.driveNext radio true with
        | (some f, s) => (s.fly radio use.busy true f).coreDrain
        | (none, s) => (s.imageCell radio use.busy).coreDrain) s

/-- A link ack of a downlink frame: contact with the neighbour (R319); delivery of a drive PDU for a node at depth 1 and of
every other frame (R315). A node that has left is forgotten where its reason was 1 (R328). -/
def State.linkAck (s : State) (f : Flight) : State :=
  let s := match s.byShort f.neighbour with
    | some n => s.putNode { n with lastContact := s.clk.mono }
    | none => s
  let direct := (s.byEui f.target).map (fun n => n.short) == some f.neighbour
  if !f.entries.isEmpty ∧ !direct then
    { s with mesh.flights := s.mesh.flights.map (fun g => if g.id = f.id then { g with acked := true } else g) }
  else
    let s := s.delivered f
    if f.leave = 0 then s
    else if f.leave = 1 then (s.nodeState f.target 0) |> (fun s => { s with mesh.nodes := tdel s.mesh.nodes f.target.toNat })
    else s.onNode f.target (fun n => { n with leave := if n.leave = 1 then 1 else 0, leaveSent := false })

/-- NODE_ACK_RECEIVE (R315, R319). -/
def execNodeAckReceive (dt : Ns) (radio frame : Nat) (s : State) : Host.Outcome State Fault Refusal :=
  event dt (fun s =>
    match s.mesh.flights.find? (fun f => f.id == frame && f.radio == radio && !f.acked && 0 < f.attempts) with
    | some f => (s.meterBytes (3 + radio) 0 ackOctets).linkAck f
    | none => s) s

/-- A drive PDU without confirmation is sent again as a new PDU of the entries that can still be applied, in the form that a revision
has given them (R124, R315). Those of a SILENT node are held, and discarded once they have passed (R161, R334). -/
def State.e2e (s : State) (f : Flight) : State :=
  let live := (f.entries.filter s.stillGood).map (fun c => (s.liveAt c.point c.launch).getD c)
  let gone := { s with mesh.flights := s.mesh.flights.filter (fun g => g.id != f.id) }
  match s.byEui f.target with
  | none => gone
  | some n =>
    if n.state = 2 then
      if live.isEmpty then f.entries.foldl (fun s c => (s.bump 0x30F0).discarded c) gone else s
    else if live.isEmpty ∨ n.state ≠ 1 then gone
    else match gone.makePdu n.eui n.short false (element 0x81 (live.flatMap s.driveEntry)) with
      | (none, s) => s
      | (some p, s) =>
        let x := s.newFlight n p
        { x.2 with mesh.flights := x.2.mesh.flights ++ [{ x.1 with entries := live }] }.bump 0x50FE

/-- E2E_RESEND (R315). -/
def execE2eResend (dt : Ns) (frame : Nat) (s : State) : Host.Outcome State Fault Refusal :=
  event dt (fun s =>
    match s.mesh.flights.find? (fun f => f.id == frame && !f.entries.isEmpty && 0 < f.attempts) with
    | some f => if f.sentAt + s.num 0x5018 * ms ≤ s.clk.mono then s.e2e f else s
    | none => s) s

/-! ## Silence, keys, radio failure -/

/-- NODE_SILENT (R334). -/
def execNodeSilent (dt : Ns) (point : Pid) (s : State) : Host.Outcome State Fault Refusal :=
  event dt (fun s => match s.nodeAt point with
    | some n => if n.state = 1 ∧ n.lastPdu + s.num 0x5011 * sec ≤ s.clk.mono then s.nodeState n.eui 2 else s
    | none => s) s

/-- Some counter under the current network key has passed 2³¹ (R317). -/
def State.counterHigh (s : State) : Bool :=
  s.mesh.radios.any (fun r => 2147483648 < r.counter) ||
    s.mesh.nodes.any (fun e => e.2.links.any (fun l => l.1 == s.mesh.keyIndex && decide (2147483648 < l.2.1)))

/-- A new network key is written to the next role slot, and every joined node is to be told of it an hour ahead (R317, R353,
R510; log entry 27). -/
def State.rollKey (s : State) (key : List Byte) : State :=
  let next := s.num 0x9004 + 1 - s.ks.netkeyTurn
  let s := s.writeSlot next 1
    { type := 1, attrs := (s.slot s.netkeySlot).rec_.attrs, gen := s.nextGen next, disabled := false, key := fit 16 key,
      parent := none }
  { s with mesh.nextKey := some (s.mesh.keyIndex % 255 + 1, s.meshTime + 3600 * sec)
           mesh.nodes := s.mesh.nodes.map (fun e => (e.1, { e.2 with rekey := e.2.state == 1 || e.2.state == 2 })) }

/-- KEY_ROLL (R317). -/
def execKeyRoll (dt : Ns) (key : List Byte) (s : State) : Host.Outcome State Fault Refusal :=
  event dt (fun s =>
    if s.mesh.nextKey.isNone ∧ s.keyUsable s.netkeySlot 1 ∧
        (s.mesh.keyMadeAt + s.num 0x5017 * 86400 * sec ≤ s.clk.mono ∨ s.counterHigh) then s.rollKey key
    else s) s

/-- NETKEY_ACTIVATION (R353, R510): the two role slots exchange meaning and every counter starts again from 0. -/
def execNetkeyActivation (dt : Ns) (s : State) : Host.Outcome State Fault Refusal :=
  event dt (fun s => match s.mesh.nextKey with
    | some (index, instant) =>
      if s.meshTime < instant then s
      else
        { s with mesh.oldKey := some (s.mesh.keyIndex, s.clk.mono), mesh.keyIndex := index, mesh.nextKey := none,
                 mesh.keyMadeAt := s.clk.mono, ks.netkeyTurn := 1 - s.ks.netkeyTurn,
                 mesh.radios := s.mesh.radios.map (fun r => { r with counter := 0, committed := 65536 }),
                 mesh.nodes := s.mesh.nodes.map (fun e => (e.1, { e.2 with rekey := false })) }
    | none => s) s

/-- OLD_KEY_DISCARD (R353). -/
def execOldKeyDiscard (dt : Ns) (s : State) : Host.Outcome State Fault Refusal :=
  event dt (fun s => match s.mesh.oldKey with
    | some (index, t) =>
      if s.clk.mono < t + 60 * sec then s
      else
        { s with mesh.oldKey := none
                 mesh.nodes := s.mesh.nodes.map (fun e =>
                   (e.1, { e.2 with links := e.2.links.filter (fun l => l.1 != index) })) }
    | none => s) s

/-- RADIO_SELF_TEST_FAIL (R333): its nodes rehome themselves by REJOIN. -/
def execRadioSelfTestFail (dt : Ns) (radio : Nat) (s : State) : Host.Outcome State Fault Refusal :=
  event dt (fun s => s.onRadio radio (fun x => { x with selfTestFailed := true })) s

/-- ACTIVATION_BROADCAST (R546): every 10 s from the arm until the instant, for every radio's next free cell; at the instant the arm is
retired. -/
def execActivationBroadcast (dt : Ns) (kind : Nat) (s : State) : Host.Outcome State Fault Refusal :=
  event dt (fun s => match tget s.up.arms kind with
    | some a =>
      let due := (tget s.up.lastActivation kind).all (fun (t : Ns) => decide (t + 10 * sec ≤ s.clk.mono))
      if 1 ≤ kind ∧ kind ≤ 4 ∧ !a.pending ∧ s.tb < a.instant ∧ due then
        { s with up.lastActivation := tput s.up.lastActivation kind s.clk.mono
                 mesh.activations := s.mesh.activations.filter (fun x => x.2.1 != a.imageId) ++
                   (List.range s.radiosFitted).map (fun r => (r, a.imageId, a.instant)) }
      else if 1 ≤ kind ∧ kind ≤ 4 ∧ !a.pending ∧ a.instant ≤ s.tb then
        { s with up.activated := s.up.activated ++ [(kind, a.imageId, a.instant)], up.arms := tdel s.up.arms kind
                 up.lastActivation := tdel s.up.lastActivation kind }
      else s
    | none => s) s

end Sys2Proof.Machine
end

