-- ==== Sys2Proof/Machine/HostLink.lean ====
section
/-!
DEFINITION. The host-link window (R101–R120, Tables 3.4 and 3.5): apertures, doorbell, resets, latched reads, register
writes, and parity.
-/

namespace Sys2Proof.Machine

/-! ## Transactions (R110, R111) -/

/-- The window takes the transaction: it serves, and the address lies in it. -/
def State.hlTakes (s : State) (t : HlTx) : Bool := s.hlServes && t.addr.toNat < 1024

/-- A write transaction (Table 3.4). -/
def State.hlWrites (s : State) (t : HlTx) : Bool := s.hlTakes t && (t.instr == 0x02#8 || t.instr == 0x32#8)

/-- A read transaction: 0x0B, or 0xEB while QUAD_RD is set (Table 3.4). -/
def State.hlReads (s : State) (t : HlTx) : Bool :=
  s.hlTakes t && (t.instr == 0x0B#8 || (t.instr == 0xEB#8 && hasBit s.hl.ctrl.toNat 3))

/-- A 0xEB read above 50 MHz with DUMMY below 6 returns data that is not valid (R604). -/
def State.hlBadRead (s : State) (t : HlTx) : Bool := t.instr == 0xEB#8 && 50 < t.sckMHz && s.hlDummy < 6

/-- Data a read returns; free where the read is not valid (R604, log entry 3). -/
def State.hlReturn (s : State) (t : HlTx) (bytes : List Byte) : State :=
  let s := s.meterBytes 2 1 bytes.length
  if s.hlBadRead t then
    let d := s.draw
    { d.2 with out := d.2.out ++ [.hostData (le bytes.length d.1)] }
  else { s with out := s.out ++ [.hostData bytes] }

/-- Count modulo 2¹⁶ (R102). -/
def count16 (c : BitVec 16) (n : Nat) : BitVec 16 := c + BitVec.ofNat 16 n

/-! ## Command and response buffers (R113–R115) -/

/-- Append bytes to the command buffer: dropped while CMD_BUSY, and beyond 1,500 (R113, R114). -/
def State.hlAppend (s : State) (bytes : List Byte) : State :=
  let s := s.meterBytes 2 0 bytes.length
  if s.hlBusy then { s with hl.dropped := count16 s.hl.dropped bytes.length }
  else
    let room := 1500 - s.hl.cmd.length
    { s with hl.cmd := s.hl.cmd ++ bytes.take room
             hl.overrun := s.hl.overrun || decide (room < bytes.length)
             hl.dropped := count16 s.hl.dropped (bytes.length - room) }

/-- HL_CMD_APERTURE_WRITE (R113): a transaction that starts in the aperture belongs to it with all its bytes (log entry 94). -/
def execHlCmdApertureWrite (dt : Ns) (tx : HlTx) (bytes : List Byte) (s : State) : Host.Outcome State Fault Refusal :=
  event dt (fun s =>
    if s.hlWrites tx ∧ 0x100 ≤ tx.addr.toNat ∧ tx.addr.toNat < 0x200 then s.hlAppend bytes else s) s

/-- Read `n` bytes of the head message; past its end they are zero and counted (R115). -/
def State.hlConsume (s : State) (t : HlTx) (n : Nat) : State :=
  let left := (s.hl.rsp.headD []).drop s.hl.readPos
  let got := left.take n
  let excess := n - got.length
  ({ s with hl.readPos := s.hl.readPos + got.length, hl.pastEnd := count16 s.hl.pastEnd excess }).hlReturn t
    (got ++ zeros excess)

/-- HL_RSP_APERTURE_READ (R115): a transaction that starts in the aperture belongs to it with all its bytes, and each byte past the
message's end is counted (log entry 94). -/
def execHlRspApertureRead (dt : Ns) (tx : HlTx) (count : Nat) (s : State) : Host.Outcome State Fault Refusal :=
  event dt (fun s =>
    if s.hlReads tx ∧ 0x200 ≤ tx.addr.toNat ∧ tx.addr.toNat < 0x300 then s.hlConsume tx count else s) s

/-- CLEAR: bytes not yet handed over go, and CMD_OVERRUN clears (R114, Table 3.5). -/
def State.hlClear (s : State) : State := { s with hl.cmd := [], hl.overrun := false }

/-- RING: the buffer is handed to the firmware, dropped while CMD_BUSY, or discarded when overrun or short (R114). -/
def State.hlRing (s : State) : State :=
  if s.hlBusy then { s with hl.dropped := count16 s.hl.dropped 1 }
  else if s.hl.overrun || s.hl.cmd.length < 28 then { s.hlClear with hl.crcShort := count16 s.hl.crcShort 1 }
  else { s with hl.handed := some s.hl.cmd, hl.cmd := [] }

/-- RING, and CLEAR in the same write (R114). -/
def execRing (dt : Ns) (tx : HlTx) (clearToo : Bool) (s : State) : Host.Outcome State Fault Refusal :=
  event dt (fun s =>
    if s.hlWrites tx ∧ tx.addr = 0x084#16 then (if clearToo then s.hlRing.hlClear else s.hlRing) else s) s

/-- CLEAR (R114). -/
def execClear (dt : Ns) (tx : HlTx) (s : State) : Host.Outcome State Fault Refusal :=
  event dt (fun s => if s.hlWrites tx ∧ tx.addr = 0x084#16 then s.hlClear else s) s

/-- POP releases the head message; a waiting one enters (R115). -/
def State.hlPop (s : State) : State := { s with hl.rsp := s.hl.rsp.drop 1, hl.readPos := 0 }.hlFill

/-- POP (R115). -/
def execPop (dt : Ns) (tx : HlTx) (s : State) : Host.Outcome State Fault Refusal :=
  event dt (fun s => if s.hlWrites tx ∧ tx.addr = 0x090#16 then s.hlPop else s) s

/-! ## Resets (R117, R118, R120) -/

/-- LINK_RESET: the host-link session goes and the window takes its reset values; the Holder binding stays. -/
def State.hlLinkReset (s : State) : State := { s.lapse .host with hl := .reset }

/-- MODULE_RESET: a host-link soft reset where the host is the Holder's endpoint or nobody is bound; else ignored and
counted, as in LAST-GASP. -/
def State.hlModuleReset (s : State) : State :=
  if s.pwr.state ≠ .lastGasp ∧ (!s.link.bound ∨ s.link.floorEp = some .host) then s.enterReset 5
  else { s with hl.resetIgnored := count16 s.hl.resetIgnored 1 }

/-- LINK_RESET, and MODULE_RESET in the same write (R117, R118). -/
def execLinkReset (dt : Ns) (tx : HlTx) (moduleToo : Bool) (s : State) : Host.Outcome State Fault Refusal :=
  event dt (fun s =>
    if s.hlWrites tx ∧ tx.addr = 0x01C#16 then
      (if moduleToo then s.hlLinkReset.hlModuleReset else s.hlLinkReset)
    else s) s

/-- MODULE_RESET (R118). -/
def execModuleReset (dt : Ns) (tx : HlTx) (s : State) : Host.Outcome State Fault Refusal :=
  event dt (fun s => if s.hlWrites tx ∧ tx.addr = 0x01C#16 then s.hlModuleReset else s) s

/-! ## Register writes (R103, R104, R107) -/

/-- The value a write leaves: reserved bits change only while the life cycle is BLANK (R104). -/
def State.hlMerge (s : State) (old new : Word) (writable : Word) : Word :=
  if s.ks.lifecycle = 0 then new else (new &&& writable) ||| (old &&& ~~~writable)

/-- A write that changes a reserved bit is counted and recorded (R104). -/
def State.hlReservedCheck (s : State) (offset : Nat) (old new writable : Word) : State :=
  if (old ^^^ new) &&& ~~~writable = 0#32 then s
  else
    ({ s with hl.reservedWrites := count16 s.hl.reservedWrites 1 }.bump 0x10F1).record 0x1002 0x13
      (u8 1 ++ u8 s.ks.lifecycle ++ u16 offset ++ u32 old.toNat ++ u32 new.toNat)

/-- A completed word of a write burst. Bits [31:6] of HL_LG_SELECT, which Table 3.5 does not list, are taken as reserved (log entry
94). -/
def State.hlWriteWord (s : State) (offset : Nat) (v : Word) : State :=
  match offset with
  | 0x014 => { s with hl.scratch := v }
  | 0x018 =>
    let old := s.hl.ctrl
    let new := s.hlMerge old v 0xFF#32
    { s.hlReservedCheck offset old v 0xFF#32 with hl.ctrl := new, hl.ctrlBadParity := false }
  | 0x01C =>
    let s := if hasBit v.toNat 0 then s.hlLinkReset else s
    if hasBit v.toNat 1 then s.hlModuleReset else s
  | 0x084 =>
    let s := if hasBit v.toNat 0 then s.hlRing else s
    if hasBit v.toNat 1 then s.hlClear else s
  | 0x090 => if hasBit v.toNat 0 then s.hlPop else s
  | 0x044 =>
    let old := s.hl.attnMask
    let new := s.hlMerge old v 0xF#32
    { s.hlReservedCheck offset old v 0xF#32 with hl.attnMask := new, hl.maskBadParity := false }
  | 0x304 => { s.hlReservedCheck offset (s.hl.lgSelect.setWidth 32) v 0x3F#32 with hl.lgSelect := v.setWidth 6 }
  | _ => s

/-- A write burst of `bits` bits: the address goes on by 4 for each word, and a word that is not complete has no effect (R111). -/
def State.hlWriteBurst (s : State) (offset : Nat) (l : List Word) : State :=
  match l with
  | [] => s
  | v :: rest =>
    (if s.hlServes then s.hlWriteWord (offset % 1024) v else s).hlWriteBurst (offset + 4) rest

/-- REGISTER_WRITE: completed words at multiples of 4 (R111). -/
def execRegisterWrite (dt : Ns) (tx : HlTx) (values : List Word) (bits : Nat) (s : State) : Host.Outcome State Fault Refusal :=
  event dt (fun s =>
    if s.hlWrites tx ∧ tx.addr.toNat % 4 = 0 ∧ (tx.addr.toNat < 0x100 ∨ 0x200 ≤ tx.addr.toNat) then
      s.hlWriteBurst tx.addr.toNat (values.take (bits / 32)) else s) s

/-! ## The window as it reads (Table 3.5) -/

/-- A recorder record as it is stored (Table 13.1), with its CRC as stored (R488). -/
def recordBytes (r : RecEntry) : List Byte :=
  let b := u32 r.seq ++ u32 r.opSeconds ++ u32 r.cycles ++ u16 r.event ++ u8 r.unit ++ u8 r.flags ++ u64 r.stamp ++
    fit 36 r.data
  b ++ u32 (match r.badCrc with | some x => x.toNat | none => crc32c b)

/-- The entry HL_LG_SELECT shows, zeros where it names none. -/
def State.lgEntry (s : State) : List Byte :=
  match s.ev.lastGasp[s.hl.lgSelect.toNat]? with
  | some r => recordBytes r
  | none => zeros 64

/-- Health fields of units `lo` to `lo + 15`, two bits each. -/
def State.hlHealth (s : State) (lo : Nat) : Nat :=
  sumOf ((List.range 16).map (fun n => (s.unitHealth (lo + n)).state.code * 4 ^ n))

/-- A word of the window, as a host reads it without its side effect (Table 3.5). -/
def State.hlWord (s : State) (offset : Nat) : Nat :=
  match offset with
  | 0x000 => (if s.is16C then 2 else 1) + 256 + 0xD2C5 * 65536
  | 0x004 => 3 + 256
  | 0x008 => s.build % pow32
  | 0x00C => s.id.serial % pow32
  | 0x010 => s.id.serial / pow32 % pow32
  | 0x014 => s.hl.scratch.toNat
  | 0x018 => s.hl.ctrl.toNat
  | 0x020 => s.hl.crcShort.toNat + 65536 * s.hl.dropped.toNat
  | 0x024 => s.hl.pastEnd.toNat + 65536 * s.hl.resetIgnored.toNat
  | 0x028 => s.hl.parityFails.toNat + 65536 * s.hl.reservedWrites.toNat
  | 0x040 => s.hlStatus
  | 0x044 => s.hl.attnMask.toNat
  | 0x048 => s.hlAttnCause
  | 0x080 => s.hl.cmd.length
  | 0x088 => (s.hl.rsp.headD []).length + 65536 * s.hl.rsp.length
  | 0x08C => (s.hl.rsp.headD []).length - s.hl.readPos
  | 0x300 => s.ev.lastGasp.length
  | 0x304 => s.hl.lgSelect.toNat
  | 0x380 => s.sdTime
  | 0x384 => s.hl.sdDate.toNat
  | 0x388 => s.hl.sdSub.toNat
  | 0x38C => s.sdPower
  | 0x390 => s.pwr.cycles
  | 0x394 => s.pwr.opSeconds
  | 0x3C0 => s.hlHealth 0
  | 0x3C4 => s.hlHealth 16
  | 0x3C8 => s.now % pow32
  | 0x3CC => if s.timeValid then s.hl.nowHi.toNat else 0
  | o => if 0x340 ≤ o ∧ o < 0x380 then fld s.lgEntry (o - 0x340) 4 else 0

/-! ## Latched reads (R119) -/

/-- The word a read burst shifts out at an offset, and what its completion does: SD_TIME latches SD_DATE and SD_SUB, HL_NOW_LO latches
HL_NOW_HI (R119). The apertures read as zero in a burst (log entry 94). -/
def State.hlLatch (s : State) (offset : Nat) : State :=
  match offset with
  | 0x380 => { s with hl.sdDate := BitVec.ofNat 32 s.sdDate, hl.sdSub := BitVec.ofNat 32 s.sdSub }
  | 0x3C8 => { s with hl.nowHi := BitVec.ofNat 32 (s.now / pow32) }
  | _ => s

def State.hlReadWord (s : State) (offset : Nat) : List Byte :=
  if 0x100 ≤ offset ∧ offset < 0x300 then zeros 4 else u32 (s.hlWord offset)

/-- A read burst of `n` bits from an offset: the address goes on by 4 for each word, and a word that is not complete has no side
effect (R111). -/
def State.hlBurst (s : State) (offset n : Nat) : List Byte × State :=
  (List.range ((n + 31) / 32)).foldl (fun (a : List Byte × State) i =>
    let o := (offset + 4 * i) % 1024
    (a.1 ++ (a.2.hlReadWord o).take ((n - 32 * i + 7) / 8), if 32 * (i + 1) ≤ n then a.2.hlLatch o else a.2)) ([], s)

/-- A read transaction at a multiple of 4 outside the apertures. -/
def State.hlReadTx (s : State) (b : HlRead) : State :=
  let r := s.hlBurst b.tx.addr.toNat b.bits
  r.2.hlReturn b.tx r.1

/-- The burst comes to the register at `offset`. -/
def burstReaches (b : HlRead) (offset : Nat) : Bool :=
  b.tx.addr.toNat % 4 == 0 && b.tx.addr.toNat ≤ offset && offset < b.tx.addr.toNat + b.bits / 32 * 4 + 4

/-- SD_TIME_READ: a read burst that comes to SD_TIME latches SD_DATE and SD_SUB once that word is complete (R111, R119). -/
def execSdTimeRead (dt : Ns) (burst : HlRead) (s : State) : Host.Outcome State Fault Refusal :=
  event dt (fun s => if s.hlReads burst.tx ∧ burstReaches burst 0x380 then s.hlReadTx burst else s) s

/-- HL_NOW_LO_READ: the same for HL_NOW_LO, which latches HL_NOW_HI. -/
def execHlNowLoRead (dt : Ns) (burst : HlRead) (s : State) : Host.Outcome State Fault Refusal :=
  event dt (fun s => if s.hlReads burst.tx ∧ burstReaches burst 0x3C8 then s.hlReadTx burst else s) s

/-! ## Parity (R105–R108) -/

/-- Failures of a register within the last 60 s, the present one among them. -/
def recentFails (times : List Ns) (now : Ns) : List Ns := times.filter (fun t => now < t + 60 * sec) ++ [now]

/-- The parity of a firmware-written register fails, named by its parameter and index: counted and recorded; the third time in 60 s it
is marked failed. -/
def State.parityParam (s : State) (id index : Nat) : State :=
  let key := pkey id index
  let times := recentFails ((tget s.par.parityTimes key).getD []) s.clk.mono
  let third := 3 ≤ times.length
  let s := { s with par.parityTimes := tput s.par.parityTimes key times
                    par.failed := if third && !s.par.failed.contains key then s.par.failed ++ [key] else s.par.failed
                    par.restoring := s.par.restoring ++ [key] }
  (s.bump 0x10F0).record 0x1001 (paramUnit id index) (u8 (paramUnit id index) ++ u8 (bit third) ++ u16 id)

/-- A memory error of the control core: corrected in place it is recorded, in a record whose event and data the spec does not state
(log entries 3 and 80); otherwise it costs the core some of its function (R43). -/
def State.coreError (s : State) (corrected : Bool) : State :=
  if corrected then
    let d := s.draw
    let e := d.2.draw
    e.2.record (d.1 % 65536) 0 (le 36 e.1)
  else { s with pwr.coreReduced := true }

/-- The parity of a host-link register fails: restored from its duplicate, or, that failed too, at its reset value with
CFG_PARITY set; the third time in 60 s the register is marked failed (R107, R108). -/
def State.parityWindow (s : State) (f : ParityFail) : State :=
  match f with
  | .parameter id index => s.parityParam id index
  | .core corrected => s.coreError corrected
  | .hlCtrl dup =>
    let times := recentFails s.hl.ctrlTimes s.clk.mono
    let s := { s with hl.parityFails := count16 s.hl.parityFails 1, hl.ctrlTimes := times
                      hl.ctrl := if dup then 0x80#32 else s.hl.ctrl, hl.ctrlBadParity := s.hl.ctrlBadParity || dup }
    if 3 ≤ times.length then { s with hl.ctrlFailed := true }.record 0x1001 0x13 (u8 0x13 ++ u8 1 ++ u16 0x018) else s
  | .hlAttnMask dup =>
    let times := recentFails s.hl.maskTimes s.clk.mono
    let s := { s with hl.parityFails := count16 s.hl.parityFails 1, hl.maskTimes := times
                      hl.attnMask := if dup then 1#32 else s.hl.attnMask, hl.maskBadParity := s.hl.maskBadParity || dup }
    if 3 ≤ times.length then { s with hl.maskFailed := true }.record 0x1001 0x13 (u8 0x13 ++ u8 1 ++ u16 0x044) else s

/-- PARITY_SCAN: each failure is handled; units are MASKED until their registers are restored, which is before the command
ends (R105, R106). -/
def execParityScan (dt : Ns) (fails : List ParityFail) (s : State) : Host.Outcome State Fault Refusal :=
  event dt (fun s => { (fails.foldl (fun s f => s.parityWindow f) s).settle with par.restoring := [] }) s

end Sys2Proof.Machine
end

