-- ==== Sys2Proof/Machine/MeterOps.lean ====
section
/-!
DEFINITION. The metering island (R358–R389): gain, per-cycle quantities, energy registers, summaries, voltage events,
calibration and checkpoints. Samples are nV at the input; raw sums times mt.v_scale × mt.i_scale count units of
1 / (128 × 2³² × 10¹⁸) W. Readings are rounded to the nearest unit of their field, energies down to 2⁻³² µWh (log entry 29).
-/

namespace Sys2Proof.Machine

/-! ## Phasors (Table 9.2) -/

/-- cos(2πn/128) × 2⁴⁰ for n = 0–32 (log entry 29). -/
def cosQuarter : List Int :=
  [1099511627776, 1098187217867, 1094217178761, 1087611074629, 1078384820155, 1066560642194, 1052167026225,
   1035238647732, 1015816288660, 993946739174, 969682684934] ++
  [943082580171, 914210506869, 883136020380, 849933981865, 814684377941, 777472127994, 738386879591, 697522792521,
   654978311948, 610855931251, 565261945112] ++
  [518306193436, 470101796741, 420764883643, 370414311084, 319171378006, 267159533123, 214504077523, 161331862813,
   107770985514, 53950478471, 0]

/-- cos(2πn/128) × 2⁴⁰. -/
def cos128 (n : Nat) : Int :=
  let n := n % 128
  if n ≤ 32 then cosQuarter.getD n 0
  else if n ≤ 64 then -(cosQuarter.getD (64 - n) 0)
  else if n ≤ 96 then -(cosQuarter.getD (n - 64) 0)
  else cosQuarter.getD (128 - n) 0

def cosTable : List Int := (List.range 128).map cos128
/-- sin x = cos (x − π/2). -/
def sinTable : List Int := (List.range 128).map (fun n => cos128 (n + 96))

def dot (a b : List Int) : Int := (List.zipWith (· * ·) a b).foldl (· + ·) 0

/-- A fundamental phasor, real and imaginary part times 128 × 2⁴⁰ / √2. -/
def phasor (x : List Int) : Int × Int := (dot x cosTable, -(dot x sinTable))

/-- Squared length of a phasor. -/
def power2 (a : Int × Int) : Nat := (a.1 * a.1 + a.2 * a.2).natAbs

/-- √(num / den) rounded to the nearest integer. -/
def rmsNear (num den : Nat) : Nat := (isqrt (4 * num / den) + 1) / 2

/-- THD in 0.01 % from Σ x² and the fundamental; with no fundamental the quotient is not stated: a free value (log entry 3). -/
def State.thd (s : State) (sum2 h : Nat) : Nat × State :=
  if h = 0 then (let d := s.draw; (d.1 % 65536, d.2))
  else (min 65535 (rmsNear (10 ^ 8 * (sum2 * 128 * 2 ^ 80 - 2 * h)) (2 * h)), s)

/-! ## Scales and settings -/

/-- mt.v_scale × mt.i_scale of a circuit, each in 2⁻¹⁶. -/
def State.powerScale (s : State) (c : Nat) : Int := s.int 0x6080 (s.num 0x6090 c) * s.int 0x6091 c

/-- Nanoseconds of a cycle at mt.f_nom. -/
def State.nominalNs (s : State) : Ns := if s.num 0x6001 = 1 then 16666667 else 20000000

/-- Cycles to a summary (R380). -/
def State.summaryCycles (s : State) : Nat :=
  if s.num 0x6007 ≠ 0 then s.num 0x6007 else if s.num 0x6001 = 1 then 12 else 10

/-- Cycles end free of a fundamental (R366): `volts` are the input's points over the cycle. -/
def State.unsynced (s : State) (input : Nat) (x : CycleData) (volts : List Int) : Bool :=
  let h := power2 (phasor volts)
  let vs := (s.int 0x6080 input).natAbs
  !x.sync || x.length * 65 < sec || sec < x.length * 45 ||
    -- |V1|² = 2 h vs² / (128² × 2⁸⁰ × 2³² × 10¹⁸) V², against (u_din / 1000)² V²
    decide (2 * h * vs * vs * 1000000 < s.num 0x6002 * s.num 0x6002 * (16384 * 2 ^ 112 * 10 ^ 18))

/-! ## Gain (R362–R365) -/

/-- A magnitude in nV reaches a share (%) of full scale at a gain step. -/
def reaches (x : Nat) (percent gain : Nat) : Bool := percent * 5000000 ≤ x * 4 ^ gain

/-- What the samples of a cycle make of a current input: the gain step, samples that still settle, whether the gain was lowered, samples
at full scale, the peak, and the good samples with their instants. -/
structure GainWalk where
  gain : Nat
  settling : Nat
  switched : Bool
  clips : Nat
  peak : Nat
  good : List (Int × Int)

/-- A sample within the cycle: the 3 after a gain change settle; under automatic gain one that reaches 90 % lowers the gain (R363–R365). -/
def GainWalk.step (auto : Bool) (w : GainWalk) (e : Int × Int) : GainWalk :=
  if 0 < w.settling then { w with settling := w.settling - 1 }
  else
    let lower := auto && decide (0 < w.gain) && reaches e.2.natAbs 90 w.gain
    { gain := if lower then w.gain - 1 else w.gain, settling := if lower then 3 else 0, switched := w.switched || lower
      clips := w.clips + bit (reaches e.2.natAbs 100 w.gain), peak := max w.peak e.2.natAbs, good := w.good ++ [e] }

/-! ## Resampling (R364, R367)

The curve through samples is the cubic through the two on each side, for settling samples (R364) as for the points between samples, for
which R367 names no curve (log entry 95). -/

/-- Samples with their instants in ns from the start of the window. -/
def timed (first : Int) (xs : List Int) : List (Int × Int) := xs.mapIdx (fun k x => (first + 125000 * k, x))

/-- The value at `t` of the polynomial through some samples, to the nearest nV. -/
def through (nodes : List (Int × Int)) (t : Int) : Int :=
  let term (a : Int × Int) : Int × Int :=
    nodes.foldl (fun x b => if b.1 = a.1 then x else (x.1 * (t - b.1), x.2 * (a.1 - b.1))) (a.2, 1)
  let y := nodes.foldl (fun x a => let z := term a; (x.1 * z.2 + z.1 * x.2, x.2 * z.2)) ((0 : Int), (1 : Int))
  nearDiv (y.1 * y.2.sign) y.2.natAbs

/-- The two samples on each side of an instant. -/
def around (xs : List (Int × Int)) (t : Int) : List (Int × Int) :=
  lastN 2 (xs.filter (fun e => e.1 ≤ t)) ++ (xs.filter (fun e => t < e.1)).take 2

/-- Points of a window of `length` ns, delayed by `delay` ns. -/
def resample (points : Nat) (xs : List (Int × Int)) (length : Ns) (delay : Int) : List Int :=
  (List.range points).map (fun n => let t : Int := (n * length / points : Nat) - delay; through (around xs t) t)

/-! ## Energy (R371–R374) -/

/-- Energy of a raw power over `t` ns in 2⁻³² µWh. -/
def energyOf (raw : Int) (t : Ns) : Nat := raw.natAbs * t * 10 ^ 4 / (128 * 36 * 10 ^ 27)

/-- Add energy to the registers that the signs choose (R372). -/
def Registers.add (r : Registers) (p q1 : Int) (t : Ns) : Registers :=
  let a := energyOf p t
  let b := energyOf q1 t
  let r := if 0 ≤ p then { r with imp := r.imp + (r.impRes + a) / pow32, impRes := (r.impRes + a) % pow32 }
    else { r with exp := r.exp + (r.expRes + a) / pow32, expRes := (r.expRes + a) % pow32 }
  if 0 ≤ q1 then { r with lag := r.lag + (r.lagRes + b) / pow32, lagRes := (r.lagRes + b) % pow32 }
  else { r with lead := r.lead + (r.leadRes + b) / pow32, leadRes := (r.leadRes + b) % pow32 }

/-- A register between its values at a cycle's two ends, `part` of `whole` into it. -/
def between (a aRes b bRes part whole : Nat) : Nat :=
  let x := a * pow32 + aRes
  let y := b * pow32 + bRes
  (x + (y - x) * part / (max 1 whole)) / pow32

/-- The registers at an instant of the time base under R374: inside the last cycle its energy is split, before it they stood
as it found them, after it as it left them. -/
def MeterCircuit.at_ (m : MeterCircuit) (t : Ns) : Registers :=
  let w := m.cycleEnd - m.cycleStart
  let n := min w (t - m.cycleStart)
  { imp := between m.prev.imp m.prev.impRes m.regs.imp m.regs.impRes n w
    exp := between m.prev.exp m.prev.expRes m.regs.exp m.regs.expRes n w
    lag := between m.prev.lag m.prev.lagRes m.regs.lag m.regs.lagRes n w
    lead := between m.prev.lead m.prev.leadRes m.regs.lead m.regs.leadRes n w
    impRes := 0, expRes := 0, lagRes := 0, leadRes := 0 }

/-! ## Summaries (R380, R381) -/

/-- A count that would exceed its field stays at the field's maximum and sets SATURATED. -/
def Summary.saturate (x : Summary) : Summary :=
  let top : Nat := pow32 - 1
  let out := decide (65535 < x.cycles) || [x.dImp, x.dExp, x.dLag, x.dLead].any (fun d => decide (top < d))
  { x with cycles := min 65535 x.cycles, dImp := min top x.dImp, dExp := min top x.dExp, dLag := min top x.dLag
           dLead := min top x.dLead, flags := x.flags ||| (if out then 16 else 0) }

/-- The mean of a sum over `n` cycles, rounded. -/
def meanOf (x : Int) (n : Nat) : Int := nearDiv x (max 1 n)

/-- Fold an unsent summary into the next one (R381): sums of cycles, each mean weighted by its cycles. A saturated count no
longer tells the cycles that the sums hold. -/
def Summary.fold (old new : Summary) : Summary :=
  { flags := old.flags ||| new.flags ||| 1, cycles := old.cycles + new.cycles, v2 := old.v2 + new.v2
    freq := old.freq + new.freq, i2 := old.i2 + new.i2, p := old.p + new.p, q1 := old.q1 + new.q1, p1 := old.p1 + new.p1
    dImp := old.dImp + new.dImp, dExp := old.dExp + new.dExp, dLag := old.dLag + new.dLag, dLead := old.dLead + new.dLead
    thdV := old.thdV + new.thdV, thdI := old.thdI + new.thdI, gain := new.gain }

/-- Raw power in mW or mvar. -/
def milli (raw : Int) (n : Nat) : Int :=
  clampTo (-2147483648) 2147483647 (nearDiv (raw * 1000) (128 * 2 ^ 32 * 10 ^ 18 * max 1 n))

/-- Table 9.4. -/
def Summary.bytes (x : Summary) (c : Nat) : List Byte :=
  let n := max 1 x.cycles
  let y := x.saturate
  u8 c ++ u8 y.flags ++ u16 y.cycles ++ u16 (min 65535 (rmsNear x.v2 n)) ++ u16 (min 65535 (meanOf x.freq n).toNat) ++
    u32 (min (pow32 - 1) (rmsNear x.i2 n)) ++ leI 4 (milli x.p n) ++ leI 4 (milli x.q1 n) ++ leI 4 (milli x.p1 n) ++
    u32 y.dImp ++ u32 y.dExp ++ u32 y.dLag ++ u32 y.dLead ++ u16 (min 65535 (meanOf x.thdV n).toNat) ++
    u16 (min 65535 (meanOf x.thdI n).toNat) ++ u8 x.gain ++ zeros 3

/-- A cycle enters the summary being gathered. -/
def Summary.addCycle (x : Summary) (v : CycleVals) (flags : Nat) : Summary :=
  { x with flags := x.flags ||| flags, cycles := x.cycles + 1, v2 := x.v2 + v.v2, freq := x.freq + v.freq
           i2 := x.i2 + v.i2, p := x.p + v.p, q1 := x.q1 + v.q1, p1 := x.p1 + v.p1, thdV := x.thdV + v.thdV
           thdI := x.thdI + v.thdI }

/-- `n` equal cycles. -/
def Summary.addCycles (n : Nat) (x : Summary) (v : CycleVals) (flags : Nat) : Summary :=
  match n with
  | 0 => x
  | n + 1 => Summary.addCycles n (x.addCycle v flags) v flags

/-- The mean of two cycles (R389). -/
def CycleVals.mean (a b : CycleVals) : CycleVals :=
  { p := (a.p + b.p) / 2, q1 := (a.q1 + b.q1) / 2, p1 := (a.p1 + b.p1) / 2, v2 := (a.v2 + b.v2) / 2, i2 := (a.i2 + b.i2) / 2
    freq := (a.freq + b.freq) / 2, thdV := (a.thdV + b.thdV) / 2, thdI := (a.thdI + b.thdI) / 2 }

/-- A summary that is due is pushed to queue 0x09; a full queue folds it into the next one. -/
def State.pushSummary (s : State) (c : Nat) : State :=
  let m := s.metered c
  let x := match m.folded with | some o => o.fold m.summary | none => m.summary
  let m := { m with summary := .zero, folded := none }
  let s := { s with mt.inputs := lmod s.mt.inputs (s.num 0x6090 c) (fun i =>
    { i with vRms := min 65535 (rmsNear x.v2 (max 1 x.cycles)) }) }
  if !s.running then s.setMetered c { m with folded := some x }
  else if (s.consumer 0x09).isNone then s.setMetered c m
  else if s.queueFull 0x09 then (((s.setMetered c { m with folded := some x }).bump 0x4C88 0x09).bump 0x60F0)
  else (s.setMetered c m).put 0x09 (s.itemFor 0x09 c s.now (.raw (x.bytes c)))

/-! ## Converters (R386–R389) -/

def Converter.fresh : Converter :=
  { lastCal := 0, calStamp := 0, step := none, forced := false, gapFill := false, failed := false, standIn := false }

def State.converter (s : State) (k : Nat) : Converter := (tget s.mt.converters k).getD .fresh

def State.setConverter (s : State) (k : Nat) (x : Converter) : State :=
  { s with mt.converters := tput s.mt.converters k x }

/-- Converters of the module: the circuits' and the three voltage inputs'. -/
def State.isConverter (s : State) (k : Nat) : Bool := k < s.circuitsFitted || (48 ≤ k && k < 51)

/-- The voltage input a converter belongs to. -/
def State.converterPhase (s : State) (k : Nat) : Nat := if k < 48 then s.num 0x6090 k else k - 48

def Converter.dead (x : Converter) : Bool := x.failed && !x.standIn

/-- A circuit is not measured: its converter, or its phase's, has failed with no spare to stand in (Table 9.7). -/
def State.notMeasured (s : State) (c : Nat) : Bool :=
  (s.converter c).dead || (s.converter (48 + s.num 0x6090 c)).dead

/-- A converter is measuring the reference in a gap fill. -/
def State.inGap (s : State) (k : Nat) : Bool := (s.converter k).gapFill && (s.converter k).step.isSome

/-- The conditions of R386 that keep a calibration from starting or running on. -/
def State.calHeld (s : State) (k : Nat) : Bool :=
  s.mt.opened.any (fun e => hasBit e.inputs (s.converterPhase k)) ||
    (k < 48 && ((s.metered k).sinceSwitch < 8 || !(s.metered k).steadyI))

/-- Spares lent to running calibrations. -/
def State.sparesLent (s : State) : Nat :=
  sumOf (s.mt.converters.map (fun e => bit (e.2.step.isSome && !e.2.gapFill)))

/-- A calibration starts: with a spare, or as a gap fill where none works. -/
def State.startCal (s : State) (k : Nat) (forced : Bool) : State :=
  let gap := s.sparesFree == 0
  let s := s.setConverter k { s.converter k with step := some 0, forced := forced, gapFill := gap }
  if gap then s.bump 0x60F4 else s

/-- A converter's new constants lie beyond R388: a spare stands in for it; a stand-in that fails gives way to the other. -/
def State.failConverter (s : State) (k : Nat) : State :=
  let x := s.converter k
  let s := if x.standIn then { s with mt.sparesFailed := s.mt.sparesFailed + 1 } else s
  let s := s.setConverter k { x with failed := true, standIn := false }
  if 0 < s.sparesFree then s.setConverter k { s.converter k with standIn := true } else s

/-- A cycle of its phase passes for a converter under calibration (Table 9.6). -/
def State.stepCal (s : State) (k : Nat) (fails : Bool) : State :=
  let x := s.converter k
  match x.step with
  | none => s
  | some n =>
    if !x.forced && s.calHeld k then (s.setConverter k { x with step := none }).bump 0x60F3
    else if n + 1 < (if x.gapFill then 8 else 272) then s.setConverter k { x with step := some (n + 1) }
    else
      let s := (s.setConverter k { x with step := none, forced := false, gapFill := false, lastCal := s.clk.mono
                                          calStamp := s.now }).bump 0x60F1
      if fails then s.failConverter k else s

/-! ## A cycle of a circuit -/

/-- Boundaries a cycle of a circuit has reached: the Ledger's and the reconciliation window's. -/
def State.boundaries (s : State) (c : Nat) : State :=
  let m := s.metered c
  let b := m.cycleEnd / (900 * sec) * (900 * sec)
  let m := if m.cycleStart < b then { m with ledger := some (b, m.at_ b) } else m
  let s := s.setMetered c m
  if !s.reconciles c then s
  else
    let w := s.num 0x6010 * sec
    let e := s.meshTime / w * w
    if e + (m.cycleEnd - m.cycleStart) ≤ s.meshTime then s
    else
      let r := m.at_ (m.cycleEnd - (s.meshTime - e))
      let x : WindowEnd := { mesh := e, imp := r.imp, exp := r.exp, vSum := m.vSum, vCount := m.vCount }
      let keep := m.recon.ends.filter (fun y => y.mesh != e && e ≤ y.mesh + 3 * w + s.num 0x6011 * sec)
      (s.setRecon c { m.recon with ends := keep ++ [x] }).judgeReady c false

/-- The samples of a circuit about a cycle; one the island gives no current for reads zero. -/
def currentOf (x : CycleData) (c : Nat) : List (Int × Int) :=
  timed x.first (((x.currents.find? (fun y => y.circuit == c)).map (fun y => y.samples)).getD [])

/-- A circuit's gain and good samples over a cycle of `t` ns. A gain that a commit has fixed anew is in force from the cycle's start;
samples before it are as the cycle before has left them. -/
def State.gainWalk (s : State) (c : Nat) (xs : List (Int × Int)) (t : Ns) : GainWalk :=
  let m := s.metered c
  let mode := s.num 0x6094 c
  let g := if mode = 0 then m.gain else mode - 1
  let start : GainWalk :=
    { gain := g, settling := if g = m.gain then m.settling else 3, switched := g != m.gain || m.sinceSwitch == 0, clips := 0, peak := 0
      good := xs.filter (fun e => e.1 < 0) }
  let w := (xs.filter (fun e => 0 ≤ e.1 && decide (e.1 < (t : Int)))).foldl (GainWalk.step (mode == 0)) start
  { w with good := w.good ++ (xs.filter (fun e => (t : Int) ≤ e.1)).drop w.settling }

/-- The 128 points of a circuit's current: settling samples are replaced (R364), the input is delayed by mt.i_phase and resampled
(R367). -/
def State.currentPoints (s : State) (c : Nat) (xs : List (Int × Int)) (w : GainWalk) (t : Ns) : List Int :=
  let whole := xs.map (fun e => if w.good.contains e then e else (e.1, through (around w.good e.1) e.1))
  resample 128 whole t ((t : Int) * s.int 0x6092 c / 360000)

/-- Power factor in 0.0001; with no apparent power the quotient is not stated: a free value (log entry 3). -/
def State.powerFactor (s : State) (p : Int) (v2 i2 : Nat) : Int × State :=
  if v2 * i2 = 0 then (let d := s.draw; (signed 2 (d.1 % 65536), d.2))
  else
    let f : Int := rmsNear (10 ^ 8 * (p * p).natAbs) (v2 * i2)
    (if 0 ≤ p then f else -f, s)

/-- The quantities of a circuit's cycle (R368), with its power factor. -/
def State.measure (s : State) (c : Nat) (volts amps : List Int) (t : Ns) : CycleVals × Int × State :=
  let k := s.powerScale c
  let vs := (s.int 0x6080 (s.num 0x6090 c)).natAbs
  let is := (s.int 0x6091 c).natAbs
  let v2 := (dot volts volts).natAbs
  let i2 := (dot amps amps).natAbs
  let p := dot volts amps
  let a := phasor volts
  let b := phasor amps
  let tv := s.thd v2 (power2 a)
  let ti := tv.2.thd i2 (power2 b)
  let pf := ti.2.powerFactor (p * k.sign) v2 i2
  ({ p := p * k, q1 := 2 * (a.2 * b.1 - a.1 * b.2) * k / (128 * 2 ^ 80), p1 := 2 * (a.1 * b.1 + a.2 * b.2) * k / (128 * 2 ^ 80)
     v2 := v2 * vs * vs * 10 ^ 4 / (128 * 2 ^ 32 * 10 ^ 18), i2 := i2 * is * is * 10 ^ 8 / (128 * 2 ^ 32 * 10 ^ 18)
     freq := (nearDiv (1000 * sec) t).toNat, thdV := tv.1, thdI := ti.1 }, pf.1, pf.2)

/-- What a circuit's cycle adds to registers and summary; cycles lost to a gap fill come first, at the mean of the cycles
around them (R389). -/
def MeterCircuit.gather (m : MeterCircuit) (v : CycleVals) (t : Ns) (flags : Nat) : MeterCircuit :=
  let w := CycleVals.mean m.last v
  let r0 := if m.gapCycles = 0 then m.regs else m.regs.add w.p w.q1 m.gapNs
  let r := r0.add v.p v.q1 t
  let x := (Summary.addCycles m.gapCycles m.summary w 32).addCycle v flags
  { m with
    prev := r0, regs := r, last := v, gapNs := 0, gapCycles := 0
    vSum := m.vSum + rmsNear v.v2 1, vCount := m.vCount + 1
    summary := { x with dImp := x.dImp + (r.imp - m.regs.imp), dExp := x.dExp + (r.exp - m.regs.exp)
                        dLag := x.dLag + (r.lag - m.regs.lag), dLead := x.dLead + (r.lead - m.regs.lead) } }

/-- A circuit in use is measured over a cycle of its phase, `t` ns long with the points `volts` (R359, R363–R374). -/
def State.measureCircuit (s : State) (c : Nat) (x : CycleData) (volts : List Int) (t : Ns) (noSync : Bool) : State :=
  let m := { s.metered c with cycleStart := s.tb - t, cycleEnd := s.tb }
  if s.notMeasured c then s.setMetered c { m with prev := m.regs }
  else if s.inGap c || s.inGap (48 + s.num 0x6090 c) then
    s.setMetered c { m with prev := m.regs, gapNs := m.gapNs + t, gapCycles := m.gapCycles + 1 }
  else
    let xs := currentOf x c
    let g := s.gainWalk c xs t
    let clipped := decide (0 < g.clips)
    let flags := 2 * bit g.switched + 4 * bit clipped + 8 * bit noSync
    let r := s.measure c volts (s.currentPoints c xs g t) t
    let v := r.1
    let s := r.2.2
    let iRms := rmsNear v.i2 1
    let peaks := lastN 8 (m.peaks ++ [g.peak])
    let rises := s.num 0x6094 c == 0 && g.gain < 3 && peaks.length == 8 && peaks.all (fun p => !reaches p 18 g.gain)
    let row : MeterRow :=
      { m.row with flags := flags, freq := min 65535 v.freq, vRms := min 65535 (rmsNear v.v2 1), cycleEnd := s.now
                   iRms := min (pow32 - 1) iRms, p := milli v.p 1, q1 := milli v.q1 1, pf := r.2.1, thdV := v.thdV }
    let y := m.gather v t flags
    let y :=
      { y with row := row, peaks := peaks, gain := if rises then g.gain + 1 else g.gain
               settling := if rises then 3 else g.settling
               sinceSwitch := if rises then 0 else if g.switched then 1 else min 8 (m.sinceSwitch + 1)
               steadyI := 10 * (max iRms m.lastI - min iRms m.lastI) ≤ m.lastI, lastI := iRms
               summary := { y.summary with gain := 4 ^ g.gain } }
    let s := ((s.setMetered c y).bump 0x60A7 c (bit g.switched)).bump 0x60A8 c g.clips
    let s := if clipped && !s.mt.clippedSince.contains c then { s with mt.clippedSince := s.mt.clippedSince ++ [c] } else s
    let s := s.boundaries c
    if s.summaryCycles ≤ (s.metered c).summary.cycles then s.pushSummary c else s

/-! ## A cycle of a voltage input -/

/-- The input's own readings: frequency, summary and 10-cycle voltage (R369, R375). -/
def MeterInput.cycle (x : MeterInput) (v2 : Nat) (t : Ns) (noSync : Bool) : MeterInput :=
  let x := { x with freqSum := x.freqSum + (nearDiv (1000000 * sec) t).toNat, freqCount := x.freqCount + 1, noSync := noSync
                    tenV2 := x.tenV2 + v2, tenN := x.tenN + 1 }
  if x.tenN < 10 then x
  else
    let v := min 65535 (rmsNear x.tenV2 10)
    { x with tenV2 := 0, tenN := 0, vMin := if x.vMax = 0 then v else min x.vMin v, vMax := max x.vMax v }

/-- A cycle of a voltage input ends (R366–R374, R380, R386). -/
def State.meterCycle (s : State) (input : Nat) (x : CycleData) : State :=
  let raw := timed x.first x.volts
  let noSync := s.unsynced input x (resample 128 raw x.length 0)
  let t := if noSync then s.nominalNs else x.length
  let volts := resample 128 raw t 0
  let vs := (s.int 0x6080 input).natAbs
  let v2 := (dot volts volts).natAbs * vs * vs * 10 ^ 4 / (128 * 2 ^ 32 * 10 ^ 18)
  let s := if noSync then s.bump 0x60F7 else s
  let s := { s with mt.inputs := lmod s.mt.inputs input (fun i => i.cycle v2 t noSync) }
  let mine := (List.range s.circuitsFitted).filter (fun c => s.circuitUsed c && s.num 0x6090 c == input)
  let s := mine.foldl (fun s c => s.measureCircuit c x volts t noSync) s
  (s.mt.converters.map Prod.fst).foldl (fun s k =>
    if s.converterPhase k = input then s.stepCal k (x.calFails.contains k) else s) s

/-! ## Voltage events (R382–R385) -/

/-- Urms(1/2) against a share (0.01 %) of mt.u_din, as a product: `below` and `above`. -/
def State.urmsBelow (s : State) (u : Nat) (pct : Nat) : Bool := u * 10 ^ 6 < pct * s.num 0x6002 * (65536 * 10 ^ 9)
def State.urmsAbove (s : State) (u : Nat) (pct : Nat) : Bool := pct * s.num 0x6002 * (65536 * 10 ^ 9) < u * 10 ^ 6

/-- Urms(1/2) in 0.01 V. -/
def urmsCenti (u : Nat) : Nat := min 65535 (nearDiv (u * 100) (65536 * 10 ^ 9)).toNat

/-- Table 9.13. -/
def PqEvent.bytes (e : PqEvent) : List Byte :=
  u8 e.kind ++ u8 e.inputs ++ u8 e.flags ++ u8 0 ++ u16 (urmsCenti e.extreme) ++ u16 0 ++ u64 e.start ++ u32 e.duration ++
    u32 e.seq

/-- Inputs that take part, with their Urms(1/2). -/
def State.pqInputs (s : State) : List (Nat × Nat) :=
  (s.mt.inputs.zipIdx.filter (fun (e : MeterInput × Nat) => s.flag 0x6081 e.2)).map (fun e => (e.2, e.1.urms))

/-- Inputs across the threshold of an event kind. -/
def State.pqCrossing (s : State) (kind : Nat) : List (Nat × Nat) :=
  let l := s.pqInputs
  match kind with
  | 1 => l.filter (fun e => s.urmsBelow e.2 (s.num 0x6003))
  | 2 => l.filter (fun e => s.urmsAbove e.2 (s.num 0x6004))
  | _ => l.filter (fun e => s.urmsBelow e.2 (s.num 0x6005))

/-- The start condition of an event kind holds (Table 9.5). -/
def State.pqStarts (s : State) (kind : Nat) : Bool :=
  if kind = 3 then !s.pqInputs.isEmpty && (s.pqCrossing 3).length == s.pqInputs.length else !(s.pqCrossing kind).isEmpty

/-- The end condition holds. -/
def State.pqEnds (s : State) (kind : Nat) : Bool :=
  let h := s.num 0x6006
  match kind with
  | 1 => s.pqInputs.all (fun e => !s.urmsBelow e.2 (s.num 0x6003 + h))
  | 2 => s.pqInputs.all (fun e => !s.urmsAbove e.2 (s.num 0x6004 - h))
  | _ => s.pqInputs.any (fun e => !s.urmsBelow e.2 (s.num 0x6005 + h))

/-- The extreme of the inputs now. -/
def State.pqExtreme (s : State) (kind : Nat) : Nat :=
  let us := s.pqInputs.map Prod.snd
  if kind = 2 then maxOf us else (minOf us).getD 0

def State.anyNoSync (s : State) : Bool :=
  (s.mt.inputs.zipIdx.filter (fun (e : MeterInput × Nat) => s.flag 0x6081 e.2)).any (fun e => e.1.noSync)

/-- PQ_EVENT. -/
def State.pqRaise (s : State) (e : PqEvent) : State := if s.running then s.raise 0x60E0 0x0E e.bytes else s

/-- An event of a kind starts, runs on or ends with this half-cycle window (R384, R385). -/
def State.pqKind (s : State) (kind : Nat) : State :=
  let bits := sumOf ((s.pqCrossing kind).map (fun e => 2 ^ e.1))
  let sync := 4 * bit s.anyNoSync
  match s.mt.opened.find? (fun e => e.kind == kind) with
  | none =>
    if !s.pqStarts kind then s
    else
      let e : PqEvent :=
        { kind := kind, inputs := bits, flags := sync, extreme := s.pqExtreme kind, start := s.now, since := s.clk.mono
          duration := 0, seq := s.mt.pqSeq, raised := false }
      let mark (o : PqEvent) : PqEvent := if kind = 3 ∧ o.kind = 1 then { o with flags := o.flags ||| 2 } else o
      { s with mt.opened := s.mt.opened.map mark ++ [e], mt.pqSeq := (s.mt.pqSeq + 1) % pow32
               mt.counts := lmod s.mt.counts (kind - 1) (· + 1) }.bump 0x60F5
  | some e =>
    let x := s.pqExtreme kind
    let e := { e with inputs := e.inputs ||| bits, flags := e.flags ||| sync
                      extreme := if kind = 2 then max e.extreme x else min e.extreme x }
    if s.pqEnds kind then
      let e := { e with duration := min (pow32 - 1) ((s.clk.mono - e.since) / ms) }
      let s := { s with mt.opened := s.mt.opened.filter (fun o => o.kind != kind), mt.ended := lastN 64 (s.mt.ended ++ [e]) }
      (if s.running then s.hist e.start s.ownPid 0x08 e.bytes else s).pqRaise e
    else { s with mt.opened := s.mt.opened.map (fun o => if o.kind = kind then e else o) }

/-- An input's newest half cycle: 64 points join the 64 before them, and Urms(1/2) is the RMS over both (R382). -/
def MeterInput.refresh (x : MeterInput) (w : HalfWindow) (scale : Nat) : MeterInput :=
  let points := resample 64 (timed w.first w.volts) w.length 0
  let cycle := x.half ++ points
  { x with half := points, urms := rmsNear (dot cycle cycle).natAbs (max 1 cycle.length) * scale }

/-- A half-cycle window: each input's Urms(1/2) is refreshed, and events start and end (R382–R384). -/
def State.halfCycle (s : State) (windows : List HalfWindow) : State :=
  let s := { s with mt.inputs := s.mt.inputs.mapIdx (fun i x => match windows[i]? with
    | some w => x.refresh w (s.int 0x6080 i).natAbs
    | none => x) }
  [1, 2, 3].foldl State.pqKind s

/-! ## Ledger and checkpoints (R375, R376, R462) -/

/-- Seconds since a circuit's converter was last calibrated. -/
def State.calAge (s : State) (c : Nat) : Nat := (s.clk.mono - (s.converter c).lastCal) / sec

/-- The Ledger records of a circuit for a boundary (Tables 12.3 and 12.4). -/
def State.ledgerCircuit (s : State) (c : Nat) (b stamp flags : Nat) : List HistRec :=
  let m := s.metered c
  let r := match m.ledger with
    | some (t, r) => if t = b then r else m.at_ b
    | none => m.at_ b
  let dead := s.notMeasured c
  let at_ := s.mt.restart.getD (0, 0)
  let body := u64 r.imp ++ u64 r.exp ++ u64 r.lag ++ u64 r.lead ++
    u16 (flags + 4 * bit dead + 8 * bit (s.mt.clippedSince.contains c)) ++ u16 0 ++ u32 (s.calAge c) ++ u64 at_.1 ++
    u64 at_.2 ++ u64 0
  let gap : HistRec :=
    { stamp := if stamp = 0 then 0 else stamp - 900 * sec, place := s.circuitPid c, type := 0x3F
      body := u64 stamp ++ u8 2 ++ u8 5 ++ u16 0 ++ u32 0 ++ u64 (2 ^ 0x30) ++ u64 0 }
  { stamp := stamp, place := s.circuitPid c, type := 0x30, body := body } :: (if dead then [gap] else [])

/-- LEDGER_VOLTAGE (Table 12.2). -/
def State.ledgerVoltage (s : State) (stamp flags : Nat) : HistRec :=
  { stamp := stamp, place := s.ownPid, type := 0x31
    body := (s.mt.inputs.map (fun x => u16 x.vMin)).flatten ++ (s.mt.inputs.map (fun x => u16 x.vMax)).flatten ++
      u16 flags ++ (s.mt.counts.map u16).flatten ++ zeros 28 }

/-- The last multiple of 900 s of the time base. -/
def State.ledgerInstant (s : State) : Ns := s.tb / (900 * sec) * (900 * sec)

/-- The island hands over the boundary values of every circuit in use and voltage input; they are staged in MRAM first (R375,
R459). -/
def State.ledgerHand (s : State) : State :=
  let b := s.ledgerInstant
  let stamp := if s.timeValid then b else 0
  let flags := bit (stamp == 0) + 2 * bit s.mt.restart.isSome
  let recs := ((List.range s.circuitsFitted).filter s.circuitUsed).flatMap (fun c => s.ledgerCircuit c b stamp flags)
  { s with hs.staged := s.hs.staged ++ recs ++ [s.ledgerVoltage stamp flags]
           mt.ledgerDone := b, mt.restart := none, mt.clippedSince := [], mt.counts := [0, 0, 0]
           mt.inputs := s.mt.inputs.map (fun x => { x with vMin := 0, vMax := 0 }) }

/-- The newest slot whose CRC-32C is valid: `bad` names those whose is not, 0 slot A, 1 slot B. With neither, nothing is restored (log
entry 96). -/
def State.newestSlot (s : State) (bad : List Nat) : MeterSlot :=
  let a := if bad.contains 0 then .reset else s.mt.slotA
  let b := if bad.contains 1 then .reset else s.mt.slotB
  if a.seq ≤ b.seq then b else a

/-- After a loss of power the registers resume from the newest valid checkpoint (R361, R376): no final one, and the next Ledger record
says RESTART. -/
def State.meterRestore (s : State) (bad : List Nat) : State :=
  let x := s.newestSlot bad
  let blank := s.mt.slotA.seq == 0 && s.mt.slotB.seq == 0
  { s with mt.circuits := x.regs.map (fun e => (e.1, { MeterCircuit.fresh with
             regs := e.2, prev := e.2, second := { RecordSum.zero with base := e.2 }, minute := { RecordSum.zero with base := e.2 } }))
           mt.inputs := List.replicate 3 .reset, mt.opened := [], mt.counts := [0, 0, 0], mt.clippedSince := []
           mt.converters := s.mt.converters.map (fun e => (e.1, { e.2 with step := none, forced := false, gapFill := false }))
           mt.restart := if x.final || blank then none else some (x.stamp, s.now) }

end Sys2Proof.Machine
end

