-- ==== Sys2Proof/Machine/Digest.lean ====
section
/-!
DEFINITION. The records that metering brings about second by second and minute by minute (Table 12.2): CIRCUIT_SECOND, DIGEST_CIRCUIT
and DIGEST_SEGMENT. The spec gives their bodies and rates (Table 12.9, after Table 12.5) and names no writer: the model writes them at
the end of the metering cycle that passes the second or the minute (log entry 97).
-/

namespace Sys2Proof.Machine

/-- A cycle enters what a record is made from. -/
def RecordSum.add (x : RecordSum) (v : CycleVals) (flags gain : Nat) : RecordSum :=
  { x with cycles := x.cycles + 1, v2 := x.v2 + v.v2, i2 := x.i2 + v.i2, p := x.p + v.p, q1 := x.q1 + v.q1, flags := x.flags ||| flags
           gain := gain }

/-- A second enters its minute. -/
def RecordSum.join (y x : RecordSum) (p : Int) (on : Bool) : RecordSum :=
  { y with cycles := y.cycles + x.cycles, v2 := y.v2 + x.v2, i2 := y.i2 + x.i2, p := y.p + x.p, q1 := y.q1 + x.q1
           flags := y.flags ||| x.flags, pMin := if y.seconds = 0 then p else min y.pMin p
           pMax := if y.seconds = 0 then p else max y.pMax p, seconds := y.seconds + 1, on := y.on + bit on }

/-- What the registers have gained since the record's start, held within the fields. -/
def RecordSum.energies (x : RecordSum) (r : Registers) : List Byte :=
  [r.imp - x.base.imp, r.exp - x.base.exp, r.lag - x.base.lag, r.lead - x.base.lead].flatMap (fun d => u32 (min (pow32 - 1) d))

def RecordSum.iRms (x : RecordSum) : List Byte := u32 (min (pow32 - 1) (rmsNear x.i2 (max 1 x.cycles)))
def RecordSum.vRms (x : RecordSum) : List Byte := u16 (min 65535 (rmsNear x.v2 (max 1 x.cycles)))

/-- A Stamp64 of the time base, 0 while network time is not valid (R14). -/
def State.stampOf (s : State) (t : Ns) : Ns := if s.timeValid then t else 0

/-- Points of a circuit with a level above 0. -/
def State.litPoints (s : State) (c : Nat) : Nat :=
  s.points.countP (fun p => pidCircuit p == c && (match s.combined p s.tb with | some x => 0 < x.2 | none => false))

/-- DIGEST_CIRCUIT for the minute that ends at `b`. -/
def State.endMinute (s : State) (c : Nat) (b : Ns) : State :=
  let m := s.metered c
  let y := m.minute
  let r := m.at_ b
  let s := s.setMetered c { m with minute := { RecordSum.zero with base := r } }
  if y.cycles = 0 ∨ !s.running then s
  else s.hist (s.stampOf b) (s.circuitPid c) 0x20
    (y.energies r ++ leI 4 (milli y.p y.cycles) ++ leI 4 y.pMin ++ leI 4 y.pMax ++ y.iRms ++ y.vRms ++ u16 (s.litPoints c) ++ u8 y.on ++
      u8 y.flags)

/-- CIRCUIT_SECOND for the second that ends at `b`, and the minute's record where that ends too. -/
def State.endSecond (s : State) (c : Nat) (b : Ns) : State :=
  let m := s.metered c
  let x := m.second
  let r := m.at_ b
  let p := milli x.p x.cycles
  let minute := if x.cycles = 0 then m.minute else m.minute.join x p (s.circuitOf c).commanded
  let s := s.setMetered c { m with second := { RecordSum.zero with base := r }, minute := minute }
  let s := if x.cycles = 0 ∨ !s.running then s
    else s.hist (s.stampOf b) (s.circuitPid c) 0x06
      (x.energies r ++ x.iRms ++ leI 4 p ++ leI 4 (milli x.q1 x.cycles) ++ x.vRms ++ u8 x.gain ++ u8 x.flags)
  if b % (60 * sec) = 0 then s.endMinute c b else s

/-- The last cycle of a circuit enters its second, which ends if the cycle has passed or reached its end; energy is split at the
boundary (R374), the cycle's other values count in the second it ends in. -/
def State.circuitRecords (s : State) (c : Nat) : State :=
  let m := s.metered c
  let b := m.cycleEnd / sec * sec
  let gather (s : State) : State :=
    let m := s.metered c
    s.setMetered c { m with second :=
      if 0 < m.gapCycles then { m.second with flags := m.second.flags ||| 32 } else m.second.add m.last (m.row.flags % 64) (4 ^ m.gain) }
  if s.notMeasured c then s
  else if b ≤ m.cycleStart then gather s
  else if b = m.cycleEnd then (gather s).endSecond c b
  else gather (s.endSecond c b)

/-! ## The segment's minute -/

/-- Counters whose growth over a minute DIGEST_SEGMENT gives: late discards, rewinds, stragglers, joins. -/
def minuteCounters : List Nat := [0x30F0, 0x48F5, 0x48FA, 0x50F2]

/-- A minute begins that ends at `finish`. -/
def State.newMinute (s : State) (finish : Ns) : MinuteSum :=
  { finish := finish, counts := [], base := minuteCounters.map (fun k => (k, s.counter k)), worst := 0, low := s.fe.fabricMv
    high := s.fe.fabricMv }

/-- The worst health and the fabric supply as they stand. -/
def State.observe (s : State) (m : MinuteSum) : MinuteSum :=
  { m with worst := max m.worst (maxOf (s.health.map (fun e => e.2.state.code))), low := min m.low s.fe.fabricMv
           high := max m.high s.fe.fabricMv }

/-- The body of DIGEST_SEGMENT. -/
def State.segmentBody (s : State) (m : MinuteSum) : List Byte :=
  let n (k : Nat) : List Byte := u16 (min 65535 (cget m.counts k))
  let grown (k : Nat) : List Byte := u16 (min 65535 ((s.counter k + pow32 - cget m.base k) % pow32))
  n 0x01 ++ n 0x0701 ++ n 0x02 ++ minuteCounters.flatMap grown ++ u16 (s.mesh.nodes.countP (fun e => e.2.state == 1)) ++
    u16 (s.mesh.nodes.countP (fun e => e.2.state == 2)) ++ u8 m.worst ++ u16 m.low ++ u16 m.high

/-- The segment's minute goes on, or ends with its record. -/
def State.segmentMinute (s : State) : State :=
  let m := s.observe s.hs.minute
  if s.tb < m.finish then { s with hs.minute := m }
  else
    let next := { s with hs.minute := s.newMinute ((s.tb / (60 * sec) + 1) * (60 * sec)) }
    if m.finish = 0 then next else next.hist (s.stampOf m.finish) s.ownPid 0x21 (s.segmentBody m)

/-- The records that a cycle of an input brings about. -/
def State.minuteRecords (s : State) (input : Nat) : State :=
  let mine := (List.range s.circuitsFitted).filter (fun c => s.circuitUsed c && s.num 0x6090 c == input)
  let s := mine.foldl State.circuitRecords s
  if s.running then s.segmentMinute else s

end Sys2Proof.Machine
end

