-- ==== Sys2Proof/Machine/Metering.lean ====
section
/-!
DEFINITION. The commands and events of group 0x60 (R358–R399, Table 9.11).
-/

namespace Sys2Proof.Machine

/-- An event of the metering island, which runs whenever it has its supply (R361). -/
def island (dt : Ns) (f : State → State) (s : State) : Host.Outcome State Fault Refusal :=
  let s := s.begin dt
  .next (if s.powered && s.mt.working then (f s).settle else s)

/-! ## Reading the registers (R377) -/

/-- A circuit's row as it stands at the end of the last cycle of its phase (Table 9.12). -/
def State.meterRow (s : State) (c : Nat) : MeterRow :=
  let m := s.metered c
  { m.row with circuit := c, phase := s.num 0x6090 c, gain := 4 ^ m.gain
               flags := m.row.flags ||| bit (s.circuitUsed c) ||| (16 * bit (s.notMeasured c))
               imp := m.regs.imp, exp := m.regs.exp, lag := m.regs.lag, lead := m.regs.lead }

def MeterRow.bytes (x : MeterRow) : List Byte :=
  u8 x.circuit ++ u8 x.phase ++ u8 x.gain ++ u8 x.flags ++ u16 x.freq ++ u16 x.vRms ++ u64 x.cycleEnd ++ u64 x.imp ++
    u64 x.exp ++ u64 x.lag ++ u64 x.lead ++ u32 x.iRms ++ leI 4 x.p ++ leI 4 x.q1 ++ leI 2 x.pf ++ u16 x.thdV

def meterTakeBody (r : Req) (s : State) : Result :=
  let id := s.mt.nextSnapshot
  let x : Snapshot :=
    { id := id, stamp := s.now, takenAt := s.clk.mono, rows := (List.range s.circuitsFitted).map s.meterRow }
  ok (u32 id ++ u32 0 ++ u64 s.now)
    ({ s with mt.nextSnapshot := (id + 1) % pow32 }.onSession r.src.endpoint (fun y => { y with snapshot := some x }))

def meterTakeCommand : Command :=
  { opcode := 0x6001, access := .holder, firstLane := 1, layout := isEmpty, body := meterTakeBody }

/-- METER_TAKE (R377). -/
def execMeterTake (r : Req) (s : State) : Host.Outcome State Fault Refusal := shotas meterTakeCommand r s

/-- The session's snapshot, while it stands. -/
def State.snapshot? (s : State) (ep : Endpoint) : Option Snapshot :=
  ((s.session? ep).bind (fun x => x.snapshot)).filter (fun x => s.clk.mono < x.takenAt + 60 * sec)

def meterReadBody (r : Req) (s : State) : Result :=
  let first := fld r.payload 4 1
  let n := fld r.payload 5 1
  if n = 0 ∨ 22 < n ∨ 48 < first + n then fail stRange s
  else if s.circuitsFitted < first + n then fail stAbsent s
  else match s.snapshot? r.src.endpoint with
    | some x =>
      if x.id = fld r.payload 0 4 then ok (u16 n ++ u16 0 ++ (((x.rows.drop first).take n).map MeterRow.bytes).flatten) s
      else fail stState s
    | none => fail stState s

def meterReadCommand : Command :=
  { opcode := 0x6002, access := .holder, firstLane := 1, layout := exactly 8, body := meterReadBody }

/-- METER_READ (R377, R623). -/
def execMeterRead (r : Req) (s : State) : Host.Outcome State Fault Refusal := shotas meterReadCommand r s

def pqListBody (r : Req) (s : State) : Result :=
  ok (page (ordinal s.mt.ended PqEvent.bytes) (fld r.payload 0 2) 32) s

def pqListCommand : Command :=
  { opcode := 0x6003, access := .holder, firstLane := 1, layout := exactly 4, body := pqListBody }

/-- PQ_LIST (R385). -/
def execPqList (r : Req) (s : State) : Host.Outcome State Fault Refusal := shotas pqListCommand r s

/-! ## Span records (R391, R392) -/

def spanAt (b : List Byte) : Span := { point := pidAt b 0, upstream := pidAt b 6, rLoop := fld b 12 4 }

def Span.bytes (x : Span) : List Byte := pidBytes x.point ++ pidBytes x.upstream ++ u32 x.rLoop

/-- Removing a record is asked with r_loop 0xFFFFFFFF. -/
def Span.removes (x : Span) : Bool := x.rLoop == 0xFFFFFFFF

def State.spanRefused (s : State) (x : Span) : Option Nat :=
  match s.pointRefused x.point with
  | some st => some st
  | none =>
    if (s.lampOf x.point).isNone ∨ pidCircuit x.point = 63 ∨ pidPrefix x.upstream ≠ pidPrefix x.point ∨
      pidCircuit x.upstream ≠ pidCircuit x.point ∨ !(x.removes || (1 ≤ x.rLoop && x.rLoop ≤ 100000)) then some stRange
    else none

/-- Going toward the cabinet from a point ends within `fuel` spans. -/
def reachesCabinet (t : Table Span) (fuel : Nat) (p : Pid) : Bool :=
  match fuel with
  | 0 => false
  | fuel + 1 =>
    match tget t (pointKey p) with
    | some x => pidPoint x.upstream == 255 || reachesCabinet t fuel x.upstream
    | none => true

def Meter.putSpan (m : Meter) (x : Span) : Meter :=
  let k := pointKey x.point
  { m with spans := if x.removes then tdel m.spans k else tput m.spans k x
           offsets := if m.span x.point = some x then m.offsets else tdel m.offsets k }

def spanSetBody (r : Req) (s : State) : Result :=
  let xs := (entries 16 r.payload).map spanAt
  if xs.isEmpty ∨ 91 < xs.length then fail stRange s
  else match firstRefusal (xs.map s.spanRefused) with
    | some st => fail st s
    | none =>
      let m := xs.foldl Meter.putSpan s.mt
      if m.spans.all (fun e => reachesCabinet m.spans 257 e.2.point) then ok [] { s with mt := m } else fail stRange s

def spanSetCommand : Command :=
  { opcode := 0x6004, access := .holder, firstLane := 1, layout := counted 16, body := spanSetBody }

/-- SPAN_SET (R392). -/
def execSpanSet (r : Req) (s : State) : Host.Outcome State Fault Refusal := shotas spanSetCommand r s

def spanGetBody (r : Req) (s : State) : Result :=
  ok (page (ordinal s.mt.spans (fun e => e.2.bytes)) (fld r.payload 0 2) 91) s

def spanGetCommand : Command :=
  { opcode := 0x6005, access := .holder, firstLane := 1, layout := exactly 4, body := spanGetBody }

/-- SPAN_GET (Table 9.11). -/
def execSpanGet (r : Req) (s : State) : Host.Outcome State Fault Refusal := shotas spanGetCommand r s

def reconQueryBody (r : Req) (s : State) : Result :=
  let c := fld r.payload 0 1
  if 48 ≤ c then fail stRange s
  else if s.circuitsFitted ≤ c then fail stAbsent s
  else ok ((s.metered c).recon.bytes c) s

def reconQueryCommand : Command :=
  { opcode := 0x6006, access := .holder, firstLane := 1, layout := exactly 4, body := reconQueryBody }

/-- RECON_QUERY (Table 9.14). -/
def execReconQuery (r : Req) (s : State) : Host.Outcome State Fault Refusal := shotas reconQueryCommand r s

/-! ## The island's events -/

/-- METER_CYCLE_END (R366–R374), with the records of a second or a minute that it ends (Table 12.2). -/
def execMeterCycleEnd (dt : Ns) (input : Nat) (cycle : CycleData) (s : State) : Host.Outcome State Fault Refusal :=
  island dt (fun s => if input < 3 then (s.meterCycle input cycle).minuteRecords input else s) s

/-- HALF_CYCLE_WINDOW (R382–R385). -/
def execHalfCycleWindow (dt : Ns) (windows : List HalfWindow) (s : State) : Host.Outcome State Fault Refusal :=
  island dt (fun s => s.halfCycle windows) s

/-- PQ_EVENT_OPEN_TIMEOUT (R385). -/
def execPqEventOpenTimeout (dt : Ns) (kind : Nat) (s : State) : Host.Outcome State Fault Refusal :=
  island dt (fun s =>
    match s.mt.opened.find? (fun e => e.kind == kind && !e.raised && decide (e.since + 60 * sec ≤ s.clk.mono)) with
    | some e =>
      let mark (o : PqEvent) : PqEvent := if o.kind = kind then { o with raised := true } else o
      { s with mt.opened := s.mt.opened.map mark }.pqRaise { e with flags := e.flags ||| 1 }
    | none => s) s

/-- FREQUENCY_INTERVAL: the mean of 1 / T_c over the 10 s that have ended (R369). An interval without a cycle reports none. -/
def execFrequencyInterval (dt : Ns) (input : Nat) (s : State) : Host.Outcome State Fault Refusal :=
  island dt (fun s =>
    let b := s.tb / (10 * sec) * (10 * sec)
    { s with mt.inputs := lmod s.mt.inputs input (fun x =>
        if b ≤ x.freqDone then x
        else { x with freqDone := b, freqSum := 0, freqCount := 0
                      freq := if x.freqCount = 0 then x.freq
                        else min 65535 (nearDiv x.freqSum (1000 * x.freqCount)).toNat }) }) s

/-- LEDGER_BOUNDARY (R375): given once the cycles that hold the boundary have ended (log entry 32). -/
def execLedgerBoundary (dt : Ns) (s : State) : Host.Outcome State Fault Refusal :=
  island dt (fun s => if s.mt.ledgerDone < s.ledgerInstant then s.ledgerHand else s) s

/-- METER_CHECKPOINT, once a second (R376). -/
def execMeterCheckpoint (dt : Ns) (s : State) : Host.Outcome State Fault Refusal :=
  island dt (fun s => if s.mt.lastCheckpoint + sec ≤ s.clk.mono then s.meterCheckpoint false else s) s

/-- A calibration can start: the converter measures, none runs on it, and a spare is free or none works at all. -/
def State.calReady (s : State) (k : Nat) : Bool :=
  s.isConverter k && !(s.converter k).dead && (s.converter k).step.isNone &&
    (s.sparesFree == 0 || decide (s.sparesLent < s.sparesFree))

/-- CALIBRATION_START (R386, R389). -/
def execCalibrationStart (dt : Ns) (converter : Nat) (s : State) : Host.Outcome State Fault Refusal :=
  island dt (fun s =>
    if s.calReady converter && decide ((s.converter converter).lastCal + s.num 0x6008 * sec ≤ s.clk.mono) &&
      !s.calHeld converter then s.startCal converter false
    else s) s

/-- CALIBRATION_FORCED (R387): a calibration that runs goes on without the conditions; one that does not starts. -/
def execCalibrationForced (dt : Ns) (converter : Nat) (s : State) : Host.Outcome State Fault Refusal :=
  island dt (fun s =>
    let x := s.converter converter
    if (x.lastCal + 82800 * sec ≤ s.clk.mono) && !x.forced then
      if x.step.isSome then (s.setConverter converter { x with forced := true }).bump 0x60F2
      else if s.calReady converter then (s.startCal converter true).bump 0x60F2
      else s
    else s) s

/-- REC_WAIT_EXPIRY (R393). -/
def execRecWaitExpiry (dt : Ns) (circuit : Nat) (s : State) : Host.Outcome State Fault Refusal :=
  event dt (fun s => s.judgeReady circuit true) s

/-- ISLAND_SUPPLY_OR_LINK_CHANGE: the island is OUT, or works again with its registers as they stood (Table 9.7; log entry 33). -/
def execIslandSupplyOrLinkChange (dt : Ns) (working : Bool) (s : State) : Host.Outcome State Fault Refusal :=
  always dt (fun s => { s with mt.working := working }) s

end Sys2Proof.Machine
end

