-- ==== Sys2Proof/Machine/History.lean ====
section
/-!
DEFINITION. The History Store (R454–R480): blocks and tiers, appends and turnover, GAPs, cursors, and the commands and events of
group 0x78. A tier's blocks stand oldest first and hold their records in append order.
-/

namespace Sys2Proof.Machine

/-! ## Tiers and blocks (R463, R464, R472–R478) -/

abbrev blockBytes : Nat := 4194304

def State.tier (s : State) (t : Nat) : Tier :=
  (s.hs.tiers[t]?).getD { blocks := [], size := 0, newestProgrammed := 0, hourBytes := 0, hourStart := 0, lastHour := none }

def State.onTier (s : State) (t : Nat) (f : Tier → Tier) : State := { s with hs.tiers := lmod s.hs.tiers t f }

/-- The tier a record type is kept in (Table 12.2); a GAP names its own. -/
def tierOf (r : HistRec) : Nat :=
  if r.type = 0x3F then min 2 (fld r.body 8 1) else if r.type = 0x20 ∨ r.type = 0x21 then 1
  else if r.type = 0x30 ∨ r.type = 0x31 then 2 else 0

/-- Record types of a tier as a mask of Table 12.4, GAP among them. -/
def tierTypes (t : Nat) : Nat :=
  2 ^ 0x3F + (match t with | 0 => 0xFBFE | 1 => 3 * 2 ^ 0x20 | _ => 3 * 2 ^ 0x30)

/-! ## What a cursor selects (R466–R468) -/

/-- Records of a tier, in append order. -/
def State.tierRecs (s : State) (t : Nat) : List Stored := (s.tier t).blocks.flatMap (fun b => b.recs)

/-- hs.oldest and hs.newest (R463). -/
def State.histOldest (s : State) (t : Nat) : Ns := (minOf ((s.tierRecs t).map (fun r => r.index))).getD 0
def State.histNewest (s : State) (t : Nat) : Ns := maxOf ((s.tierRecs t).map (fun r => r.index))

/-- A place that names two points' circuit. -/
def sameCircuit (a b : Pid) : Bool := pidPrefix a == pidPrefix b && pidCircuit a == pidCircuit b

/-- The place matches under the place mode (R466). -/
def Cursor.placed (c : Cursor) (p : Pid) : Bool :=
  match c.mode with
  | 0 => true
  | 1 => p == c.place
  | _ => sameCircuit p c.place

/-- A GAP's place overlaps the query's: it covers every place within it (R457). -/
def State.gapPlaced (s : State) (c : Cursor) (p : Pid) : Bool :=
  c.placed p || p == s.ownPid || (pidPoint p == 255 && sameCircuit p c.place)

/-- A GAP record (Table 12.4). -/
def gapRec (tier : Nat) (start finish : Ns) (place : Pid) (cause lost types : Nat) : HistRec :=
  { stamp := start, place := place, type := 0x3F
    body := u64 finish ++ u8 tier ++ u8 cause ++ u16 0 ++ u32 lost ++ u64 types ++ u64 0 }

/-- A GAP for what a cursor cannot return (R469). -/
def Cursor.gap (c : Cursor) (place : Pid) (start finish : Ns) (cause lost : Nat) : HistRec :=
  gapRec c.tier start finish place cause lost c.types

/-- A cursor selects a stored record. -/
def State.selects (s : State) (c : Cursor) (r : Stored) : Bool :=
  r.append < c.appended &&
    (if r.rec_.type = 0x3F then
      s.gapPlaced c r.rec_.place && (fld r.rec_.body 16 8 &&& c.types) != 0 && r.index < c.to_ &&
        (c.from_ ≤ r.index || c.from_ ≤ fld r.rec_.body 0 8)
    else c.from_ ≤ r.index && r.index < c.to_ && hasBit c.types r.rec_.type && c.placed r.rec_.place)

/-- A RETRACT names the record (R468). -/
def retracts (x r : Stored) : Bool :=
  x.rec_.type == 0x0E && r.append < x.append && x.rec_.place == r.rec_.place && x.rec_.stamp == r.rec_.stamp &&
    fld x.rec_.body 0 1 == r.rec_.type && fld x.rec_.body 4 4 == crc32c r.rec_.body

/-- What a cursor still has to return, in index order (R467): records with their RETRACTED mark. -/
def State.cursorRecs (s : State) (c : Cursor) : List (Stored × Bool) :=
  let all := s.tierRecs c.tier
  let marked := (all.filter (fun r => s.selects c r)).map (fun r =>
    (r, all.any (fun x => decide (x.append < c.appended) && retracts x r)))
  let shown := if c.hide then marked.filter (fun e => !e.2 && e.1.rec_.type != 0x0E) else marked
  let left := match c.after with
    | none => shown
    | some (i, a) => shown.filter (fun e => i < e.1.index || (e.1.index == i && a < e.1.append))
  sortBy (fun e => e.1.index) left

/-! ## Blocks (R463, R464, R473, R477) -/

/-- The package of a tier's next block: the working ones alternate (R477). -/
def State.nextPackage (s : State) (t : Nat) : Nat :=
  let ps := s.workingPackages
  let last := ((s.tier t).blocks.getLast?.map (fun b => b.package)).getD 1
  ((ps.find? (fun p => last < p)).getD (ps.headD 0))

/-- The free block with the lowest erase count (R473), with the store that no longer holds it free. -/
def Hist.takeBlock (h : Hist) (fitted : Nat) : Nat × Hist :=
  if h.nextBlock < fitted then (h.nextBlock, { h with nextBlock := h.nextBlock + 1 })
  else match h.freed with
    | [] => (h.nextBlock, { h with nextBlock := h.nextBlock + 1 })
    | a :: rest =>
      let b := rest.foldl (fun x y => if cget h.erases y < cget h.erases x then y else x) a
      (b, { h with freed := h.freed.filter (fun y => y != b) })

/-- A block is erased and is free again. -/
def Hist.erase (h : Hist) (n : Nat) : Hist :=
  { h with erases := cput h.erases n (cget h.erases n + 1), freed := h.freed ++ [n] }

/-- Records of a tier are about to go: the open cursors that had still to return some of them will return a GAP in their place
(R469). -/
def State.cursorsLose (s : State) (t cause : Nat) (gone : List Stored) : State :=
  let lose (c : Cursor) : Cursor :=
    let mine := if c.tier = t then (s.cursorRecs c).filter (fun e => gone.any (fun r => r.append == e.1.append)) else []
    match minOf (mine.map (fun e => e.1.index)) with
    | none => c
    | some lo =>
      { c with gone := c.gone ++ [{ first := lo, last := maxOf (mine.map (fun e => e.1.index)), cause := cause, count := mine.length }] }
  { s with hs.cursors := s.hs.cursors.map lose }

/-- A tier's oldest block is erased (R463). -/
def State.eraseOldest (s : State) (t : Nat) : State :=
  match (s.tier t).blocks with
  | [] => s
  | b :: rest =>
    let s := (s.cursorsLose t 3 b.recs).onTier t (fun x => { x with blocks := rest })
    { s with hs := s.hs.erase b.number }

/-- A tier that holds more blocks than its size gives up the oldest. -/
def State.trimTier (s : State) (t : Nat) : State :=
  (List.range ((s.tier t).blocks.length - (s.tier t).size)).foldl (fun s _ => s.eraseOldest t) s

/-- A tier loses one block of its size; the oldest goes if it no longer fits. -/
def State.shrinkTier (s : State) (t : Nat) : State := (s.onTier t (fun x => { x with size := x.size - 1 })).trimTier t

/-- Some record of a block is younger than 3,653 days. -/
def State.young (s : State) (b : Block) : Bool := b.recs.any (fun r => s.tb < r.index + 3653 * 86400 * sec)

/-- Room for one more block in a tier: its oldest is erased, but for a young Ledger block, for which the Raw tier gives one of
its own (R463, R464). -/
def State.makeRoom (s : State) (t : Nat) : State :=
  let x := s.tier t
  if x.blocks.length < x.size then s
  else if t = 2 && ((x.blocks.head?.map s.young).getD true) then
    if (s.tier 0).size = 0 then { s with hs.ledgerStuck := true }
    else (s.shrinkTier 0).onTier 2 (fun x => { x with size := x.size + 1 })
  else s.eraseOldest t

/-- A fresh block enters a tier. -/
def State.openBlock (s : State) (t : Nat) : State :=
  let s := s.makeRoom t
  let r := s.hs.takeBlock s.blocksFitted
  let b : Block := { number := r.1, package := s.nextPackage t, erases := 0, reads := 0, recs := [], used := 0, refresh := false }
  { s with hs := r.2 }.onTier t (fun x => { x with blocks := x.blocks ++ [b] })

/-! ## Appends (R454–R456, R465) -/

/-- The hour under way for hs.retain_est. -/
def Tier.roll (x : Tier) (mono : Ns) : Tier :=
  if mono < x.hourStart + 3600 * sec then x
  else { x with hourStart := mono - mono % (3600 * sec), hourBytes := 0
                lastHour := some (if mono < x.hourStart + 7200 * sec then x.hourBytes else 0) }

/-- The index stamp of the record a tier appended last. -/
def Tier.lastIndex (x : Tier) : Ns :=
  ((x.blocks.filter (fun b => !b.recs.isEmpty)).getLast?.bind (fun b => b.recs.getLast?.map (fun r => r.index))).getD 1

/-- Bytes of a record (R454). -/
def HistRec.size (r : HistRec) : Nat := 16 + r.body.length

/-- A record counts in the minute it is appended in: by its type, a TRACK record by its event (DIGEST_SEGMENT). -/
def MinuteSum.tally (m : MinuteSum) (r : HistRec) : MinuteSum :=
  let k := if r.type = 0x07 then 0x0700 + fld r.body 2 1 else r.type
  { m with counts := cput m.counts k (cget m.counts k + 1) }

/-- Append a record to its tier. -/
def State.appendTo (s : State) (t : Nat) (r : HistRec) : State :=
  let x := s.tier t
  let n := r.size
  let rec_ : Stored :=
    { index := if r.stamp = 0 then x.lastIndex else r.stamp, noTime := r.stamp == 0, append := s.hs.appendSeq, rec_ := r
      lost := false }
  let fits := match x.blocks.getLast? with
    | some b => decide (b.used + n ≤ blockBytes)
    | none => false
  let s := if fits then s else s.openBlock t
  let put (x : Tier) : Tier :=
    let x := x.roll s.clk.mono
    { x with
      blocks := lmod x.blocks (x.blocks.length - 1) (fun b => { b with recs := b.recs ++ [rec_], used := b.used + n })
      newestProgrammed := max x.newestProgrammed rec_.index, hourBytes := x.hourBytes + n }
  let s := { s with hs.appendSeq := s.hs.appendSeq + 1, hs.minute := s.hs.minute.tally r }
  (((s.onTier t put).bump 0x78F0).bump 0x78FC 0 n).bump 0x78FD 0
    (if t = 2 ∧ (s.is16C ∨ s.workingPackages.length = 2) then 2 * n else n)

/-- A record as a query returns it (Table 12.1): its header with the size and the two marks, and its body. -/
def recordImage (r : HistRec) (noTime retracted : Bool) : List Byte :=
  u64 r.stamp ++ pidBytes r.place ++ u8 r.type ++ u8 ((r.size / 16 - 1) % 16 + 16 * bit noTime + 32 * bit retracted) ++ r.body

/-- Append a record; a GAP is counted, and told at most once per second per cause (Table 12.6). -/
def State.append (s : State) (r : HistRec) : State :=
  let r := r.padded
  let s := s.appendTo (tierOf r) r
  if r.type ≠ 0x3F then s
  else
    let s := s.bump 0x78F1
    let cause := fld r.body 9 1
    if cget s.hs.gapSeconds cause = s.second + 1 then s
    else { s with hs.gapSeconds := cput s.hs.gapSeconds cause (s.second + 1) }.raise 0x78E0 0x10 (recordImage r (r.stamp == 0) false)

/-! ## Programming (R458–R462) -/

/-- The store may program: a package works, and LAST-GASP has not used up its 300 ms (R461). -/
def State.histOpen (s : State) : Bool :=
  !s.workingPackages.isEmpty && !(s.pwr.state == .lastGasp && decide (s.pwr.lastGaspSince + 300 * ms < s.clk.mono))

/-- Take every item of queue 0x0A and append the records they carry. -/
def State.programQueue (s : State) : State :=
  (s.queue 0x0A).items.foldl (fun s it =>
    let s := s.take 0x0A 0
    match it.body with
    | .record r => s.append r
    | _ => s) s

/-- The GAPs for what was discarded while the store could not program (R460). -/
def State.stallGaps (s : State) : State :=
  match s.hs.discarded with
  | none => s
  | some (lo, hi, n, types) =>
    let s := { s with hs.discarded := none }
    [0, 1].foldl (fun s t =>
      if types &&& tierTypes t = 0 then s else s.append (gapRec t lo hi s.ownPid 4 n (types &&& tierTypes t))) s

/-- The block of a tier with a number. -/
def State.blockTier (s : State) (n : Nat) : Option (Nat × Block) :=
  (List.range 3).findSome? (fun t => ((s.tier t).blocks.find? (fun b => b.number == n)).map (fun b => (t, b)))

/-- A tier gives up a block where no spare is left (R478). -/
def State.shrinkOne (s : State) : State :=
  let s := { s with hs.shrunk := true }
  if 256 < (s.tier 0).size then s.shrinkTier 0
  else if 64 < (s.tier 1).size then s.shrinkTier 1
  else if 1 < (s.tier 2).size then s.shrinkTier 2
  else { s with hs.ledgerStuck := true }

/-- A block's records move to a fresh block; the old one is erased, or retired for a spare (R472–R474). -/
def State.moveBlock (s : State) (t : Nat) (b : Block) (retire : Bool) : State :=
  let r := s.hs.takeBlock s.blocksFitted
  let move (x : Block) : Block := if x.number = b.number then { x with number := r.1, reads := 0, refresh := false } else x
  let s := { s with hs := if retire then r.2 else r.2.erase b.number }.onTier t (fun x => { x with blocks := x.blocks.map move })
  let s := s.bump 0x78FD 0 b.used
  if !retire then s
  else
    let s := s.bump 0x78F2
    if 0 < s.hs.spare then { s with hs.spare := s.hs.spare - 1 } else s.shrinkOne

/-- Pages of 16 KiB pass a package: NAND_PAGES, and the bytes of meter source 7, in where programmed and out where read (Tables 13.4
and 13.5; log entry 67). -/
def State.pages (s : State) (package programmed read : Nat) : State :=
  ((s.perfEdge 0x0060 package (programmed + read)).meterBytes 7 0 (16384 * programmed)).meterBytes 7 1 (16384 * read)

/-- What a step did on the medium: corrected codewords and soft decodings (R471), pages, and the time each package was busy. -/
def State.mediumCounts (s : State) (o : MediumOutcome) : State :=
  let s := (s.bump 0x78F6 0 o.corrected).bump 0x78F7 0 o.softReads
  let s := (s.pages 0 o.programmed.1 o.read.1).pages 1 o.programmed.2 o.read.2
  (s.perfEdge 0x0061 0 (o.busy.1 / 40 * 40)).perfEdge 0x0061 1 (o.busy.2 / 40 * 40)

/-- HIST_PROGRAM (R458–R460, R463): what waits is programmed in push order, staged Ledger records with it; where the medium
refuses, the store is stalled. The pops may meet memory errors (R253), and the append that waited is served (R476). -/
def State.histProgram (s : State) (o : MediumOutcome) (errors : List CellError) : State :=
  let s := { s with hs.forced := 0 }.cellErrors errors
  if !s.histOpen || !o.ok then
    if (s.queue 0x0A).items.isEmpty then s
    else { s with hs.stallSince := some (s.hs.stallSince.getD s.clk.mono) }
  else
    let s := ({ s with hs.stallSince := none }.mediumCounts o).stallGaps
    let first := (s.queue 0x0A).items.findSome? (fun it => match it.body with | .record r => some (tierOf r.padded) | _ => none)
    let s := s.programQueue
    let staged := s.hs.staged
    let s := staged.foldl State.append { s with hs.staged := [] }
    if o.blockFailed then
      let t := first.getD 2
      match (s.tier t).blocks.getLast? with
      | some b => s.moveBlock t b true
      | none => s
    else s

/-- HIST_PROGRAM (R458). -/
def execHistProgram (dt : Ns) (outcome : AppendOutcome) (s : State) : Host.Outcome State Fault Refusal :=
  event dt (fun s => s.histProgram outcome.medium outcome.errors) s

/-- A discarded item enters the account of R460. -/
def State.discardRecord (s : State) (it : Item) : State :=
  let s := (s.take 0x0A 0).bump 0x78FB
  match it.body with
  | .record r =>
    let d := s.hs.discarded.getD (r.stamp, r.stamp, 0, 0)
    { s with hs.discarded := some (min d.1 r.stamp, max d.2.1 r.stamp, d.2.2.1 + 1, d.2.2.2 ||| 2 ^ (r.type % 64)) }
  | _ => s

/-- WRITE_STALL_TIMEOUT: after 2 s without programming the items at the queue's head are discarded (R460). -/
def execWriteStallTimeout (dt : Ns) (s : State) : Host.Outcome State Fault Refusal :=
  event dt (fun s => match s.hs.stallSince with
    | some t => if t + 2 * sec ≤ s.clk.mono then (s.queue 0x0A).items.foldl State.discardRecord s else s
    | none => s) s

/-- After a start that lost the main domain's supply: a GAP in the Raw and Digest tiers from the newest stamp programmed (R461);
cursors are gone. -/
def State.histRestart (s : State) : State :=
  [0, 1].foldl (fun s t => s.append (gapRec t (s.tier t).newestProgrammed s.now s.ownPid 2 0xFFFFFFFF (tierTypes t))) s

/-! ## Background work (R472–R476) -/

/-- Lose the records of one codeword of a block: the medium tells no more than that one cannot be corrected, so that which one
is a free value (R471, log entry 3). -/
def State.loseCodeword (s : State) (t : Nat) (b : Block) : State :=
  let d := s.draw
  let w := d.1 % max 1 ((b.used + 4095) / 4096)
  let mark (acc : List Stored × Nat) (r : Stored) : List Stored × Nat :=
    let e := acc.2 + r.rec_.size
    (acc.1 ++ [if acc.2 / 4096 ≤ w ∧ w ≤ (e - 1) / 4096 then { r with lost := true } else r], e)
  d.2.onTier t (fun x => { x with blocks := x.blocks.map (fun y =>
    if y.number = b.number then { y with recs := (y.recs.foldl mark (([] : List Stored), 0)).1 } else y) })

/-- Change a block of a tier. -/
def State.onBlock (s : State) (t n : Nat) (f : Block → Block) : State :=
  s.onTier t (fun x => { x with blocks := x.blocks.map (fun y => if y.number = n then f y else y) })

/-- A scrub step reads 1 MiB of a block, and has read it whole with the last (R474, R475). -/
def State.scrub (s : State) (t : Nat) (b : Block) (last : Bool) (o : MediumOutcome) : State :=
  let s := (s.mediumCounts o).onBlock t b.number (fun y =>
    { y with reads := if last then y.reads + 1 else y.reads
             refresh := y.refresh || decide (s.num 0x7801 ≤ o.worstBits) || (last && decide (s.num 0x7802 ≤ y.reads + 1)) })
  let s := if last then { s with hs.lastScrub := s.clk.mono } else s
  if o.uncorrectable then s.loseCodeword t b else s

/-- A step that rewrites a block: with the last its records stand in a fresh block. A refreshed block that still yields an
uncorrectable codeword, and any that fails a program or an erase, is retired (R472–R474). -/
def State.rewrite (s : State) (t : Nat) (b : Block) (w : BackWork) (last : Bool) (o : MediumOutcome) : State :=
  let s := s.mediumCounts o
  let s := if o.uncorrectable then s.loseCodeword t b else s
  if !last then s
  else
    match w.kind with
    | .refresh => (s.moveBlock t b (w.uncorrectable || w.failed)).bump 0x78F8
    | _ => s.moveBlock t b w.failed

/-- Steps of 1 MiB that a block takes. -/
def Block.steps (b : Block) : Nat := max 1 ((b.used + 1048575) / 1048576)

/-- A query or an append waits (R476): a page of a cursor or its opening on a lane, or an item of queue 0x0A. -/
def State.histWaits (s : State) : Bool :=
  0 < s.depth 0x0A ||
    s.link.sessions.any (fun x => x.lanes.any (fun l => l.phase == .waiting && (match l.cmd with
      | some (op, _) => op == 0x7801 || op == 0x7802
      | none => false)))

/-- No block has been scrubbed in the last 10 s (R476). -/
def State.scrubLate (s : State) : Bool := s.hs.lastScrub + 10 * sec ≤ s.clk.mono

/-- Background work gives way to a query or an append that waits (R33), but for a scrub step that the floor forces, no more than 3 ahead
of any one (R34, R476). -/
def State.scrubYields (s : State) (kind : ScrubKind) : Bool :=
  s.histWaits && !(kind == .scrub && s.scrubLate && s.hs.forced < 3)

/-- The work a step carries on, with this step counted; a step of other work begins that. -/
def State.workOn (s : State) (kind : ScrubKind) (n : Nat) (o : MediumOutcome) : BackWork :=
  let w := match s.hs.work with
    | some w => if w.kind = kind ∧ w.block = n then w else { kind := kind, block := n, done := 0, uncorrectable := false, failed := false }
    | none => { kind := kind, block := n, done := 0, uncorrectable := false, failed := false }
  { w with done := w.done + 1, uncorrectable := w.uncorrectable || o.uncorrectable, failed := w.failed || o.blockFailed }

/-- The step of the work `w`, the block's last one or not. -/
def State.backStep (s : State) (kind : ScrubKind) (t : Nat) (b : Block) (w : BackWork) (last : Bool) (o : MediumOutcome) : State :=
  let s := { s with hs.work := if last then none else some w }
  match kind with
  | .scrub =>
    let s := if s.scrubLate then { s.bump 0x78F9 with hs.forced := s.hs.forced + 1 } else s
    s.scrub t b last o
  | .refresh => if b.refresh then s.rewrite t b w last o else s
  | .relocate => if s.lowWear b then s.rewrite t b w last o else s

/-- A background step of a block (R476). -/
def State.blockStep (s : State) (kind : ScrubKind) (t : Nat) (b : Block) (o : MediumOutcome) : State :=
  let w := s.workOn kind b.number o
  s.backStep kind t b w (decide (b.steps ≤ w.done)) o

/-- One background step (R476), none in LAST-GASP; an OUT store misses its floor, once in 10 s (R35). -/
def State.scrubStep (s : State) (kind : ScrubKind) (n : Nat) (o : MediumOutcome) : State :=
  if s.pwr.state = .lastGasp then s
  else if s.workingPackages.isEmpty then
    if s.scrubLate then { s.bump 0x78FA with hs.lastScrub := s.clk.mono } else s
  else match s.blockTier n with
    | none => s
    | some (t, b) => if !o.ok || s.scrubYields kind then s else s.blockStep kind t b o

/-- SCRUB_STEP (R472–R476). -/
def execScrubStep (dt : Ns) (kind : ScrubKind) (block : Nat) (outcome : MediumOutcome) (s : State) :
    Host.Outcome State Fault Refusal :=
  event dt (fun s => s.scrubStep kind block outcome) s

/-- A tier loses what a package held: a GAP from the oldest to the newest stamp (R477). -/
def State.losePackage (s : State) (p t : Nat) : State :=
  let gone := (s.tier t).blocks.filter (fun b => b.package == p)
  let recs := gone.flatMap (fun b => b.recs)
  let s := (s.cursorsLose t 1 recs).onTier t (fun x => { x with blocks := x.blocks.filter (fun b => b.package != p), size := x.size / 2 })
  let s := s.trimTier t
  match minOf (recs.map (fun r => r.index)) with
  | none => s
  | some lo => s.append (gapRec t lo (maxOf (recs.map (fun r => r.index))) s.ownPid 1 recs.length (tierTypes t))

/-- PACKAGE_FAILURE: on two packages the Raw and Digest tiers halve and the Ledger lives on in its mirror; on one nothing is
left (R477). -/
def State.packageFails (s : State) (p : Nat) : State :=
  if !s.workingPackages.contains p then s
  else
    let s := { s with hs.packages := lset s.hs.packages p false }
    if s.workingPackages.isEmpty then { s with hs.tiers := s.hs.tiers.map (fun x => { x with blocks := [] }) }
    else
      let s := s.onTier 2 (fun x => { x with blocks := x.blocks.map (fun b => { b with package := 1 - p }) })
      (s.losePackage p 0).losePackage p 1

/-- PACKAGE_FAILURE (R477). -/
def execPackageFailure (dt : Ns) (package : Nat) (s : State) : Host.Outcome State Fault Refusal :=
  event dt (fun s => s.packageFails package) s

/-! ## Queries (R466–R470) -/

/-- What a cursor returns next: a GAP for what had aged out when it was opened, one for what has been turned over or lost since, and the
records, one whose codeword is lost as a GAP in its place. -/
inductive Entry where
  | aged (r : HistRec)
  | gone (r : HistRec) (x : GoneRecs)
  | stored (r : Stored) (retracted : Bool)
  | lost (r : Stored)

/-- Where an entry stands in stamp order. -/
def Entry.at_ : Entry → Ns
  | .aged r => r.stamp
  | .gone _ x => x.first
  | .stored r _ => r.index
  | .lost r => r.index

/-- The entries of a cursor in stamp order (R467, R469). -/
def State.cursorEntries (s : State) (c : Cursor) : List Entry :=
  sortBy Entry.at_
    ((if !c.agedTold && decide (c.from_ < c.oldest) then [.aged (c.gap s.ownPid c.from_ c.oldest 6 0xFFFFFFFF)] else []) ++
      c.gone.map (fun x => .gone (c.gap s.ownPid x.first x.last x.cause x.count) x) ++
      (s.cursorRecs c).map (fun e => if e.1.lost then .lost e.1 else .stored e.1 e.2))

/-- An entry as it is returned. -/
def Entry.bytes (c : Cursor) : Entry → List Byte
  | .aged r => recordImage r false false
  | .gone r _ => recordImage r false false
  | .stored r x => recordImage r.rec_ r.noTime x
  | .lost r => recordImage (c.gap r.rec_.place r.index r.index 1 1) r.noTime false

/-- Entries that fit in `n` bytes, whole (R470). -/
def takeFitting (c : Cursor) (n : Nat) : List Entry → List Entry
  | [] => []
  | e :: rest => let k := (e.bytes c).length; if k ≤ n then e :: takeFitting c (n - k) rest else []

/-- Change the cursor of a number. -/
def State.onCursor (s : State) (id : Nat) (f : Cursor → Cursor) : State :=
  { s with hs.cursors := s.hs.cursors.map (fun c => if c.id = id then f c else c) }

/-- A record that cannot be corrected goes from its tier for the GAP that is appended there (R469). -/
def State.replaceLost (s : State) (t : Nat) (r : Stored) : State :=
  (s.onTier t (fun x => { x with blocks := x.blocks.map (fun b =>
    { b with recs := b.recs.filter (fun y => y.append != r.append) }) })).append
    (gapRec t r.index r.index r.rec_.place 1 1 (2 ^ (r.rec_.type % 64)))

/-- A cursor of tier `t` has returned an entry. -/
def State.returned (s : State) (id t : Nat) (e : Entry) : State :=
  match e with
  | .aged _ => s.onCursor id (fun c => { c with agedTold := true })
  | .gone _ x => s.onCursor id (fun c => { c with gone := c.gone.erase x })
  | .stored r _ => s.onCursor id (fun c => { c with after := some (r.index, r.append) })
  | .lost r => (s.onCursor id (fun c => { c with after := some (r.index, r.append) })).replaceLost t r

/-- Pages of a block that its records with the given appends stand in. -/
def Block.pagesOf (b : Block) (appends : List Nat) : Nat :=
  let mark (acc : List Nat × Nat) (r : Stored) : List Nat × Nat :=
    (if appends.contains r.append then acc.1 ++ [acc.2 / 16384, (acc.2 + r.rec_.size - 1) / 16384] else acc.1, acc.2 + r.rec_.size)
  (b.recs.foldl mark (([] : List Nat), 0)).1.dedup.length

/-- Blocks that a page was read from count a read (R474), and their packages the pages; how long those were busy the spec does not
say: a free value (log entry 3). -/
def State.countReads (s : State) (t : Nat) (es : List Entry) : State :=
  let appends := es.filterMap (fun e => match e with | .stored r _ => some r.append | _ => none)
  let read (p : Nat) : Nat := sumOf (((s.tier t).blocks.filter (fun b => b.package == p)).map (fun b => b.pagesOf appends))
  let n := [read 0, read 1]
  let s := s.onTier t (fun x => { x with blocks := x.blocks.map (fun b =>
    if b.recs.any (fun r => appends.contains r.append) then
      { b with reads := b.reads + 1, refresh := b.refresh || decide (s.num 0x7802 ≤ b.reads + 1) }
    else b) })
  [0, 1].foldl (fun s p =>
    let k := (n[p]?).getD 0
    if k = 0 then s else let d := s.draw; (d.2.pages p 0 k).perfEdge 0x0061 p (40 * d.1)) s

/-- The field checks of HIST_QUERY (R466, R14, R25). -/
def State.queryRefused (s : State) (b : List Byte) : Option Nat :=
  let tier := fld b 0 1
  if fld b 20 8 = 0 ∨ fld b 28 8 ≤ fld b 20 8 ∨ 2 < tier ∨ 2 < fld b 2 1 ∨ fld b 12 8 &&& tierTypes tier = 0 then some stRange
  else s.pidRefused (pidAt b 4)

def histQueryBody (r : Req) (s : State) : Result :=
  let b := r.payload
  let ep := r.src.endpoint
  match s.queryRefused b with
  | some st => fail st s
  | none =>
    if 16 ≤ s.hs.cursors.length ∨ 4 ≤ (s.hs.cursors.filter (fun c => c.ep == ep)).length then
      let d := s.draw
      .done stBusy (u16 d.1) d.2
    else
      let c : Cursor :=
        { id := s.hs.nextCursor, ep := ep, tier := fld b 0 1, hide := hasBit (fld b 1 1) 0, mode := fld b 2 1
          place := pidAt b 4, types := fld b 12 8, from_ := fld b 20 8, to_ := fld b 28 8, cutoff := s.now
          appended := s.hs.appendSeq, after := none, lastUse := s.clk.mono, agedTold := false
          oldest := s.histOldest (fld b 0 1), gone := [] }
      ok (u32 c.id ++ u32 0 ++ u64 c.cutoff)
        { s with hs.cursors := s.hs.cursors ++ [c], hs.nextCursor := (s.hs.nextCursor + 1) % pow32 }

def histQueryCommand : Command :=
  { opcode := 0x7801, access := .holder, firstLane := 1, layout := exactly 36, body := histQueryBody }

/-- HIST_QUERY (R466). -/
def execHistQuery (r : Req) (s : State) : Host.Outcome State Fault Refusal := shotas histQueryCommand r s

/-- The session's cursor of a number. -/
def State.cursor? (s : State) (ep : Endpoint) (id : Nat) : Option Cursor :=
  s.hs.cursors.find? (fun c => c.id == id && c.ep == ep)

def histNextBody (r : Req) (s : State) : Result :=
  let n := fld r.payload 4 2
  if n < 32 ∨ 1468 < n then fail stRange s
  else match s.cursor? r.src.endpoint (fld r.payload 0 4) with
    | none => fail stState s
    | some c =>
      let all := s.cursorEntries c
      let es := takeFitting c n all
      let s := { s.onCursor c.id (fun (x : Cursor) => { x with lastUse := s.clk.mono }) with hs.forced := 0 }
      let s := es.foldl (fun s e => s.returned c.id c.tier e) (s.countReads c.tier es)
      ok (u16 es.length ++ u8 (bit (es.length == all.length)) ++ u8 0 ++ (es.map (fun e => e.bytes c)).flatten) s

def histNextCommand : Command :=
  { opcode := 0x7802, access := .holder, firstLane := 1, layout := exactly 8, body := histNextBody }

/-- HIST_NEXT (R467–R470). -/
def execHistNext (r : Req) (s : State) : Host.Outcome State Fault Refusal := shotas histNextCommand r s

def histCloseBody (r : Req) (s : State) : Result :=
  match s.cursor? r.src.endpoint (fld r.payload 0 4) with
  | none => fail stState s
  | some c => ok [] { s with hs.cursors := s.hs.cursors.filter (fun x => x.id != c.id) }

def histCloseCommand : Command :=
  { opcode := 0x7803, access := .holder, firstLane := 1, layout := exactly 4, body := histCloseBody }

/-- HIST_CLOSE (R470). -/
def execHistClose (r : Req) (s : State) : Host.Outcome State Fault Refusal := shotas histCloseCommand r s

/-- hs.retain_est: 0 until an hour has passed; where nothing was appended in the last hour no estimate is stated: a free value
(log entry 3). -/
def State.retention (s : State) (t : Nat) : Nat × State :=
  let x := (s.tier t).roll s.clk.mono
  if x.lastHour = none then (0, s)
  else if x.lastHour = some 0 then (s.draw.1 % pow32, s.draw.2)
  else (min (pow32 - 1) (x.size * blockBytes / x.lastHour.getD 0), s)

/-- A tier's 32 bytes of HIST_STATUS. -/
def State.tierStatus (s : State) (t : Nat) : List Byte × State :=
  let r := s.retention t
  (u8 t ++ zeros 3 ++ u32 (4 * (s.tier t).size) ++ u32 (4 * (s.tier t).blocks.length) ++ u32 r.1 ++ u64 (s.histOldest t) ++
    u64 (s.histNewest t), r.2)

def histStatusBody (_ : Req) (s : State) : Result :=
  let a := s.tierStatus 0
  let b := a.2.tierStatus 1
  let c := b.2.tierStatus 2
  let packages := sumOf (s.workingPackages.map (fun p => 2 ^ p))
  ok (u64 s.now ++ u8 (s.healthOf 0x10).code ++ u8 packages ++ u16 0 ++ u32 s.hs.spare ++ u32 (s.counter 0x78F2) ++
    u32 s.eraseMean ++ u32 (maxOf (s.hs.erases.map Prod.snd)) ++ u32 0 ++ a.1 ++ b.1 ++ c.1) c.2

def histStatusCommand : Command :=
  { opcode := 0x7810, access := .holder, firstLane := 1, layout := isEmpty, body := histStatusBody }

/-- HIST_STATUS (Table 12.6). -/
def execHistStatus (r : Req) (s : State) : Host.Outcome State Fault Refusal := shotas histStatusCommand r s

end Sys2Proof.Machine
end

