-- ==== Sys2Proof/Machine/Ring.lean ====
section
/-!
DEFINITION. The ring (R419–R438) and the commands of group 0x70 about it: links, HSR, traffic classes, PAUSE, LPI, speed
lowering and launch-time queues.
-/

namespace Sys2Proof.Machine

def State.onPort (s : State) (p : Port) (f : RingPort → RingPort) : State := s.setPort p (f (s.port p))

/-- Unit IDs of the ports. -/
def portUnit (p : Port) : Nat := 0x0C + portIx p

def State.linkUp (s : State) (p : Port) : Bool := (s.port p).link.speed != 0

/-- The pin A_nLINK or B_nLINK is high: the port has no link (Table 17.1). -/
def State.nLink (s : State) (p : Port) : Bool := !s.linkUp p

/-! ## Ring state (R429–R431) -/

/-- Own frames have returned on both ports within 3 × ring.sup_ms (R430). -/
def State.ringReturns (s : State) : Bool :=
  [Port.A, Port.B].all (fun p => match (s.port p).returnedAt with
    | some t => decide (s.clk.mono ≤ t + 3 * s.num 0x7001 * ms)
    | none => false)

/-- The ring's state follows; a change raises RING_STATE (R430). -/
def State.judgeRing (s : State) : State :=
  if s.ringReturns = s.ring.closed then s
  else
    let old := bit (!s.ring.closed)
    let s := { s with ring.closed := !s.ring.closed }
    s.raise 0x70E0 0xFF (u8 old ++ u8 (1 - old) ++ u8 (s.healthOf 0x0C).code ++ u8 (s.healthOf 0x0D).code ++
      u8 (s.heardCount .A) ++ u8 (s.heardCount .B) ++ u16 0 ++ u64 s.now)

/-- A frame from a peer of the table has arrived on a port (R429). -/
def State.hear (s : State) (p : Port) (m : Mac) : State :=
  if !s.ring.peers.any (fun e => e.2 == m) then s
  else
    let put (l : List (Mac × Ns)) : List (Mac × Ns) := l.filter (fun e => e.1 != m) ++ [(m, s.clk.mono)]
    match p with
    | .A => { s with ring.heardA := put s.ring.heardA }
    | .B => { s with ring.heardB := put s.ring.heardB }

/-- A peer is heard on a port. -/
def State.heardOn (s : State) (p : Port) (m : Mac) : Bool :=
  let l := match p with | .A => s.ring.heardA | .B => s.ring.heardB
  l.any (fun e => e.1 == m && decide (s.clk.mono ≤ e.2 + 3 * s.num 0x7001 * ms))

/-! ## Commands about the ring (R432, R451) -/

/-- A port's 48 bytes of RING_HEALTH (Table 11.9). -/
def State.portStatus (s : State) (p : Port) : List Byte :=
  let r := s.port p
  let paused := match r.pausedUntil with | some t => decide (s.clk.mono < t) | none => false
  u8 (portIx p) ++ u8 (s.healthOf (portUnit p)).code ++ u8 r.link.speed ++ u8 r.mode ++
    u8 (bit r.lpi + 2 * bit r.verified + 4 * bit paused + 8 * bit r.delayValid) ++ zeros 3 ++
    ([r.delay, r.tx, r.rx, r.firsts, r.seconds, r.lone, r.mismatches, r.returned, r.drops, 0].map u32).flatten

def ringHealthBody (_ : Req) (s : State) : Result :=
  let ms_ := s.ring.peers.map Prod.snd
  let n (a b : Bool) : Nat := (ms_.filter (fun m => s.heardOn .A m == a && s.heardOn .B m == b)).length
  ok (u64 s.now ++ u8 (bit (!s.ring.closed)) ++ zeros 3 ++ u8 (n true true) ++ u8 (n true false) ++ u8 (n false true) ++
    u8 (n false false) ++ s.portStatus .A ++ s.portStatus .B) s

def ringHealthCommand : Command :=
  { opcode := 0x7001, access := .holder, firstLane := 1, layout := isEmpty, body := ringHealthBody }

/-- RING_HEALTH (R451). -/
def execRingHealth (r : Req) (s : State) : Host.Outcome State Fault Refusal := shotas ringHealthCommand r s

def ringPeerSetBody (r : Req) (s : State) : Result :=
  let es := (entries 8 r.payload).map (fun b => (fld b 0 1, macAt b 2))
  if es.isEmpty ∨ 63 < es.length ∨ es.any (fun e => 63 < e.1 || e.1 == pidSegment s.ownPid) then fail stRange s
  else
    let t := es.foldl (fun t e => if e.2 = 0 then tdel t e.1 else tput t e.1 e.2) s.ring.peers
    let known (e : Mac × Ns) : Bool := t.any (fun x => x.2 == e.1)
    ok [] { s with ring.peers := t, ring.heardA := s.ring.heardA.filter known, ring.heardB := s.ring.heardB.filter known }

def ringPeerSetCommand : Command :=
  { opcode := 0x7002, access := .holder, firstLane := 1, layout := counted 8, body := ringPeerSetBody }

/-- RING_PEER_SET (R432, R451). -/
def execRingPeerSet (r : Req) (s : State) : Host.Outcome State Fault Refusal := shotas ringPeerSetCommand r s

def ringPeerGetBody (_ : Req) (s : State) : Result :=
  let last (m : Mac) : Ns := maxOf ((s.ring.heardA ++ s.ring.heardB).filterMap (fun e => if e.1 = m then some e.2 else none))
  ok (u16 s.ring.peers.length ++ u16 0 ++ (s.ring.peers.map (fun e =>
    u8 e.1 ++ u8 (bit (s.heardOn .A e.2) + 2 * bit (s.heardOn .B e.2)) ++ macBytes e.2 ++
      u64 (s.stampAt (last e.2)))).flatten) s

def ringPeerGetCommand : Command :=
  { opcode := 0x7003, access := .holder, firstLane := 1, layout := isEmpty, body := ringPeerGetBody }

/-- RING_PEER_GET (R451). -/
def execRingPeerGet (r : Req) (s : State) : Host.Outcome State Fault Refusal := shotas ringPeerGetCommand r s

/-! ## Traffic classes and sending (R433–R436) -/

/-- A frame's class (R433). -/
def State.frameExpress (s : State) (f : RingFrame) : Bool :=
  f.etherType == 0x88F7#16 || f.supervision ||
    (match f.vlan with | some v => decide (s.num 0x7005 ≤ v.toNat / 8192) | none => false) ||
    (f.etherType == 0x88B5#16 && 24 ≤ f.lsdu.length &&
      ((fld f.lsdu 1 1 == 1 && hasBit (fld f.lsdu 2 2) 0) || (fld f.lsdu 9 1 == 0x40 && 0xC0 ≤ fld f.lsdu 8 1)))

def frameSize (f : RingFrame) : Nat := frameBytes f.vlan f.lsdu.length

/-- A pause holds the port's preemptable frames (R435). -/
def RingPort.paused (r : RingPort) (mono : Ns) : Bool := match r.pausedUntil with | some t => decide (mono < t) | none => false

/-- A frame leaves by a port. -/
def State.frameOut (s : State) (p : Port) (f : RingFrame) : State :=
  let express := s.frameExpress f
  { s with out := s.out ++ [Out.ringFrame p express f] }.portSends p (frameSize f)

/-- Room in the port's preemptable buffer (R436). -/
def RingPort.roomFor (r : RingPort) (n : Nat) : Bool := sumOf (r.fwdQ.map frameSize) + n ≤ 131072

/-- A frame is forwarded out of a port: at once, or after the pause that holds its class back; without room it is dropped
(R435, R436). -/
def State.forward (s : State) (p : Port) (f : RingFrame) : State :=
  let r := s.port p
  if !(r.paused s.clk.mono) || s.frameExpress f then s.frameOut p f
  else if r.roomFor (frameSize f) then s.setPort p { r with fwdQ := r.fwdQ ++ [f] }
  else (s.setPort p { r with drops := (r.drops + 1) % pow32 }).bump 0x70F2

/-- The port's pause ends, and what waited leaves (R435). -/
def State.endPause (s : State) (p : Port) : State :=
  let r := s.port p
  r.fwdQ.foldl (fun s f => s.frameOut p f) (s.setPort p { r with pausedUntil := none, fwdQ := [] })

/-! ## HSR (R425–R428) -/

/-- Entries of a duplicate table that still count, and whether the frame is among them. -/
def freshDups (l : List DupEntry) (now_ forget : Ns) : List DupEntry := l.filter (fun e => now_ ≤ e.at_ + forget)
def hasDup (l : List DupEntry) (f : RingFrame) : Bool := l.any (fun e => e.src == f.src && e.seq == f.hsrSeq)

/-- ring.forget_ms. -/
def State.forget (s : State) : Ns := s.num 0x7002 * ms

/-- A duplicate table takes an entry; a full one forgets its oldest early (R427). -/
def State.addDup (s : State) (l : List DupEntry) (f : RingFrame) : List DupEntry × State :=
  let e : DupEntry := { src := f.src, seq := f.hsrSeq, at_ := s.clk.mono }
  if l.length < 4096 then (l ++ [e], s) else (l.drop 1 ++ [e], s.bump 0x70F1)

/-- Forward a frame out of a port unless it has left by it (R427). -/
def State.forwardOnce (s : State) (p : Port) (f : RingFrame) : State :=
  let l := freshDups (s.port p).left s.clk.mono s.forget
  if hasDup l f || !s.linkUp p then s.onPort p (fun r => { r with left := l })
  else
    let r := s.addDup l f
    (r.2.onPort p (fun x => { x with left := r.1 })).forward p f

/-- The second copy of a delivered frame (R428). -/
def State.secondCopy (s : State) (p : Port) (f : RingFrame) : State :=
  match s.ring.copies.find? (fun c => c.src == f.src && c.seq == f.hsrSeq && c.port != p) with
  | none => s
  | some c =>
    let s := { s with ring.copies := s.ring.copies.filter (fun x => !(x.src == c.src && x.seq == c.seq)) }
    if c.crc = BitVec.ofNat 32 (crc32c f.lsdu) then s.onPort p (fun r => { r with seconds := (r.seconds + 1) % pow32 })
    else
      let s := (s.onPort p (fun r => { r with mismatches := (r.mismatches + 1) % pow32, mismatchAt := some s.clk.mono })).bump
        0x70F0
      if s.ring.mismatchSecond = some s.second then s
      else { s with ring.mismatchSecond := some s.second }.record 0x7001 (portUnit p)
        (u8 (portIx p) ++ u8 0 ++ u16 f.hsrSeq.toNat ++ macBytes f.src)

/-- The frame's first copy for this module is noted (R427, R428). -/
def State.firstCopy (s : State) (p : Port) (f : RingFrame) : State :=
  let r := s.addDup (freshDups s.ring.delivered s.clk.mono s.forget) f
  let c : SecondCopy :=
    { src := f.src, seq := f.hsrSeq, port := p, crc := BitVec.ofNat 32 (crc32c f.lsdu), at_ := s.clk.mono }
  { r.2 with ring.delivered := r.1, ring.copies := s.ring.copies ++ [c] }.onPort p (fun x =>
    { x with firsts := (x.firsts + 1) % pow32 })

/-- The frame is addressed to the module: its own address, or a group address. -/
def forModule (f : RingFrame) : Bool := match f.dst with | .other _ => false | _ => true

/-- A frame arrives on a port (Table 11.9). -/
def State.portHears (s : State) (p : Port) (bytes : Nat) : State :=
  ((s.onPort p (fun r => { r with rx := (r.rx + 1) % pow32 })).meterBytes (portIx p) 0 bytes).perfEdge 0x0050 (portIx p) 1

/-- One of the module's own frames has come round the ring: it is removed (R427, R430). -/
def State.ownReturns (s : State) (p : Port) : State :=
  (s.onPort p (fun r => { r with returned := (r.returned + 1) % pow32, returnedAt := some s.clk.mono })).judgeRing

/-- A tagged frame on a port (R427). The second component tells that it is delivered locally. -/
def State.ringFrame (s : State) (p : Port) (f : RingFrame) : State × Bool :=
  if !s.linkUp p then (s, false)
  else
    let s := (s.portHears p (frameSize f)).hear p f.src
    if f.src = s.id.mac then (s.ownReturns p, false)
    else
      let seen := hasDup (freshDups s.ring.delivered s.clk.mono s.forget) f
      let mine := forModule f
      let s := if !mine then s else if seen then s.secondCopy p f else s.firstCopy p f
      let s := if f.dst = .module then s else s.forwardOnce (Port.other p) f
      (s, mine && !seen)

/-- SECOND_COPY_TIMEOUT (R428). -/
def execSecondCopyTimeout (dt : Ns) (src : Mac) (hsrSeq : BitVec 16) (s : State) : Host.Outcome State Fault Refusal :=
  event dt (fun s =>
    match s.ring.copies.find? (fun c => c.src == src && c.seq == hsrSeq && decide (c.at_ + s.forget ≤ s.clk.mono)) with
    | none => s
    | some c =>
      { s with ring.copies := s.ring.copies.filter (fun x => !(x.src == c.src && x.seq == c.seq)) }.onPort c.port (fun r =>
        { r with lone := (r.lone + 1) % pow32 })) s

/-! ## Launch-time queues (R437, R438) -/

/-- Put a frame of the module's own on both ports' queue of a class, under the next HSR sequence (R426, R437). A queue holds 64
frames (log entry 35). -/
def State.launch (s : State) (express : Bool) (at_ tol : Ns) (dst : Dest) (etherType : BitVec 16)
    (supervision : Bool) (lsdu : List Byte) : State :=
  let f : RingFrame :=
    { src := s.id.mac, dst := dst, hsrSeq := s.ring.seq, vlan := none, etherType := etherType, supervision := supervision
      lsdu := lsdu }
  let add (q : List LaunchFrame) : List LaunchFrame :=
    if q.length < 64 then insertBy (fun x => x.launch) { launch := at_, tol := tol, frame := f } q else q
  let put (r : RingPort) : RingPort :=
    if express then { r with expressQ := add r.expressQ } else { r with preemptQ := add r.preemptQ }
  { (s.onPort .A put).onPort .B put with ring.seq := s.ring.seq + 1#16 }

/-- A port's queue of a class. -/
def RingPort.launchQ (r : RingPort) : TrafficClass → List LaunchFrame
  | .express => r.expressQ
  | .preemptable => r.preemptQ

def RingPort.setLaunchQ (r : RingPort) (c : TrafficClass) (q : List LaunchFrame) : RingPort :=
  match c with
  | .express => { r with expressQ := q }
  | .preemptable => { r with preemptQ := q }

/-- LAUNCH_QUEUE_FRAME: the class has its transmission opportunity (R437). -/
def State.launchFrame (s : State) (p : Port) (c : TrafficClass) : State :=
  let r := s.port p
  match r.launchQ c with
  | [] => s
  | x :: rest =>
    if s.tb < x.launch || !s.linkUp p || (c == .preemptable && r.paused s.clk.mono) then s
    else
      let s := s.setPort p (r.setLaunchQ c rest)
      if x.launch + x.tol < s.tb then s.bump 0x70F4 else s.frameOut p x.frame

/-- LAUNCH_QUEUE_FRAME (R437). -/
def execLaunchQueueFrame (dt : Ns) (port : Port) (cls : TrafficClass) (s : State) : Host.Outcome State Fault Refusal :=
  event dt (fun s => s.launchFrame port cls) s

/-- SUPERVISION_SEND, every ring.sup_ms on both ports (R429, R437; log entry 35). -/
def execSupervisionSend (dt : Ns) (s : State) : Host.Outcome State Fault Refusal :=
  event dt (fun s =>
    let n := s.num 0x7001 * ms
    if s.ring.lastSup + n ≤ s.clk.mono then
      { s with ring.lastSup := s.clk.mono, ring.supSeq := (s.ring.supSeq + 1) % 65536 }.launch true s.tb n .group 0x88FB#16 true
        (u16 s.ring.supSeq ++ macBytes s.id.mac)
    else s) s

/-- SUPERVISION_TIMEOUT (R430). -/
def execSupervisionTimeout (dt : Ns) (s : State) : Host.Outcome State Fault Refusal := event dt State.judgeRing s

/-! ## Links (R419–R424, R434, R435) -/

/-- A link is lost or changes speed: what rests on it starts over (R434, R435, R444). -/
def RingPort.relink (r : RingPort) (mono : Ns) : RingPort :=
  { r with delayValid := false, delayInvalidSince := mono, okRun := 0, failRun := 0, delays := [], asked := false
           verified := false, verifyTries := 0, verifyFailed := false, lpi := false, pausedUntil := none, fwdQ := []
           txEmptySince := mono }

/-- LINK_CHANGE: no link comes up on a disabled port, on one that ring.port_enable holds down, or with a half-duplex partner
(R419, R420). -/
def State.linkChange (s : State) (p : Port) (info : LinkInfo) : State :=
  let r := s.port p
  let down := r.mode == 3 || !s.flag 0x7080 (portIx p) || info.halfDuplexOnly
  let new : LinkInfo := if down then { info with speed := 0 } else { info with speed := info.speed % 4 }
  if new = r.link ∧ !r.renegotiating then s
  else
    let x := if new.speed = r.link.speed ∧ !r.renegotiating then r else r.relink s.clk.mono
    s.setPort p
      { x with link := new, renegotiating := false
               eee := if new.speed = r.link.speed ∧ !r.renegotiating then x.eee else s.flag 0x700A && new.partnerEee
               target := if new.speed = 0 then x.target else new.speed
               lastSpeedChange := if new.speed ≠ 0 ∧ new.speed ≠ r.link.speed then some s.clk.mono else x.lastSpeedChange }

/-- LINK_CHANGE (R420, R444). -/
def execLinkChange (dt : Ns) (port : Port) (info : LinkInfo) (s : State) : Host.Outcome State Fault Refusal :=
  event dt (fun s => s.linkChange port info) s

/-- Nanoseconds of 512 bit times at a speed. -/
def quantumNs (speed : Nat) : Ns := if speed = 3 then 512 else if speed = 2 then 5120 else 51200

/-- PAUSE (R435, Table 11.3). -/
def execPause (dt : Ns) (port : Port) (quanta : BitVec 16) (s : State) : Host.Outcome State Fault Refusal :=
  event dt (fun s =>
    if !s.linkUp port then s
    else
      let s := (s.portHears port 64).bump 0x70F3
      if !s.flag 0x7003 then s
      else if quanta = 0#16 then s.endPause port
      else s.onPort port (fun r =>
        { r with pausedUntil := some (s.clk.mono + quanta.toNat * quantumNs r.link.speed) })) s

/-- PAUSE_EXPIRY (R435). -/
def execPauseExpiry (dt : Ns) (port : Port) (s : State) : Host.Outcome State Fault Refusal :=
  event dt (fun s => match (s.port port).pausedUntil with
    | some t => if t ≤ s.clk.mono then s.endPause port else s
    | none => s) s

/-- MAC_MERGE_VERIFY: up to 3 attempts, 10 ms apart (R434). -/
def execMacMergeVerify (dt : Ns) (port : Port) (answered : Bool) (s : State) : Host.Outcome State Fault Refusal :=
  event dt (fun s =>
    let r := s.port port
    if !s.linkUp port || r.verified || r.verifyFailed || (r.verifyTries != 0 && decide (s.clk.mono < r.verifyAt + 10 * ms)) then s
    else
      let r := { r with verifyTries := r.verifyTries + 1, verifyAt := s.clk.mono, verified := answered
                        verifyFailed := !answered && decide (3 ≤ r.verifyTries + 1) }
      let s := ({ s.setPort port r with out := s.out ++ [Out.macMergeVerify port] }).portSends port 64
      if answered then s.portHears port 64 else s) s

/-- LPI_ENTRY (R424). -/
def execLpiEntry (dt : Ns) (port : Port) (s : State) : Host.Outcome State Fault Refusal :=
  event dt (fun s =>
    let r := s.port port
    if r.eee && r.mode == 0 && 2 ≤ r.link.speed && r.expressQ.isEmpty && r.preemptQ.isEmpty &&
      r.fwdQ.isEmpty && decide (r.txEmptySince + s.num 0x700B * us ≤ s.clk.mono) then s.setPort port { r with lpi := true }
    else s) s

/-- Automatic speed lowering acts on the port: the B end of a link between two integrated copper PHYs (R421). -/
def State.autoSpeed (s : State) (p : Port) : Bool :=
  let r := s.port p
  p == .B && r.mode == 0 && r.link.partnerCopper && r.link.partnerAuto && s.flag 0x7006 && r.link.speed != 0

/-- The next speed that ring.speeds allows, down or up, the present one if there is none. -/
def State.nextSpeed (s : State) (p : Port) (v : Nat) (up : Bool) : Nat :=
  let allowed := [1, 2, 3].filter (fun v => hasBit (s.num 0x7081 (portIx p)) (v - 1))
  if up then (allowed.find? (fun x => v < x)).getD v else (allowed.reverse.find? (fun x => x < v)).getD v

/-- SPEED_LOWER_EVAL (R422): loads in 0.01 %. -/
def execSpeedLowerEval (dt : Ns) (port : Port) (load : LinkLoad) (s : State) : Host.Outcome State Fault Refusal :=
  event dt (fun s =>
    let r := s.port port
    if !s.autoSpeed port then s
    else
      let raise_ := load.waited || 100 * s.num 0x7008 < load.inNow || 100 * s.num 0x7008 < load.outNow
      let lower := load.inLower < 100 * s.num 0x7007 && load.outLower < 100 * s.num 0x7007
      s.setPort port { r with target :=
        if raise_ then s.nextSpeed port r.link.speed true
        else if lower then s.nextSpeed port r.link.speed false else r.link.speed }) s

/-- The conditions of R423. -/
def State.mayRenegotiate (s : State) (p : Port) : Bool :=
  let r := s.port p
  s.autoSpeed p && r.target != r.link.speed && s.timeValid && s.ring.closed && s.linkUp (Port.other p) &&
    (match r.lastSpeedChange with | some t => decide (t + s.num 0x7009 * sec ≤ s.clk.mono) | none => true) &&
    (s.pwr.state == .run || s.pwr.state == .quiet) && s.tb / (4 * sec) % 64 == pidSegment s.ownPid

/-- RENEGOTIATION: the link goes down until LINK_CHANGE brings it up at the chosen speed (R423). -/
def execRenegotiation (dt : Ns) (port : Port) (s : State) : Host.Outcome State Fault Refusal :=
  event dt (fun s =>
    if s.mayRenegotiate port then
      let r := (s.port port).relink s.clk.mono
      (s.setPort port { r with renegotiating := true, lastSpeedChange := some s.clk.mono
                               link := { r.link with speed := 0 } }).bump 0x70F5
    else s) s

end Sys2Proof.Machine
end

