-- ==== Sys2Proof/Machine/Time.lean ====
section
/-!
DEFINITION. Network time (R439–R453): peer delay, Sync and Follow_Up, the best master clock, the servo and the time states,
steps, PPS_IN, and TIME_STATUS and TIME_SEED.
-/

namespace Sys2Proof.Machine

/-! ## Stamps (R440–R442) -/

/-- A PTP timestamp as a Stamp64; negative before 2020 (R440). -/
def ptpStamp (seconds nanos : Nat) : Int := ((seconds : Int) - 1577836800) * (sec : Int) + nanos

/-- tx and rx latency of a port in ns (Table 11.4). -/
def State.latency (s : State) (p : Port) : Int × Int :=
  let r := s.port p
  match r.mode with
  | 0 => if r.link.speed = 3 then (184, 312) else if r.link.speed = 2 then (96, 268) else (520, 1240)
  | 1 => (48, 72)
  | _ => (48 + s.num 0x7082 (portIx p), 72 + s.num 0x7083 (portIx p))

/-- A raw stamp of the VKM-16C's 32-bit unit, extended by the pair (R441). -/
def State.extendRaw (s : State) (raw : Nat) : Int :=
  let d : Int := ((raw + pow32 - s.ptp.rawRef % pow32) % pow32 : Nat)
  (s.ptp.extRef : Int) + (if d < 2147483648 then d else d - 4294967296)

/-- The MAC stamp of an instant `age` ago; `none` where it is more than 2.0 s younger than its pair (R441). -/
def State.macStamp (s : State) (age : Ns) : Option Int :=
  if !s.is16C then some ((s.tb : Int) - age)
  else if s.ptp.refAt + 2 * sec + age < s.clk.mono then none
  else some (s.extendRaw ((s.tb - age) % pow32))

/-- STAMP_EXTEND_READ refreshes the pair (R441). -/
def execStampExtendRead (dt : Ns) (s : State) : Host.Outcome State Fault Refusal :=
  event dt (fun s =>
    if s.is16C then { s with ptp.rawRef := s.tb % pow32, ptp.extRef := s.tb, ptp.refAt := s.clk.mono } else s) s

/-! ## Steps and states (R446) -/

/-- The port in use for time, as a unit. -/
def State.timeUnit (s : State) : Nat := portUnit s.ptp.active

/-- What follows once network time has become valid: an RTC that is not valid is loaded, and nights that no clock could
resolve are resolved (R135, R568). -/
def State.noteValidity (s : State) : State :=
  if s.timeValid = s.ptp.validTold then s
  else if !s.timeValid then { s with ptp.validTold := false }
  else
    let known := s.rtc.valid
    let s := { s with ptp.validTold := true, ptp.secondsSet := true, rtc.lastCompare := s.clk.mono
                      rtc.lastError := s.rtcUtc - s.utcNs, rtc.load := s.rtc.load || !known }
    if known then s else s.resolveNights

/-- The time base steps: counted and told (R446). -/
def State.stepTime (s : State) (t : Ns) : State :=
  let d : Int := (t : Int) - s.tb
  let s := (s.setTimeBase t).bump 0x70F7
  { s with ptp.lastStep := s.now }.raise 0x70E2 s.timeUnit (leI 8 d ++ u64 s.now)

/-- An offset as a notice or response carries it. -/
def offset32 (o : Int) : List Byte := leI 4 (clampTo (-2147483648) 2147483647 o)

def TimeState.code : TimeState → Nat
  | .free => 0
  | .locking => 1
  | .locked => 2
  | .holdover => 3
  | .grandmaster => 4

/-- The time state changes (Table 11.6). -/
def State.timeTo (s : State) (new : TimeState) : State :=
  if s.ptp.state = new then s
  else
    let old := s.ptp.state
    let valid := s.timeValid
    let x := { s.ptp with state := new, lockRun := 0, outlierRun := 0, outliers := [] }
    let x := match new with
      | .free => { x with bias := 0, ignore := none }
      | .holdover => { x with holdoverSince := s.clk.mono }
      | .grandmaster => { x with gmValid := valid, secondsSet := x.secondsSet || valid }
      | _ => x
    let s := { s with ptp := x }
    (s.raise 0x70E1 s.timeUnit (u8 old.code ++ u8 new.code ++ u8 (portIx s.ptp.active) ++ u8 0 ++ offset32 s.ptp.offset ++
      u64 s.now)).noteValidity

/-! ## The best master clock (R443, R450) -/

/-- The module's clock identity: its MAC address as an EUI-64 (log entry 36). -/
def State.clockId (s : State) : Nat :=
  let m := s.id.mac.toNat
  m / 2 ^ 24 * 2 ^ 40 + 0xFFFE * 2 ^ 24 + m % 2 ^ 24

/-- clockClass it advertises (R450). -/
def State.ownClass (s : State) : Nat := if s.ptp.secondsSet && s.ppsSteady10 then 6 else 248

/-- A data set as the comparison orders it: lower is better, the first difference decides. -/
def AnnounceMsg.rank (m : AnnounceMsg) : List Nat :=
  [m.priority1, m.clockClass, m.accuracy, m.variance, m.priority2, m.grandmaster.toNat, m.steps, m.source.toNat]

def State.ownRank (s : State) : List Nat :=
  [s.num 0x7023, s.ownClass, Config.ownClock 0, Config.ownClock 1, s.num 0x7024, s.clockId, 0, s.clockId]

/-- Lexicographic order. -/
def lexLt : List Nat → List Nat → Bool
  | a :: as, b :: bs => a < b || (a == b && lexLt as bs)
  | _, _ => false

/-- Data sets heard within announceReceiptTimeout. -/
def State.announced (s : State) : List AnnounceMsg :=
  (s.ptp.heard.filter (fun e => s.clk.mono < e.2.2 + 3 * sec)).map (fun e => e.2.1)

/-- The best of them. -/
def State.bestClock (s : State) : Option AnnounceMsg :=
  match s.announced with
  | [] => none
  | a :: rest =>
    some (rest.foldl (fun (x y : AnnounceMsg) => if lexLt (AnnounceMsg.rank y) (AnnounceMsg.rank x) then y else x) a)

/-- The BMCA selects this module (R450): grandmaster-capable, with PPS_IN (log entry 37), and no better clock heard. -/
def State.selectsSelf (s : State) : Bool :=
  s.num 0x7022 == 1 && s.ptp.ppsEdge.isSome && !s.ptp.ppsMissing &&
    (match s.bestClock with | some m => lexLt s.ownRank (AnnounceMsg.rank m) | none => true)

/-- The BMCA's choice takes effect; a change of the UTC offset in force resolves the night anew (R134). -/
def State.selectMaster (s : State) : State :=
  let before := s.utcOffset
  let self := s.selectsSelf
  let best : Option AnnounceMsg := if self then none else s.bestClock
  let changed := best.map (fun (m : AnnounceMsg) => m.source) != s.ptp.master.map (fun (m : AnnounceMsg) => m.source)
  let x := { s.ptp with master := best, utcAnnounced := best.bind (fun m => if m.utcValid then some m.utcOffset else none) }
  let x := if changed then
      { x with bias := 0, oA := none, oB := none, missed := 0, bothRun := 0, outliers := [], outlierRun := 0, lockRun := 0
               ignore := none }
    else x
  let s := { s with ptp := x }
  let s' := if self && s.ptp.state != TimeState.grandmaster then s.timeTo .grandmaster
    else if !self && s.ptp.state == TimeState.grandmaster then s.timeTo .holdover
    else s
  if s'.utcOffset = before then s' else s'.resolveNights

/-- A PTP message goes on by a port whose link is up (R445). -/
def State.ptpOut (s : State) (o : Port) (kind : Nat) (correction : Int) (seq : BitVec 16) : State :=
  if s.linkUp o then
    { s with out := s.out ++ [Out.ptp o kind correction seq] }.portSends o (frameBytes none (if kind = 11 then 64 else 44))
  else s

/-- ANNOUNCE: kept for the BMCA, and passed on unchanged (R443, R445, R450). -/
def execAnnounce (dt : Ns) (port : Port) (m : AnnounceMsg) (s : State) : Host.Outcome State Fault Refusal :=
  event dt (fun s =>
    if !s.linkUp port then s
    else
    let s := s.portHears port (frameBytes none 64)
    if m.source.toNat = s.clockId then s.ownReturns port
    else if m.domain ≠ s.num 0x7020 then s
    else
      let kept := s.ptp.heard.filter (fun e => !(e.1 == port && e.2.1.source == m.source) && s.clk.mono < e.2.2 + 3 * sec)
      let s := { s with ptp.heard := kept ++ [(port, m, s.clk.mono)] }
      let o := Port.other port
      let s := s.ptpOut o 11 0 0#16
      s.selectMaster) s

/-! ## The servo and the time states (R446–R448) -/

/-- The servo steers the frequency within ±100 ppm; the gains are not stated, so that the frequency is a free value (log entries
3, 34). -/
def State.servo (s : State) : State :=
  let d := s.draw
  { d.2 with ptp.freq := (d.1 % 20000001 : Nat) - 10000000 }

/-- An offset beyond the guard while LOCKED (Table 11.6). -/
def State.outlier (s : State) (o : Int) : State :=
  let s := s.bump 0x70F8
  let run := match s.ptp.outliers with
    | f :: rest => if (o - f).natAbs ≤ 1000 then f :: rest ++ [o] else [o]
    | [] => [o]
  if run.length < s.num 0x7026 then { s with ptp.outliers := run }
  else
    let s := { s with ptp.outliers := [] }
    if o.natAbs ≤ s.num 0x7027 * sec then s.stepTime ((s.tb : Int) - o).toNat
    else { s with ptp.ignore := s.ptp.master.map AnnounceMsg.source }.timeTo .holdover

/-- The active port's offset reaches the servo (Table 11.6). -/
def State.feedServo (s : State) (o : Int) : State :=
  let s := { s with ptp.offset := o }
  let big := s.num 0x7025 < o.natAbs
  match s.ptp.state with
  | .free => (s.stepTime ((s.tb : Int) - o).toNat).timeTo .locking
  | .locking =>
    if big then
      let n := s.ptp.outlierRun + 1
      if s.num 0x7026 ≤ n then { s with ptp.outlierRun := 0, ptp.lockRun := 0 }.stepTime ((s.tb : Int) - o).toNat
      else { s with ptp.outlierRun := n, ptp.lockRun := 0 }
    else
      let n := if o.natAbs ≤ s.num 0x7028 then s.ptp.lockRun + 1 else 0
      let s := { s with ptp.outlierRun := 0, ptp.lockRun := n }.servo
      if 16 ≤ n then s.timeTo .locked else s
  | .locked => if big then s.outlier o else { s with ptp.outliers := [] }.servo
  | .holdover => if big then s else s.servo.timeTo .locked
  | .grandmaster => s

/-- The active port changes (R447). -/
def State.switchPort (s : State) (p : Port) : State := { s with ptp.active := p, ptp.missed := 0 }.bump 0x70F9

/-- ptp.time_port. -/
def State.preferredPort (s : State) : Port := if s.num 0x702A = 1 then .B else .A

/-- The path bias b to the nearest ns; it is kept in 2⁻³² ns. -/
def State.biasNs (s : State) : Int := nearDiv s.ptp.bias 4294967296

/-- A usable Sync's offset on a port (R447, R448): path bias, missed Syncs, the runs of intervals, and the servo. -/
def State.usableSync (s : State) (p : Port) (seq : BitVec 16) (o : Int) (interval : Ns) : State :=
  let x := s.ptp
  let mine := if p = .A then x.oA else x.oB
  let other := if p = .A then x.oB else x.oA
  let pair := (other.map Prod.fst) == some seq
  let onward := mine.map Prod.fst == other.map Prod.fst && mine.map (fun e => e.1 + 1#16) == some seq
  let both : Nat := if pair then x.bothRun + 1 else if onward then x.bothRun else 0
  let bias := match other with
    | some e => if e.1 = seq then
        (let d := if p = .A then e.2 - o else o - e.2
         x.bias + (d * 4294967296 - x.bias) / 16)
      else x.bias
    | none => x.bias
  let missed : Nat := if p = x.active then 0 else if pair then x.missed else x.missed + 1
  let s := { s with
    ptp := { x with oA := if p = .A then some (seq, o) else x.oA, oB := if p = .B then some (seq, o) else x.oB
                    bothRun := both, bias := bias, missed := missed, interval := interval, lastSync := some s.clk.mono
                    lastA := if p = .A then some s.clk.mono else x.lastA
                    lastB := if p = .B then some s.clk.mono else x.lastB } }
  let s : State := if p ≠ s.ptp.active ∧ 2 ≤ missed then s.switchPort p else s
  let s := if s.ptp.active != s.preferredPort && decide (16 ≤ both) then s.switchPort s.preferredPort else s
  if p = s.ptp.active then s.feedServo (if p = .B then o - s.biasNs else o) else s

/-- The module takes an offset from the selected master's Sync on a port with valid peer delay (R440, R446). -/
def State.takeOffset (s : State) (p : Port) (master : BitVec 64) (seq : BitVec 16) (t1 corr ingress : Int)
    (interval : Ns) : State :=
  let r := s.port p
  let selected := (s.ptp.master.map (fun m => m.source)) == some master && s.ptp.ignore != some master
  if !selected || !r.delayValid || s.ptp.state == TimeState.grandmaster then s
  else if t1 < 0 then s.bump 0x70F8
  else s.usableSync p seq (ingress - (t1 + corr + r.delay + s.int 0x7084 (portIx p))) interval

/-- A Sync on a port: forwarded as transparent clock, and used (R445, R446). -/
def State.syncArrives (s : State) (p : Port) (m : SyncMsg) : State :=
  if !s.linkUp p then s
  else
  let s := s.portHears p (frameBytes none 44)
  if m.master.toNat = s.clockId then s.ownReturns p
  else if m.domain ≠ s.num 0x7020 then s
  else match s.macStamp m.age with
    | none => s.bump 0x70FC
    | some raw =>
      let r := s.port p
      let o := Port.other p
      let ingress := raw - (s.latency p).2
      let residence := (s.tb : Int) + (s.latency o).1 - ingress
      let t1 := ptpStamp m.seconds m.nanos
      if !r.delayValid then s.bump 0x70FB
      else
        let pass (s : State) (corr : Int) : State := s.ptpOut o 0 corr m.sequence
        if m.twoStep then
          let h : HeldSync :=
            { port := p, master := m.master, seq := m.sequence, sum := residence + r.delay, corr := m.correction
              ingress := ingress, at_ := s.clk.mono }
          pass { s with ptp.held := lastN 16 (s.ptp.held ++ [h]), ptp.interval := m.interval } m.correction
        else
          (pass s (m.correction + residence + r.delay)).takeOffset p m.master m.sequence t1 m.correction ingress m.interval

/-- SYNC (R445, R446). -/
def execSync (dt : Ns) (port : Port) (m : SyncMsg) (s : State) : Host.Outcome State Fault Refusal :=
  event dt (fun s => s.syncArrives port m) s

/-- FOLLOW_UP: forwarded with the held sum; without one unchanged, and counted (R445). -/
def State.followUp (s : State) (p : Port) (m : FollowUpMsg) : State :=
  if !s.linkUp p then s
  else
    let s := s.portHears p (frameBytes none 44)
    let o := Port.other p
    let pass (s : State) (corr : Int) : State := s.ptpOut o 8 corr m.sequence
    if m.master.toNat = s.clockId then s.ownReturns p
    else if m.domain ≠ s.num 0x7020 then s
    else
    let here (h : HeldSync) : Bool := h.port == p && h.master == m.master && h.seq == m.sequence
    match s.ptp.held.find? here with
    | none => pass (s.bump 0x70FA) m.correction
    | some h =>
      (pass { s with ptp.held := s.ptp.held.filter (fun x => !here x) } (m.correction + h.sum)).takeOffset p m.master
        m.sequence (ptpStamp m.seconds m.nanos) (h.corr + m.correction) h.ingress s.ptp.interval

/-- FOLLOW_UP (R445). -/
def execFollowUp (dt : Ns) (port : Port) (m : FollowUpMsg) (s : State) : Host.Outcome State Fault Refusal :=
  event dt (fun s => s.followUp port m) s

/-- FOLLOW_UP_HOLD_EXPIRY (R445). -/
def execFollowUpHoldExpiry (dt : Ns) (s : State) : Host.Outcome State Fault Refusal :=
  event dt (fun s => { s with ptp.held := s.ptp.held.filter (fun h => s.clk.mono < h.at_ + sec) }) s

/-- SYNC_MISS_TIMEOUT: no usable Sync for 3 sync intervals (Table 11.6). -/
def execSyncMissTimeout (dt : Ns) (s : State) : Host.Outcome State Fault Refusal :=
  event dt (fun s =>
    let s := s.selectMaster
    let due : Bool := match s.ptp.lastSync with
      | some t => decide (t + 3 * s.ptp.interval ≤ s.clk.mono)
      | none => true
    if s.ptp.state = .locked ∧ due then s.timeTo .holdover else s) s

/-- HOLDOVER_TIMEOUT (Table 11.6). -/
def execHoldoverTimeout (dt : Ns) (s : State) : Host.Outcome State Fault Refusal :=
  event dt (fun s =>
    if s.ptp.state = .holdover ∧ s.ptp.holdoverSince + s.num 0x7029 * sec ≤ s.clk.mono then s.timeTo .free else s) s

/-! ## Peer delay (R444) -/

/-- An exchange fails: the third in a row makes peer delay invalid. -/
def RingPort.delayFails (r : RingPort) (mono : Ns) : RingPort :=
  let n := r.failRun + 1
  let r := { r with failRun := n, okRun := 0, asked := false }
  if n < 3 then r
  else { r with delayValid := false, delays := [], delayInvalidSince := if r.delayValid then mono else r.delayInvalidSince }

/-- An exchange gives a delay: kept in the mean of the last 8, or discarded beyond 100 ns of it, as one that failed (log entry
38). -/
def RingPort.delayGiven (r : RingPort) (mono : Ns) (d : Ns) (ratio : Int) : RingPort :=
  if !r.delays.isEmpty && 100 < max d r.delay - min d r.delay then r.delayFails mono
  else
    let l := lastN 8 (r.delays ++ [d])
    { r with asked := false, okRun := r.okRun + 1, failRun := 0, delays := l, delay := sumOf l / l.length, ratio := ratio
             delayValid := r.delayValid || decide (3 ≤ r.okRun + 1) }

/-- PEER_DELAY_EXCHANGE, once per second; a request still unanswered has failed (R444). -/
def execPeerDelayExchange (dt : Ns) (port : Port) (s : State) : Host.Outcome State Fault Refusal :=
  event dt (fun s =>
    let r := s.port port
    if !s.linkUp port || (r.askedAt != 0 && decide (s.clk.mono < r.askedAt + sec)) then s
    else
      let r := if r.asked then r.delayFails s.clk.mono else r
      { s.setPort port { r with asked := true, askedAt := s.clk.mono } with
        out := s.out ++ [Out.peerDelayRequest port] }.portSends port (frameBytes none 54)) s

/-- PEER_DELAY_MESSAGE (R444). -/
def execPeerDelayMessage (dt : Ns) (port : Port) (m : PeerDelayMsg) (s : State) : Host.Outcome State Fault Refusal :=
  event dt (fun s =>
    if !s.linkUp port then s
    else
    let s := s.portHears port (frameBytes none 54)
    match m with
      | .request seq => { s with out := s.out ++ [Out.peerDelayResponse port seq] }.portSends port (frameBytes none 54)
      | .response _ d ratio =>
        let r := s.port port
        if r.asked then s.setPort port (r.delayGiven s.clk.mono d ratio) else s) s

/-! ## TIME_STATUS, TIME_SEED, PPS_IN (R450, R451, R610) -/

def timeStatusBody (_ : Req) (s : State) : Result :=
  let x := s.ptp
  let gm := x.state == TimeState.grandmaster
  let identity := if gm then be 8 s.clockId else match x.master with | some m => be 8 m.grandmaster.toNat | none => zeros 8
  let steps := if gm then 0 else match x.master with | some m => m.steps + 1 | none => 0
  let cls := if gm then s.ownClass else match x.master with | some m => m.clockClass | none => 0
  let held := if x.state = .holdover then (s.clk.mono - x.holdoverSince) / sec else 0
  ok (u64 s.now ++ u8 x.state.code ++ u8 (portIx x.active) ++
    u8 (bit s.timeValid + 2 * bit s.ppsSteady10 + 4 * bit x.utcAnnounced.isSome) ++ u8 0 ++ leI 2 s.utcOffset ++ u16 0 ++
    offset32 x.offset ++ leI 4 x.freq ++ offset32 s.biasNs ++ identity ++ u16 steps ++ u8 cls ++ u8 0 ++ u64 x.lastStep ++
    u32 held ++ u32 0) s

def timeStatusCommand : Command :=
  { opcode := 0x7010, access := .holder, firstLane := 1, layout := isEmpty, body := timeStatusBody }

/-- TIME_STATUS (Table 11.10). -/
def execTimeStatus (r : Req) (s : State) : Host.Outcome State Fault Refusal := shotas timeStatusCommand r s

/-- A seed takes effect: a step, if it moves the time base (R451). -/
def State.seedTime (s : State) (t : Ns) : State :=
  let s := if s.tb = t then s else s.stepTime t
  { s with ptp.secondsSet := true }.noteValidity

def timeSeedBody (r : Req) (s : State) : Result :=
  let t := fld r.payload 0 8
  if t = 0 ∨ t % sec ≠ 0 then fail stRange s
  else if !(s.ptp.state == TimeState.free || (s.ptp.state == TimeState.grandmaster && !s.ptp.secondsSet)) then fail stState s
  else if s.num 0x7022 = 1 ∧ s.ptp.ppsEdge.isSome ∧ !s.ptp.ppsMissing then
    .wait { s with ptp.seed := some t, ptp.seedWaiters := s.ptp.seedWaiters ++ [(r.src.endpoint, r.lane.toNat)] }
  else .done stOk (u64 t) (s.seedTime t)

def timeSeedCommand : Command :=
  { opcode := 0x7011, access := .holder, firstLane := 1, layout := exactly 8, body := timeSeedBody }

/-- TIME_SEED (R451). -/
def execTimeSeed (r : Req) (s : State) : Host.Outcome State Fault Refusal := shotas timeSeedCommand r s

/-- An accepted edge of PPS_IN (R610): the first, or one second after the last to within 100 µs. -/
def State.ppsAccepts (s : State) : Bool :=
  match s.ptp.ppsEdge with
  | none => true
  | some t => s.ptp.ppsMissing || (t + sec ≤ s.clk.mono + 100000 && s.clk.mono ≤ t + sec + 100000)

/-- As grandmaster the module queues the coming second's Syncs and its Announce (R437, R443; log entry 35). -/
def State.announceSelf (s : State) : State :=
  let n := 2 ^ (-(s.int 0x7021)).toNat
  let s := (List.range n).foldl (fun s i => s.launch true (s.tb + i * (sec / n)) (sec / n) .group 0x88F7#16 false [0#8]) s
  s.launch true s.tb sec .group 0x88F7#16 false [0x0B#8]

/-- The edge sets the second boundary of the time base (R450): a correction beyond ptp.step_guard_ns is a step (log entry 37). -/
def State.ppsAlign (s : State) : State :=
  let t := (s.tb + sec / 2) / sec * sec
  if s.tb = t then s
  else if s.num 0x7025 < max s.tb t - min s.tb t then s.stepTime t
  else s.setTimeBase t

/-- A seed that waits takes effect at this edge, and its commands are answered. -/
def State.ppsSeed (s : State) : State :=
  match s.ptp.seed with
  | none => if s.ptp.state = .grandmaster then s.ppsAlign else s
  | some t =>
    let waiters := s.ptp.seedWaiters
    let s := { s with ptp.seed := none, ptp.seedWaiters := [] }.seedTime t
    waiters.foldl (fun s w => s.finish w.1 w.2 stOk (u64 t)) s

/-- PPS_IN_EDGE (R450, R610). -/
def execPpsInEdge (dt : Ns) (highNs : Ns) (s : State) : Host.Outcome State Fault Refusal :=
  event dt (fun s =>
    if highNs < 1000 || !s.ppsAccepts then s
    else
      let first := s.ptp.ppsEdge.isNone || s.ptp.ppsMissing
      let s := { s with ptp.ppsEdge := some s.clk.mono, ptp.ppsMissing := false
                        ptp.ppsSteady := if first then some s.clk.mono else s.ptp.ppsSteady }
      let s := s.ppsSeed.selectMaster.noteValidity
      if s.ptp.state = .grandmaster then s.announceSelf else s) s

/-- PPS_IN_MISSING: 3 s without an accepted edge (R610, Table 11.6). -/
def execPpsInMissing (dt : Ns) (s : State) : Host.Outcome State Fault Refusal :=
  event dt (fun s =>
    let due : Bool := match s.ptp.ppsEdge with | some t => decide (t + 3 * sec ≤ s.clk.mono) | none => true
    if s.ptp.ppsMissing || !due then s
    else
      let gm := s.ptp.state == TimeState.grandmaster
      let s := { s with ptp.ppsMissing := true, ptp.ppsSteady := none }
      if gm then s.timeTo .holdover else s) s

end Sys2Proof.Machine
end

