-- ==== Sys2Proof/Machine/Recorder.lean ====
section
/-!
DEFINITION. The event recorder's writing, mirror and reading (R481–R492, R625), the performance counters' samples (R493–R499)
and the window meters (R500), with the commands of groups 0x80 and 0x84.
-/

namespace Sys2Proof.Machine

/-! ## Writing (R485–R490) -/

/-- The record is of the pinned region. -/
def RecEntry.pinned (r : RecEntry) : Bool := hasBit r.flags 1

/-- A record takes the next sequence, unless it has one, and is counted by class (Table 13.1, ev.class_count). -/
def State.numberRecord (s : State) (r : RecEntry) : RecEntry × State :=
  if r.numbered then (r, s)
  else ({ r with seq := s.ev.seq, numbered := true },
    { s with ev.seq := (s.ev.seq + 1) % pow32 }.bump 0x8082 (recClass r.event))

/-- Copy to the mirror, which holds the newest 65,536 records (R488). -/
def State.mirrorPut (s : State) (r : RecEntry) : State := { s with ev.mirror := lastN 65536 (s.ev.mirror ++ [r]) }

/-- A record waits for the mirror, unless it is there already. -/
def State.mirrorWait (s : State) (r : RecEntry) : State :=
  if s.ev.mirror.any (fun m => m.seq == r.seq) then s
  else { s with ev.unmirrored := s.ev.unmirrored ++ [r], ev.mirrorSince := some (s.ev.mirrorSince.getD s.clk.mono) }

/-- A record enters its region, over the oldest record of a full one (R481, R485). -/
def State.regionPut (s : State) (r : RecEntry) : State :=
  if r.pinned then
    let full := decide (4096 ≤ s.ev.pinned.length)
    let s := if full then s.bump 0x80F2 else s
    { s with ev.gonePinned := s.ev.gonePinned ++ (if full then (s.ev.pinned.take 1).map (fun x => x.seq) else [])
             ev.pinned := lastN 4096 (s.ev.pinned ++ [r]), ev.headPinned := s.ev.headPinned + s.ev.failRun + 1 }
  else
    let full := decide (61440 ≤ s.ev.general.length)
    { s with ev.goneGeneral := s.ev.goneGeneral ++ (if full then (s.ev.general.take 1).map (fun x => x.seq) else [])
             ev.general := lastN 61440 (s.ev.general ++ [r]), ev.headGeneral := s.ev.headGeneral + s.ev.failRun + 1 }

/-- A record is written to the MRAM, read back, and the head advances (R488). -/
def State.toMram (s : State) (r : RecEntry) : State :=
  let n := s.numberRecord r
  let s := (n.2.regionPut n.1).mirrorWait n.1
  { s with ev.failRun := 0 }

/-- The MRAM offset of the place a region's next write tries: the general region comes first, 64 bytes a place. -/
def State.mramPlace (s : State) (pinned : Bool) : Nat :=
  if pinned then 64 * (61440 + (s.ev.headPinned + s.ev.failRun) % 4096)
  else 64 * ((s.ev.headGeneral + s.ev.failRun) % 61440)

/-- Data of a RECORDER_FAULT (Table 13.3). -/
def State.recorderFault (s : State) (cause : Nat) (pinned : Bool) : List Byte :=
  u8 cause ++ u8 (bit pinned) ++ u16 0 ++ u32 (s.counter 0x80F0) ++ u32 (s.mramPlace pinned)

/-- The recorder's own record of an event, made at this instant past the queue; `none` where its class is not enabled
(R484). -/
def State.ownRecord (s : State) (event : Nat) (data : List Byte) : Option RecEntry :=
  let t := { s with ev.queue := [] }.record event 0x11 data
  t.ev.queue.head?

/-- Write what waits for the mirror there, and a RECORDER_FAULT to the mirror and to the last-gasp ring (R489). -/
def State.faultTo (s : State) (cause : Nat) (pinned mirrorOk : Bool) : State :=
  match s.ownRecord 0x8001 (s.recorderFault cause pinned) with
  | none => s
  | some r =>
    let n := { s with ev.made := s.ev.made + 1 }.numberRecord r
    (if mirrorOk then n.2.mirrorPut n.1 else n.2).toLastGasp n.1

/-- The mirror takes what waits for it. -/
def State.mirrorDrain (s : State) : State :=
  { s.ev.unmirrored.foldl State.mirrorPut s with ev.unmirrored := [], ev.mirrorSince := none }

/-- The mirror cannot be programmed either (R489). -/
def State.mirrorFails (s : State) (pinned : Bool) : State :=
  { s with ev.state := 2 }.faultTo 2 pinned false

/-- Three failed readbacks in a row: the recorder stops writing to MRAM (R489). -/
def State.mramFails (s : State) (pinned mirrorOk : Bool) : State :=
  let up := mirrorOk && s.pwr.state != .lastGasp
  let s := if up then s.mirrorDrain else s
  let s := { s with ev.state := 1, ev.lastRetry := s.clk.mono }.faultTo 1 pinned up
  let s := { s with ev.failRun := 0 }
  if mirrorOk then s else s.mirrorFails pinned

/-- A record while ev.state is not 0: to the mirror, or to the last-gasp ring alone (R489). The mirror stops in LAST-GASP. -/
def State.toMirror (s : State) (r : RecEntry) (mirrorOk : Bool) : State :=
  let s := if s.ev.state = 1 ∧ !mirrorOk then s.mirrorFails r.pinned else s
  let n := s.numberRecord r
  if s.ev.state = 1 ∧ s.pwr.state ≠ .lastGasp then n.2.mirrorPut n.1 else n.2.toLastGasp n.1

/-- Once the queue has room again, its overflow is recorded (R489 cause 3). -/
def State.tellOverflow (s : State) : State :=
  if s.ev.overflow = 0 ∨ 256 ≤ s.ev.queue.length then s
  else { s with ev.overflow := 0 }.record 0x8001 0x11 (s.recorderFault 3 false)

/-- The record that is written next while the MRAM works: the older of the queue's and the last-gasp ring's first (R486,
R490); `true` where it is the ring's. -/
def State.nextRecord (s : State) : Option (RecEntry × Bool) :=
  match s.ev.queue, s.ev.lastGasp with
  | q :: _, g :: _ => some (if g.order < q.order then (g, true) else (q, false))
  | q :: _, [] => some (q, false)
  | [], g :: _ => some (g, true)
  | [], [] => none

/-- Take the first record of the queue, or of the last-gasp ring. -/
def State.dropRecord (s : State) (gasp : Bool) : State :=
  if gasp then { s with ev.lastGasp := s.ev.lastGasp.drop 1 } else { s with ev.queue := s.ev.queue.drop 1 }

/-- RECORDER_WRITE: one attempt to write one record. -/
def State.writeRecord (s : State) (readbackOk mirrorOk : Bool) : State :=
  if s.ev.state ≠ 0 then
    match s.ev.queue with
    | [] => s
    | r :: _ => ((s.dropRecord false).toMirror r mirrorOk).tellOverflow
  else match s.nextRecord with
    | none => s
    | some (r, gasp) =>
      if readbackOk then ((s.dropRecord gasp).toMram r).tellOverflow
      else
        let s := { s.bump 0x80F3 with ev.failRun := s.ev.failRun + 1 }
        if s.ev.failRun < 3 then s else s.mramFails r.pinned mirrorOk

/-- RECORDER_WRITE (R486–R490). -/
def execRecorderWrite (dt : Ns) (readbackOk mirrorOk : Bool) (s : State) : Host.Outcome State Fault Refusal :=
  event dt (fun s => s.writeRecord readbackOk mirrorOk) s

/-- The record stands in its region still. -/
def State.inRegion (s : State) (r : RecEntry) : Bool :=
  (if r.pinned then s.ev.pinned else s.ev.general).any (fun x => x.seq == r.seq)

/-- The mirror catches up from the MRAM, oldest first; what the MRAM has overwritten is missing and counted as dropped (R625). -/
def State.mirrorCatchUp (s : State) : State :=
  let kept := s.ev.unmirrored.filter s.inRegion
  let lost := s.ev.unmirrored.length - kept.length
  let s := ({ s with ev.unmirrored := kept }.mirrorDrain).bump 0x80F0 0 lost
  if s.ev.mirrorBehind then
    { s with ev.mirrorBehind := false }.record 0x8002 0x11 (u8 0 ++ zeros 3 ++ u32 kept.length)
  else s

/-- MIRROR_COPY: none in LAST-GASP (R488); a mirror that cannot be programmed falls behind (R625). -/
def State.mirrorCopy (s : State) (ok : Bool) : State :=
  if s.ev.state ≠ 0 ∨ s.pwr.state = .lastGasp ∨ s.ev.unmirrored.isEmpty then s
  else if ok then s.mirrorCatchUp
  else if s.ev.mirrorBehind then s
  else { s with ev.mirrorBehind := true }.record 0x8001 0x11 (s.recorderFault 2 false)

/-- MIRROR_COPY (R488, R625). -/
def execMirrorCopy (dt : Ns) (ok : Bool) (s : State) : Host.Outcome State Fault Refusal :=
  event dt (fun s => s.mirrorCopy ok) s

/-- MRAM_RETRY, every 60 s while the recorder does not write the MRAM: the last-gasp ring drains into it (R489, R490). -/
def State.mramRetry (s : State) (readbackOk : Bool) : State :=
  if s.ev.state = 0 ∨ s.clk.mono < s.ev.lastRetry + 60 * sec then s
  else if !readbackOk then { s.bump 0x80F3 with ev.lastRetry := s.clk.mono }
  else
    let ring := s.ev.lastGasp
    let was := s.ev.state
    let s := ring.foldl State.toMram { s with ev.lastGasp := [] }
    { s with ev.state := 0, ev.failRun := 0 }.record 0x8002 0x11 (u8 was ++ zeros 3 ++ u32 ring.length)

/-- MRAM_RETRY (R489). -/
def execMramRetry (dt : Ns) (readbackOk : Bool) (s : State) : Host.Outcome State Fault Refusal :=
  event dt (fun s => s.mramRetry readbackOk) s

/-! ## Reading (R491, R492) -/

/-- `a` is at or after `b`, modulo 2³². -/
def seqFrom (b a : Nat) : Bool := decide ((a + pow32 - b % pow32) % pow32 < 2147483648)

/-- The records a read of a region sees: the region, or the mirror's part of it (R492). -/
def State.readable (s : State) (pinned : Bool) : List RecEntry :=
  if s.ev.state ≠ 0 then s.ev.mirror.filter (fun r => r.pinned == pinned)
  else if pinned then s.ev.pinned else s.ev.general

def recReadBody (r : Req) (s : State) : Result :=
  let region := fld r.payload 0 1
  let count := fld r.payload 2 2
  let start := fld r.payload 4 4
  if 1 < region ∨ count = 0 ∨ 22 < count then fail stRange s
  else
    let pinned := region == 1
    let oldestAsked := start == 0xFFFFFFFF
    let all := (s.readable pinned).filter (fun x => oldestAsked || seqFrom start x.seq)
    let page := all.take count
    let gone := if pinned then s.ev.gonePinned else s.ev.goneGeneral
    let skipped := if oldestAsked then 0 else (gone.filter (seqFrom start)).length
    let next := match page.getLast? with
      | some x => (x.seq + 1) % pow32
      | none => start
    ok (u16 page.length ++ u8 (bit (all.length ≤ count) + 2 * bit (s.ev.state != 0)) ++ u8 0 ++ u32 skipped ++ u32 next ++
      u32 0 ++ (page.map recordBytes).flatten) (s.bump 0x80F1 0 (page.countP (fun x => x.badCrc.isSome)))

def recReadCommand : Command :=
  { opcode := 0x8001, access := .holder, firstLane := 1, layout := exactly 8, body := recReadBody }

/-- REC_READ (R491, R492). -/
def execRecRead (r : Req) (s : State) : Host.Outcome State Fault Refusal := shotas recReadCommand r s

/-- Oldest and newest sequence and number of a region's records. -/
def regionStatus (l : List RecEntry) : List Byte :=
  u32 ((l.head?.map (fun r => r.seq)).getD 0) ++ u32 ((l.getLast?.map (fun r => r.seq)).getD 0) ++ u32 l.length

def recStatusBody (_ : Req) (s : State) : Result :=
  ok (u64 s.now ++ u8 s.ev.state ++ u8 s.ev.lastGasp.length ++ u16 0 ++ regionStatus s.ev.general ++
    regionStatus s.ev.pinned ++ u32 0) s

def recStatusCommand : Command :=
  { opcode := 0x8002, access := .holder, firstLane := 1, layout := isEmpty, body := recStatusBody }

/-- REC_STATUS (Table 13.6). -/
def execRecStatus (r : Req) (s : State) : Host.Outcome State Fault Refusal := shotas recStatusCommand r s

/-! ## Performance counters (R493–R499) -/

/-- A level event of Table 13.4. -/
def perfIsLevel (event : Nat) : Bool := [0x0003, 0x0012, 0x0013, 0x0041, 0x0061, 0x0070].contains event

/-- An event that names an engine (Table 13.4). -/
def perfOfEngine (event : Nat) : Bool := [0x0001, 0x0002, 0x0003].contains event

/-- A counter's entry of PERF_READ; the stamp is that of its own read (R497). -/
def State.perfEntry (s : State) (c : Nat) : List Byte :=
  let event := s.num 0x8480 c
  u8 c ++ u8 (bit (perfIsLevel event) + 2 * bit (s.flag 0x8483 c)) ++ u16 event ++ u64 (cget s.perf.values c) ++ u64 s.now

def perfReadBody (r : Req) (s : State) : Result :=
  let first := fld r.payload 0 1
  let count := fld r.payload 1 1
  if count = 0 ∨ 64 < count ∨ 64 < first + count then fail stRange s
  else ok (u16 count ++ u16 0 ++ ((List.range count).map (fun i => s.perfEntry (first + i))).flatten) s

def perfReadCommand : Command :=
  { opcode := 0x8401, access := .holder, firstLane := 1, layout := exactly 4, body := perfReadBody }

/-- PERF_READ (R497). -/
def execPerfRead (r : Req) (s : State) : Host.Outcome State Fault Refusal := shotas perfReadCommand r s

/-- A sample's entry of PERF_SAMPLES. -/
def PerfSampleRec.bytes (p : PerfSampleRec) : List Byte :=
  u8 p.counter ++ u8 p.capture.engine ++ u8 p.capture.graph ++ u8 0 ++ u16 p.capture.node ++ u16 p.capture.flow ++
    u32 p.capture.operation ++ u64 p.stamp ++ u32 0

def perfSamplesBody (r : Req) (s : State) : Result :=
  let count := fld r.payload 0 2
  if count = 0 ∨ 60 < count then fail stRange s
  else
    let taken := s.perf.samples.take count
    ok (u16 taken.length ++ u16 0 ++ (taken.map PerfSampleRec.bytes).flatten) { s with perf.samples := s.perf.samples.drop count }

def perfSamplesCommand : Command :=
  { opcode := 0x8402, access := .holder, firstLane := 1, layout := exactly 4, body := perfSamplesBody }

/-- PERF_SAMPLES (R498). -/
def execPerfSamples (r : Req) (s : State) : Host.Outcome State Fault Refusal := shotas perfSamplesCommand r s

/-- A counter's sample is due: its count has advanced by its period since the sample before (R498). -/
def State.sampleDue (s : State) (c : Nat) : Bool :=
  s.num 0x8482 c != 0 && s.num 0x8480 c != 0 && !perfIsLevel (s.num 0x8480 c) && s.num 0x8482 c ≤ cget s.perf.sinceSample c

/-- PERF_SAMPLE: the module keeps 256; for an event that is no engine's the engine field is 0xFF (R498). -/
def State.perfSample (s : State) (c : Nat) (k : SampleCapture) : State :=
  if !s.sampleDue c then s
  else
    let s := { s with perf.sinceSample := cput s.perf.sinceSample c (cget s.perf.sinceSample c - s.num 0x8482 c) }
    if 256 ≤ s.perf.samples.length then s.bump 0x84F0
    else
      let k := if perfOfEngine (s.num 0x8480 c) then k else { k with engine := 0xFF }
      { s with perf.samples := s.perf.samples ++ [{ counter := c, capture := k, stamp := s.now }] }

/-- PERF_SAMPLE (R498). -/
def execPerfSample (dt : Ns) (counter : Nat) (capture : SampleCapture) (s : State) : Host.Outcome State Fault Refusal :=
  event dt (fun s => s.perfSample counter capture) s

/-! ## Window meters (R500) -/

/-- The next boundary of a meter: of its window in force, or of a window that has been committed and takes effect there. -/
def WindowMeter.boundary (w : WindowMeter) (committed tb : Nat) : Option (Nat × Bool) :=
  let own := (w.windowStart / (w.window * ms) + 1) * (w.window * ms)
  if committed ≠ w.window then
    let new := (w.windowStart / (committed * ms) + 1) * (committed * ms)
    if new ≤ tb ∧ new ≤ own then some (new, true) else if own ≤ tb then some (own, false) else none
  else if own ≤ tb then some (own, false) else none

/-- A window closes. Only a window that began on a boundary of its own length is a full one. -/
def WindowMeter.close (w : WindowMeter) (at_ : Ns) (stamp mono : Ns) : WindowMeter :=
  let full := w.windowStart % (w.window * ms) == 0
  { w with
    bytes := 0, windowStart := at_, valid := w.valid || full
    last := if full then w.bytes else w.last
    windowEnd := if full then stamp else w.windowEnd
    windows := (if full then w.windows ++ [(mono, w.bytes)] else w.windows).filter (fun e => mono < e.1 + 60 * sec) }

/-- WINDOW_METER_BOUNDARY of a meter. -/
def State.meterBoundary (s : State) (m : Nat) : State :=
  let committed := s.num 0x8492 m
  { s with perf.meters := lmod s.perf.meters m (fun w =>
      match w.boundary committed s.tb with
      | none => w
      | some (at_, change) =>
        let w := w.close at_ (if s.timeValid then at_ else 0) s.clk.mono
        if change then { w with window := committed, valid := false } else w) }

/-- WINDOW_METER_BOUNDARY (R500). -/
def execWindowMeterBoundary (dt : Ns) (meter : Nat) (s : State) : Host.Outcome State Fault Refusal :=
  event dt (fun s => s.meterBoundary meter) s

/-- A meter's entry of WMETER_READ; the peak is the largest window that ended in the last 60 s. -/
def State.wmeterEntry (s : State) (m : Nat) (w : WindowMeter) : List Byte :=
  let peak := maxOf ((w.windows.filter (fun e => s.clk.mono < e.1 + 60 * sec)).map Prod.snd)
  u8 m ++ u8 (s.num 0x8490 m) ++ u8 (s.num 0x8491 m) ++ u8 (bit w.valid) ++ u32 w.window ++ u64 w.last ++ u64 w.windowEnd ++
    u64 peak

def wmeterReadBody (_ : Req) (s : State) : Result :=
  ok (u16 16 ++ u16 0 ++ (s.perf.meters.mapIdx s.wmeterEntry).flatten) s

def wmeterReadCommand : Command :=
  { opcode := 0x8403, access := .holder, firstLane := 1, layout := isEmpty, body := wmeterReadBody }

/-- WMETER_READ (R500). -/
def execWmeterRead (r : Req) (s : State) : Host.Outcome State Fault Refusal := shotas wmeterReadCommand r s

end Sys2Proof.Machine
end

