-- ==== Sys2Proof/Machine/Update.lean ====
section
/-!
DEFINITION. Images, firmware slots, the Grand Chain, the card and arming (R533–R560), with the commands of group 0x98; and the
responses and resends of the module's own peer messages (R210, R541).
-/

namespace Sys2Proof.Machine

/-! ## Images (R533–R537) -/

/-- UPDATE_STATE (Table 15.6). -/
def State.updateState (s : State) (kind event id : Nat) : State :=
  s.raise 0x98E0 0x00 (u8 kind ++ u8 event ++ u16 0 ++ u32 id ++ u64 s.now)

def Image.epoch (i : Image) : Nat := fld i.header 32 4

/-- All payload bytes are held. -/
def Image.complete (i : Image) : Bool := i.length ≤ i.payload.length

/-- The largest file of a kind (Table 15.1). -/
def maxFile (kind : Nat) : Nat := if kind = 0 then 33554432 else if kind = 5 then 1048576 else 4194240

/-- The inactive firmware slot. -/
def State.inactive (s : State) : FirmwareSlot :=
  (s.up.slots[1 - s.up.active]?).getD { state := 0, image := { header := [], payload := [], accepted := false } }

def State.setInactive (s : State) (x : FirmwareSlot) : State := { s with up.slots := lset s.up.slots (1 - s.up.active) x }

/-- The firmware that runs. -/
def State.running_ (s : State) : Image :=
  ((s.up.slots[s.up.active]?).map (fun x => x.image)).getD { header := [], payload := [], accepted := false }

/-- Accepted images: the store's, and those of VERIFIED firmware slots. -/
def State.held (s : State) : List Image :=
  (s.up.slots.filter (fun x => x.state == 1)).map (fun x => x.image) ++ s.up.images

/-- The slots whose key check 2 takes: those of up.key_slot that hold a key with the header's check value. -/
def State.imageKeys (s : State) (h : List Byte) : List Nat :=
  [s.num 0x9801, s.num 0x9801 + 1].filter (fun i => (s.slot i).rec_.type != 0 && (s.slot i).rec_.kcv == slice h 24 4)

/-- Checks 1 to 4 of R535, in order: the number of the first that fails. -/
def State.headerCheck (s : State) (h : List Byte) : Option Nat × State :=
  let kind := fld h 5 1
  let target := hasBit (fld h 28 1) (if s.is16C then 1 else 0)
  if fld h 0 4 ≠ 0x4D494B56 ∨ fld h 4 1 ≠ 1 ∨ 5 < kind ∨ maxFile kind < 192 + fld h 20 4 ∨
      ((kind = 0 ∨ kind = 5) ∧ !target) then (some 1, s)
  else match (s.imageKeys h).find? (fun i => s.keyUsable i 2) with
    | none => (some 2, (s.imageKeys h).foldl (fun s i => (s.invoke i 2).2) s)
    | some i =>
      if !Config.ed25519 (s.slot i).rec_.key (h.take 128) (slice h 128 64) then (some 3, s)
      else if fld h 32 4 < s.num 0x9880 kind then (some 4, s) else (none, s)

/-- An image fails a check (R535). -/
def State.imageFailed (s : State) (kind id : Nat) : State := (s.bump 0x98F0).updateState kind 2 id

/-- Firmware stands ARMED (Table 15.3). -/
def State.firmwareArmed (s : State) : Bool := s.switchAt.isSome

/-- Room in the image store for one more image of a kind (Table 15.1). -/
def State.storeRoom (s : State) (kind : Nat) : Bool :=
  (s.up.images.filter (fun i => i.kind == kind)).length < (if kind = 5 then 16 else 2)

/-- What becomes of an offered image (R535, R536, R541, Table 15.3). -/
inductive Offer where
  | held | busy | refused
  | failed (check : Nat)
  /-- Taken, with the bytes held from a stopped receipt. -/
  | take (from_ : List Byte)
  deriving DecidableEq, Repr

def State.offerVerdict (s : State) (h : List Byte) : Offer × State :=
  let kind := fld h 5 1
  match s.held.find? (fun i => i.id == fld h 8 4) with
  | some i => (if i.header = h then .held else .refused, s)
  | none =>
    if s.up.receipt.isSome then (.busy, s)
    else if kind = 0 ∧ (s.firmwareArmed ∨ s.up.trialSince.isSome) then (.busy, s)
    else match s.headerCheck h with
      | (some n, s) => (.failed n, s)
      | (none, s) =>
        if kind ≠ 0 ∧ !s.storeRoom kind then (.refused, s)
        else (.take (((s.up.stopped.find? (fun r => r.image.header == h)).map (fun r => r.image.payload)).getD []), s)

/-- A receipt begins; for firmware the inactive slot is erased (Table 15.3). -/
def State.beginReceipt (s : State) (h payload : List Byte) (from_ : Option Mac) : State :=
  let kind := fld h 5 1
  let s := if kind = 0 then
      { s with up.fwVerified := false }.setInactive { state := 0, image := { header := [], payload := [], accepted := false } }
    else s
  { s with
    up.stopped := s.up.stopped.filter (fun r => r.image.id != fld h 8 4 && !(kind == 0 && r.image.kind == 0))
    up.receipt := some { image := { header := h, payload := payload, accepted := false }, from_ := from_
                         lastFetch := s.clk.mono, stoppedAt := none } }

/-! ## Chain messages (R540, R541, R551) -/

/-- The first of lanes 2–7 to a neighbour without an unanswered message. -/
def State.chainLane (s : State) (m : Mac) : Option PeerLane :=
  ([2, 3, 4, 5, 6, 7].map (s.peerLane m)).find? (fun l => l.outstanding.isNone)

/-- Send a chain message on a free lane, or let it wait for one. -/
def State.chainSend (s : State) (m : Mac) (opcode : Nat) (payload : List Byte) : State :=
  match s.chainLane m with
  | some l => s.peerPut l opcode payload none
  | none => { s with up.waiting := s.up.waiting ++ [(m, opcode, payload)] }

def State.flushChain (s : State) : State :=
  s.up.waiting.foldl (fun s x => s.chainSend x.1 x.2.1 x.2.2) { s with up.waiting := [] }

/-- The downstream neighbour of the chain. -/
def State.chainNext (s : State) : Option Mac := if s.num 0x9802 = 0xFF then none else tget s.ring.peers (s.num 0x9802)

def State.offerDownstream (s : State) (i : Image) : State :=
  match s.chainNext with
  | some m => s.chainSend m 0x98C0 i.header
  | none => s

/-- A fetch of the receipt is outstanding. -/
def State.fetching (s : State) (m : Mac) : Bool :=
  s.link.peers.any (fun l => l.peer == m && (l.outstanding.map (fun x => x.opcode)) == some 0x98C1)

/-- Fetch the next piece, paced through the launch-time queues (R437, R541; log entry 35). -/
def State.fetch (s : State) : State :=
  match s.up.receipt with
  | none => s
  | some r => match r.from_ with
    | none => s
    | some m =>
      if r.image.complete || s.fetching m then s
      else match s.chainLane m with
        | none => s
        | some l =>
          let n := min 1024 (r.image.length - r.image.payload.length)
          let at_ := max s.tb s.up.nextFetch
          let payload := u32 r.image.id ++ u32 r.image.payload.length ++ u16 n ++ u16 0
          let seq := if l.synced then l.seq + 1#32 else l.seq
          let msg : PeerMsg :=
            { sync := !l.synced, opcode := 0x98C1, payload := payload, sentAt := s.clk.mono + (at_ - s.tb), resends := 0, handover := none }
          let s := { s.setPeerLane { l with seq := seq, synced := true, outstanding := some msg } with
            up.nextFetch := at_ + n * 1000000 / s.num 0x9803 }
          s.launch false at_ (100 * ms) (.other m) 0x88B5#16 false
            (message l.lane (if l.synced then 0 else 4) seq.toNat 0x98C1 0 0#64 payload)

/-! ## Accepting (R535, R539, R544, R550) -/

/-- An activation is MISSED (R550). -/
def State.armMissed (s : State) (kind : Nat) (a : Arm) : State :=
  let s := { s with up.arms := tdel s.up.arms kind }
  let s := if kind = 0 ∧ s.inactive.state = 1 then { s with up.fwVerified := true } else s
  (s.bump 0x98F1).updateState kind 4 a.imageId

/-- up.arm_lead. -/
def State.armLead (s : State) : Ns := s.num 0x9805 * ms

/-- An arm that waited for this image becomes armed, or is MISSED (R550). -/
def State.resolveArm (s : State) (i : Image) : State :=
  match tget s.up.arms i.kind with
  | none => s
  | some a =>
    if !a.pending ∨ a.imageId ≠ i.id then s
    else if s.tb + s.armLead ≤ a.instant then
      { s with up.arms := tput s.up.arms i.kind { a with pending := false } }.updateState i.kind 3 i.id
    else s.armMissed i.kind a

/-- The receipt's image is accepted: stored, told, offered downstream, and a node image broadcast. -/
def State.acceptImage (s : State) (i : Image) : State :=
  let i := { i with accepted := true }
  let s := { s with up.receipt := none }
  let s := if i.kind = 0 then { s with up.fwVerified := true }.setInactive { state := 1, image := i }
    else { s with up.images := s.up.images ++ [i] }
  let s := (s.updateState i.kind 1 i.id).offerDownstream i
  let s := if 1 ≤ i.kind ∧ i.kind ≤ 4 then
      { s with mesh.broadcasts := s.mesh.broadcasts ++
          [{ imageId := i.id, kind := i.kind, next := [0, 0, 0, 0], sentAt := [0, 0, 0, 0] }] }
    else s
  s.resolveArm i

/-! ## The card (R547, R548, R596) -/

/-- Try a card's files until one is being received or none is left. -/
def State.cardRun (s : State) (c : CardRead) : List ImageFile → CardRead × State
  | [] => ({ c with left := [] }, s)
  | f :: rest =>
    if s.up.receipt.isSome then ({ c with left := f :: rest }, s)
    else
      let h := f.header
      match s.offerVerdict h with
      | (.held, s) => s.cardRun { c with accepted := c.accepted + 1 } rest
      | (.failed _, s) => (s.imageFailed (fld h 5 1) (fld h 8 4)).cardRun { c with failed := true } rest
      | (.take _, s) => ({ c with left := rest }, s.beginReceipt h f.payload none)
      | (_, s) => s.cardRun c rest

/-- The card's own image is being received. -/
def State.fromCard (s : State) : Bool :=
  match s.up.receipt with
  | some r => r.from_.isNone
  | none => false

/-- The status and payload of an SD_SCAN that has ended (R535, Table 15.6). -/
def CardRead.answer (c : CardRead) : Nat × List Byte :=
  if c.failed then (stVerifyFailed, [])
  else (stOk, u8 c.files ++ u8 c.accepted ++ u8 (c.files - c.accepted) ++ u8 0)

/-- Go on with the card once nothing is being received; at its end the SD_SCAN that waits is answered. -/
def State.cardOn (s : State) : State :=
  match s.up.card with
  | none => s
  | some c =>
    if s.up.receipt.isSome then s
    else
      let x := s.cardRun c c.left
      let s := x.2
      if x.1.left.isEmpty ∧ !s.fromCard then
        let s := { s with up.card := none }
        match x.1.waiter with
        | some (ep, n) => s.finish ep n x.1.answer.1 x.1.answer.2
        | none => s
      else { s with up.card := some x.1 }

/-- The module may read a card (R547). -/
def State.cardAllowed (s : State) : Bool := s.flag 0x9804 || (s.session? .uart).isSome

/-- The first 64 files of a card. -/
def CardRead.start (files : List ImageFile) (waiter : Option (Endpoint × Nat)) : CardRead :=
  let l := files.take 64
  { left := l, files := l.length, accepted := 0, failed := false, waiter := waiter }

/-- CARD_INSERT (R547, R548). -/
def execCardInsert (dt : Ns) (files : List ImageFile) (s : State) : Host.Outcome State Fault Refusal :=
  event dt (fun s =>
    if !s.cardAllowed then s.bump 0x98F4 else { s with up.card := some (CardRead.start files none) }.cardOn) s

def sdScanBody (files : List ImageFile) (r : Req) (s : State) : Result :=
  if !s.cardAllowed then fail stState s
  else if s.up.card.isSome then (let d := s.draw; .done stBusy (u16 d.1) d.2)
  else
    let c := CardRead.start files (some (r.src.endpoint, r.lane.toNat))
    let x := s.cardRun c c.left
    if x.1.left.isEmpty ∧ !x.2.fromCard then .done x.1.answer.1 x.1.answer.2 x.2
    else .wait { x.2 with up.card := some x.1 }

def sdScanCommand (files : List ImageFile) : Command :=
  { opcode := 0x9807, access := .exempt, firstLane := 1, layout := isEmpty, body := sdScanBody files }

/-- SD_SCAN (R548): answered once the last file has been checked. -/
def execSdScan (r : Req) (files : List ImageFile) (s : State) : Host.Outcome State Fault Refusal :=
  shotas (sdScanCommand files) r s

/-- CARD_REMOVE (R596): the read ends; the image being read fails check 5. -/
def State.cardRemoved (s : State) : State :=
  match s.up.card with
  | none => s
  | some c =>
    let s := { s with up.card := none }
    match s.up.receipt with
    | none => s
    | some r =>
      if r.from_.isSome then
        (match c.waiter with | some (ep, n) => s.finish ep n c.answer.1 c.answer.2 | none => s)
      else
        let s := { s with up.receipt := none }.imageFailed r.image.kind r.image.id
        match c.waiter with
        | some (ep, n) => s.finish ep n stVerifyFailed []
        | none => s

/-- CARD_REMOVE (R596). -/
def execCardRemove (dt : Ns) (s : State) : Host.Outcome State Fault Refusal := event dt State.cardRemoved s

/-- IMAGE_RECEIVED: check 5, and for firmware the readback of three copies (R535, Table 15.3). -/
def State.imageReceived (s : State) (readbackOk : Bool) : State :=
  match s.up.receipt with
  | none => s
  | some r =>
    let i := r.image
    if r.from_.isSome ∧ !i.complete then s
    else
      let good := decide (sha256 i.payload = i.digest) && (i.kind != 0 || readbackOk)
      let card (s : State) (c : CardRead) : State := { s with up.card := some c }
      let s := if good then s.acceptImage i else { s with up.receipt := none }.imageFailed i.kind i.id
      let s := match s.up.card, r.from_ with
        | some c, none => card s { c with accepted := c.accepted + bit good, failed := c.failed || !good }
        | _, _ => s
      s.cardOn

/-- IMAGE_RECEIVED (R535). -/
def execImageReceived (dt : Ns) (readbackOk : Bool) (s : State) : Host.Outcome State Fault Refusal :=
  event dt (fun s => s.imageReceived readbackOk) s

/-- CHAIN_RECEIVE_TIMEOUT: 60 s without an answered fetch; the bytes are kept (R542). -/
def execChainReceiveTimeout (dt : Ns) (s : State) : Host.Outcome State Fault Refusal :=
  event dt (fun s =>
    match s.up.receipt with
    | none => s
    | some r =>
      if r.from_.isSome ∧ !r.image.complete ∧ r.lastFetch + 60 * sec ≤ s.clk.mono then
        { s with up.receipt := none, up.stopped := s.up.stopped ++ [{ r with stoppedAt := some s.clk.mono }] }.cardOn
      else s) s

/-- PARTIAL_IMAGE_EXPIRY: 24 h after the stop (R542). -/
def execPartialImageExpiry (dt : Ns) (s : State) : Host.Outcome State Fault Refusal :=
  event dt (fun s =>
    { s with up.stopped := s.up.stopped.filter (fun r => match r.stoppedAt with
        | some t => decide (s.clk.mono < t + 86400 * sec)
        | none => true) }) s

/-! ## Listing, status, erasing -/

/-- An image is armed, as firmware or for its nodes. -/
def State.imageArmed (s : State) (i : Image) : Bool :=
  s.up.arms.any (fun e => e.1 == i.kind && e.2.imageId == i.id && !e.2.pending) ||
    (i.kind == 5 && s.fe.slots.any (fun x => x.state == .armed && x.info.imageId == i.id))

/-- A graph image some slot holds, and one that runs. -/
def State.imageLoaded (s : State) (i : Image) : Bool :=
  i.kind == 5 && s.fe.slots.any (fun x => x.state != .empty && x.info.imageId == i.id)
def State.imageRuns (s : State) (i : Image) : Bool :=
  i.kind == 5 && s.fe.slots.any (fun x => x.state == .running && x.info.imageId == i.id)

/-- An entry of IMAGE_LIST. -/
def imageEntry (i : Image) (state : Nat) : List Byte :=
  u8 i.kind ++ u8 state ++ u16 0 ++ u32 i.id ++ u32 i.build ++ u32 i.epoch ++ u32 i.length ++ slice i.header 24 4 ++
    slice i.header 40 8

/-- Every image with its state: the firmware slots, what is being received, the store. -/
def State.imageStates (s : State) : List (Image × Nat) :=
  (s.up.slots.zipIdx.filter (fun e => e.1.state != 0)).map (fun e =>
      (e.1.image, if e.2 = s.up.active then 3 else if e.1.state = 2 then 4 else if s.imageArmed e.1.image then 2 else 1)) ++
    (s.up.receipt.toList ++ s.up.stopped).map (fun r => (r.image, 0)) ++
    s.up.images.map (fun i => (i, if s.imageRuns i then 3 else if s.imageArmed i then 2 else 1))

def imageListBody (_ : Req) (s : State) : Result :=
  let l := s.imageStates
  ok (u16 l.length ++ u16 0 ++ (l.map (fun e => imageEntry e.1 e.2)).flatten) s

def imageListCommand : Command :=
  { opcode := 0x9801, access := .exempt, firstLane := 1, layout := isEmpty, body := imageListBody }

/-- IMAGE_LIST (Table 15.6). -/
def execImageList (r : Req) (s : State) : Host.Outcome State Fault Refusal := shotas imageListCommand r s

/-- The firmware's state (Table 15.3). -/
def State.firmwareState (s : State) : Nat :=
  if s.up.trialSince.isSome then 4 else if s.firmwareArmed then 3
  else if ((s.up.receipt.map (fun r => r.image.kind)) == some 0) then 1 else if s.up.fwVerified then 2 else 0

def updateStatusBody (_ : Req) (s : State) : Result :=
  let left := match s.up.trialSince with
    | some t => (t + s.num 0x9806 * sec - s.clk.mono) / sec
    | none => 0
  let rx := s.up.receipt.map (fun r => (r.image.id, r.image.payload.length))
  ok (u64 s.now ++ u8 s.up.active ++ u8 s.firmwareState ++ u8 s.inactive.state ++ u8 0 ++ u32 ((rx.map Prod.fst).getD 0) ++
    u32 ((rx.map Prod.snd).getD 0) ++ u32 left) s

def updateStatusCommand : Command :=
  { opcode := 0x9805, access := .exempt, firstLane := 1, layout := isEmpty, body := updateStatusBody }

/-- UPDATE_STATUS (Table 15.6). -/
def execUpdateStatus (r : Req) (s : State) : Host.Outcome State Fault Refusal := shotas updateStatusCommand r s

/-- Erase an image that is not running, armed or loaded. -/
def State.eraseImage (s : State) (id : Nat) : State :=
  let s := if s.inactive.state ≠ 0 ∧ s.inactive.image.id = id then
      { s with up.fwVerified := false }.setInactive { state := 0, image := { header := [], payload := [], accepted := false } }
    else s
  { s with up.images := s.up.images.filter (fun i => i.id != id), up.stopped := s.up.stopped.filter (fun r => r.image.id != id)
           up.receipt := s.up.receipt.filter (fun r => r.image.id != id)
           mesh.broadcasts := s.mesh.broadcasts.filter (fun b => b.imageId != id) }

def imageEraseBody (r : Req) (s : State) : Result :=
  let id := fld r.payload 0 4
  let named := s.imageStates.filter (fun e => e.1.id == id)
  if named.isEmpty then fail stRange s
  else if named.any (fun e => e.2 == 2 || e.2 == 3 || s.imageLoaded e.1) ∨ s.up.arms.any (fun e => e.2.imageId == id) then
    fail stState s
  else ok [] (s.eraseImage id).cardOn

def imageEraseCommand : Command :=
  { opcode := 0x9806, access := .exempt, firstLane := 1, layout := exactly 4, body := imageEraseBody }

/-- IMAGE_ERASE (Table 15.6). -/
def execImageErase (r : Req) (s : State) : Host.Outcome State Fault Refusal := shotas imageEraseCommand r s

/-! ## Arming (R549–R552, R557) -/

/-- An arm's fate: its refusal, or its effective instant and whether it is pending. -/
inductive ArmVerdict where
  | refused (status : Nat)
  | armed (instant : Ns) (pending : Bool)
  deriving DecidableEq, Repr

/-- The three checks of R549, at the instant of admission. `chain` exempts an arm for an image that is neither held nor being
received. -/
def State.armVerdict (s : State) (admitted : Ns) (kind flags id instant : Nat) (chain : Bool) : ArmVerdict :=
  let receiving := (s.up.receipt.map (fun r => r.image.id == id && r.image.kind == kind)) == some true
  let failed := kind == 0 && s.inactive.state == 2 && s.inactive.image.id == id
  let holds := if kind = 0 then s.inactive.state == 1 && s.inactive.image.id == id
    else s.up.images.any (fun i => i.kind == kind && i.id == id)
  let earliest := admitted + s.armLead
  if 5 ≤ kind ∨ instant = 0 then .refused stRange
  else if failed ∨ (kind = 0 ∧ s.up.trialSince.isSome) ∨ (!holds ∧ !receiving ∧ !chain) then .refused stState
  else if instant < earliest ∧ !hasBit flags 0 then .refused stTooLate
  else .armed (max instant earliest) (!holds)

/-- Take an arm in place of an earlier one of its kind; a node activation whose instant has passed is kept for R546. -/
def State.arm (s : State) (kind id : Nat) (instant : Ns) (immediate pending rollback : Bool) : State :=
  let s := match tget s.up.arms kind with
    | some a => if 1 ≤ kind ∧ !a.pending ∧ a.instant ≤ s.tb then
        { s with up.activated := s.up.activated ++ [(kind, a.imageId, a.instant)] } else s
    | none => s
  let a : Arm := { imageId := id, instant := instant, immediate := immediate, pending := pending, rollback := rollback }
  let s := { s with up.arms := tput s.up.arms kind a, up.lastActivation := tdel s.up.lastActivation kind }
  if pending then s else s.updateState kind 3 id

/-- Pass an arm on down the chain where its flag says so (R551). -/
def State.passArm (s : State) (kind flags id instant : Nat) : State :=
  if !hasBit flags 1 then s
  else match s.chainNext with
    | some m => s.chainSend m 0x98C2 (u8 kind ++ u8 flags ++ u16 0 ++ u32 id ++ u64 instant)
    | none => s

def updateArmBody (r : Req) (s : State) : Result :=
  let kind := fld r.payload 0 1
  let flags := fld r.payload 1 1
  let id := fld r.payload 4 4
  let instant := fld r.payload 8 8
  match s.armVerdict (s.admittedTb r) kind flags id instant false with
  | .refused st => fail st s
  | .armed t pending =>
    .doneThen stOk (u64 t ++ u8 (bit pending) ++ zeros 3) (s.arm kind id t (hasBit flags 0) pending false)
      (fun s => s.passArm kind flags id instant)

def updateArmCommand : Command :=
  { opcode := 0x9802, access := .exempt, firstLane := 1, layout := exactly 16, body := updateArmBody }

/-- UPDATE_ARM (R549–R551). -/
def execUpdateArm (r : Req) (s : State) : Host.Outcome State Fault Refusal := shotas updateArmCommand r s

def updateDisarmBody (r : Req) (s : State) : Result :=
  let kind := fld r.payload 0 1
  if 5 ≤ kind then fail stRange s
  else match tget s.up.arms kind with
    | none => fail stState s
    | some _ =>
      let s := { s with up.arms := tdel s.up.arms kind }
      ok [] (if kind = 0 ∧ s.inactive.state = 1 then { s with up.fwVerified := true } else s)

def updateDisarmCommand : Command :=
  { opcode := 0x9803, access := .exempt, firstLane := 1, layout := exactly 4, body := updateDisarmBody }

/-- UPDATE_DISARM (Table 15.3). -/
def execUpdateDisarm (r : Req) (s : State) : Host.Outcome State Fault Refusal := shotas updateDisarmCommand r s

def updateRollbackBody (r : Req) (s : State) : Result :=
  let flags := fld r.payload 1 1
  let instant := fld r.payload 4 8
  let x := s.inactive
  if instant = 0 then fail stRange s
  else if x.state ≠ 1 ∨ x.image.epoch < s.num 0x9880 0 then fail stState s
  else match s.armVerdict (s.admittedTb r) 0 flags x.image.id instant false with
    | .refused st => fail st s
    | .armed t _ =>
      .doneThen stOk (u64 t) (s.arm 0 x.image.id t (hasBit flags 0) false true)
        (fun s => s.passArm 0 flags x.image.id instant)

def updateRollbackCommand : Command :=
  { opcode := 0x9804, access := .exempt, firstLane := 1, layout := exactly 12, body := updateRollbackBody }

/-- UPDATE_ROLLBACK (R557). -/
def execUpdateRollback (r : Req) (s : State) : Host.Outcome State Fault Refusal := shotas updateRollbackCommand r s

/-- ARM_MISSED: the instant arrives before the image has been accepted (R550). -/
def execArmMissed (dt : Ns) (kind : Nat) (s : State) : Host.Outcome State Fault Refusal :=
  event dt (fun s =>
    match tget s.up.arms kind with
    | some a => if a.pending ∧ a.instant ≤ s.tb then s.armMissed kind a else s
    | none => s) s

/-! ## Chain commands (R541–R543, R551) -/

/-- The ring address a request came from. -/
def reqMac (r : Req) : Mac :=
  match r.src with
  | .ring m _ _ _ => m
  | _ => 0#48

def chainOfferBody (r : Req) (s : State) : Result :=
  let h := r.payload
  let answer (result check n : Nat) : List Byte := u8 result ++ u8 check ++ u16 0 ++ u32 n
  match s.offerVerdict h with
  | (.held, s) => ok (answer 1 0 (fld h 20 4)) s
  | (.busy, s) => ok (answer 2 0 0) s
  | (.refused, s) => ok (answer 3 0 0) s
  | (.failed n, s) => ok (answer 3 n 0) (s.imageFailed (fld h 5 1) (fld h 8 4))
  | (.take p, s) => .doneThen stOk (answer 0 0 p.length) (s.beginReceipt h p (some (reqMac r))) State.fetch

def chainOfferCommand : Command :=
  { opcode := 0x98C0, access := .peer, firstLane := 2, layout := exactly 192, body := chainOfferBody }

/-- CHAIN_OFFER (R535, R536, R541, R542). -/
def execChainOffer (r : Req) (s : State) : Host.Outcome State Fault Refusal := shotas chainOfferCommand r s

def chainFetchBody (r : Req) (s : State) : Result :=
  let id := fld r.payload 0 4
  let off := fld r.payload 4 4
  let n := fld r.payload 8 2
  match s.held.find? (fun i => i.id == id) with
  | none => fail stRange s
  | some i =>
    if n = 0 ∨ 1024 < n ∨ i.payload.length < off + n then fail stRange s
    else ok (u32 id ++ u32 off ++ u16 n ++ u16 0 ++ slice i.payload off n) s

def chainFetchCommand : Command :=
  { opcode := 0x98C1, access := .peer, firstLane := 2, layout := exactly 12, body := chainFetchBody }

/-- CHAIN_FETCH (R543). -/
def execChainFetch (r : Req) (s : State) : Host.Outcome State Fault Refusal := shotas chainFetchCommand r s

def chainArmBody (r : Req) (s : State) : Result :=
  let kind := fld r.payload 0 1
  let flags := fld r.payload 1 1
  let id := fld r.payload 4 4
  let instant := fld r.payload 8 8
  match s.armVerdict (s.admittedTb r) kind flags id instant true with
  | .refused st => ok (u8 (if st = stTooLate then 2 else 3) ++ zeros 3 ++ u64 0) s
  | .armed t pending =>
    .doneThen stOk (u8 (bit pending) ++ zeros 3 ++ u64 t) (s.arm kind id t (hasBit flags 0) pending false)
      (fun s => s.passArm kind flags id instant)

def chainArmCommand : Command :=
  { opcode := 0x98C2, access := .peer, firstLane := 2, layout := exactly 16, body := chainArmBody }

/-- CHAIN_ARM (R549–R551). -/
def execChainArm (r : Req) (s : State) : Host.Outcome State Fault Refusal := shotas chainArmCommand r s

/-! ## Responses to the module's own peer messages (R210, R541) -/

/-- A handover's message has been answered. -/
def State.handoverAnswered (s : State) (id : Nat) : State :=
  { s with prom.tracks := s.prom.tracks.map (fun e =>
      (e.1, { e.2 with sent := e.2.sent.map (fun h => if h.id = id then { h with answered := true } else h) })) }

/-- A fetched piece is the next of the receipt (R541). -/
def State.fetched (s : State) (m : Mac) (b : List Byte) : State :=
  match s.up.receipt with
  | none => s
  | some r =>
    let i := r.image
    if r.from_ = some m ∧ fld b 0 4 = i.id ∧ fld b 4 4 = i.payload.length ∧ b.length = 12 + fld b 8 2 then
      { s with up.receipt := some { r with lastFetch := s.clk.mono
                                           image := { i with payload := (i.payload ++ b.drop 12).take i.length } } }
    else s

/-- What a final response to a peer message does. -/
def State.peerAnswered (s : State) (m : Mac) (msg : PeerMsg) (status : Nat) (b : List Byte) : State :=
  let s := match msg.handover, msg.opcode with
    | some h, 0x40C0 => s.handoverAnswered h
    | _, _ => s
  if msg.opcode = 0x98C1 ∧ status = stOk then s.fetched m b else s

/-- Lanes that have come free take what waits. -/
def State.peerGoOn (s : State) : State := s.flushPeers.flushChain.fetch

/-- A response on a lane: an interim one and BUSY leave the message outstanding, SEQUENCE sends it again with SYNC (Table 2.3). -/
def State.peerResponds (s : State) (l : PeerLane) (msg : PeerMsg) (r : Req) (status : Nat) : State :=
  if r.flags.getLsbD 1 then s.setPeerLane { l with outstanding := some { msg with sentAt := s.clk.mono } }
  else if status = stBusy then
    s.setPeerLane { l with outstanding := some { msg with sentAt := s.clk.mono + fld r.payload 0 2 * ms } }
  else if status = stSequence then
    let l := { l with outstanding := none, synced := false }
    let s := s.setPeerLane l
    if msg.opcode = 0x98C1 then s.fetch else s.peerPut l msg.opcode msg.payload msg.handover
  else ((s.setPeerLane { l with outstanding := none }).peerAnswered (reqMac r) msg status r.payload).peerGoOn

/-- PEER_RESPONSE: a response that matches no message of the module's is discarded and counted (R54). -/
def State.peerResponse (s : State) (r : Req) (opcode status : Nat) : State :=
  if !s.hears r.src then s.unheard r.src
  else
    let l := s.peerLane (reqMac r) r.lane.toNat
    let stray : State := { s with link.counts.dirDiscards := s.link.counts.dirDiscards + 1 }
    match l.outstanding with
    | none => stray
    | some msg => if msg.opcode = opcode ∧ l.seq = r.seq ∧ isRing r.src.endpoint then (s.touch r.src).peerResponds l msg r status else stray

/-- PEER_RESPONSE (R210). -/
def execPeerResponse (r : Req) (opcode status : Nat) (s : State) : Host.Outcome State Fault Refusal :=
  .next ((s.begin r.dt).peerResponse r opcode status).settle

/-- How long a peer message waits before its resend, and how often it is resent: R210 for Promenade, R64 for the chain. -/
def resendRule (opcode : Nat) : Ns × Nat := if opcode / 256 = 0x98 then (100 * ms, 5) else (30 * ms, 2)

/-- PEER_RESEND (R64, R210): a resend carries RETRY beside the flags of the message; after the last one goes unanswered, the next message
carries SYNC. -/
def State.peerResend (s : State) (peer : Mac) (lane : Nat) : State :=
  let l := s.peerLane peer lane
  match l.outstanding with
  | none => s
  | some m =>
    let rule := resendRule m.opcode
    if s.clk.mono < m.sentAt + rule.1 then s
    else if rule.2 ≤ m.resends then (s.setPeerLane { l with outstanding := none, synced := false }).peerGoOn
    else
      (s.setPeerLane { l with outstanding := some { m with sentAt := s.clk.mono, resends := m.resends + 1 } }).send
        (peerSource peer) (m.opcode / 256 == 0x40) (message lane (if m.sync then 12 else 8) l.seq.toNat m.opcode 0 0#64 m.payload)

/-- PEER_RESEND (R210, R541). -/
def execPeerResend (dt : Ns) (peer : Mac) (lane : Byte) (s : State) : Host.Outcome State Fault Refusal :=
  event dt (fun s => s.peerResend peer lane.toNat) s

/-! ## Switch-over, trial and rollback (R539, R554–R556) -/

/-- SWITCH_OVER: from 50 ms before the instant, the final output-chain cycle is due and the selector turns; at the instant the
module resets (Table 15.5). Steps 1 and 2 are `State.switchWaits` and `State.switchQuiet`. -/
def State.switchOver (s : State) : State :=
  match s.switchAt with
  | none => s
  | some a =>
    if s.tb + 50 * ms < a then s
    else
      let s := if s.up.selectorTurned then s else { s with oc.due := true, up.selectorTurned := true }
      if a ≤ s.tb then s.enterReset 6 else s

/-- SWITCH_OVER (R554). -/
def execSwitchOver (dt : Ns) (s : State) : Host.Outcome State Fault Refusal := event dt State.switchOver s

/-- TRIAL_TIMEOUT: the trial is confirmed and the epoch floor follows the running firmware (Table 15.3). -/
def State.confirmTrial (s : State) : State :=
  match s.up.trialSince with
  | none => s
  | some t =>
    if s.clk.mono < t + s.num 0x9806 * sec then s
    else
      let i := s.running_
      let s := { s with up.trialSince := none, up.trialWatchdogs := 0 }
      let s := if s.num 0x9880 0 < i.epoch then s.setValue 0x9880 0 (.num i.epoch) else s
      s.updateState 0 6 i.id

/-- TRIAL_TIMEOUT (R539). -/
def execTrialTimeout (dt : Ns) (s : State) : Host.Outcome State Fault Refusal := event dt State.confirmTrial s

/-- The selector turns back and the slot left is FAILED; a reset of kind `k` follows (Table 15.3). -/
def State.rollBack (s : State) (k : Nat) : State :=
  let i := s.running_
  let s := { s with up.slots := lmod s.up.slots s.up.active (fun x => { x with state := 2 }), up.active := 1 - s.up.active
                    up.trialSince := none, up.trialWatchdogs := 0, up.fwVerified := false }
  ((s.bump 0x98F2).updateState 0 7 i.id).enterReset k

/-- TRIAL_RUN_TIMEOUT: 10 s after a start of the trial firmware it has not entered RUN (R539). -/
def execTrialRunTimeout (dt : Ns) (s : State) : Host.Outcome State Fault Refusal :=
  always dt (fun s =>
    if s.powered ∧ s.up.trialSince.isSome ∧ !s.up.ranSince ∧ s.up.startAt + 10 * sec ≤ s.clk.mono then s.rollBack 4 else s) s

end Sys2Proof.Machine
end

