-- ==== Sys2Proof/Machine/Power.lean ====
section
/-!
DEFINITION. Clock, power and reset (R561–R587, R595–R612): the RTC, the power states, LAST-GASP and HOLD, QUIET, the supplies and
pins, with the commands of group 0xA0; START stands in Start.lean.
-/

namespace Sys2Proof.Machine

/-! ## Group 0xA0 commands -/

/-- The RTC_GET response (Table 16.9). -/
def State.rtcReading (s : State) : List Byte :=
  let utc := s.rtcUtc / (sec : Int)
  let zone := s.int 0xA001 * 60
  let civil := s.rtcUtc + s.civilOffset utc * (sec : Int)
  s.rtcBytes ++ u8 (bit s.rtc.valid + 2 * bit (s.dstAt (utc + zone))) ++ u16 s.sdSub ++ u16 0 ++ leI 2 (s.int 0xA011) ++
    leI 2 s.rtc.celsius ++ leI 8 civil ++ u64 s.now

def rtcGetCommand : Command :=
  { opcode := 0xA001, access := .holder, firstLane := 1, layout := isEmpty, body := fun _ s => ok s.rtcReading s }

/-- RTC_GET (R584). -/
def execRtcGet (r : Req) (s : State) : Host.Outcome State Fault Refusal := shotas rtcGetCommand r s

/-- A value waits for its load; a later one replaces it, and both commands wait (R566). -/
def rtcSetBody (r : Req) (s : State) : Result :=
  match rtcParse (r.payload.take 7) with
  | none => fail stRange s
  | some v =>
    if beforeRtc v.1 then fail stRange s
    else if s.timeValid then fail stState s
    else
      let earlier := match s.rtc.set with | some x => x.waiters | none => []
      let x : RtcSetReq :=
        { value := r.payload.take 7, at_ := s.secondEdge, waiters := earlier ++ [(r.src.endpoint, r.lane.toNat)]
          class_ := classCode r.src }
      .wait { s with rtc.set := some x }

def rtcSetCommand : Command :=
  { opcode := 0xA002, access := .holder, firstLane := 1, layout := exactly 8, body := rtcSetBody }

/-- RTC_SET (R566). -/
def execRtcSet (r : Req) (s : State) : Host.Outcome State Fault Refusal := shotas rtcSetCommand r s

/-- SD_POWER [2:0]. -/
def Power.code : Power → Nat
  | .quiet => 1
  | .lastGasp => 2
  | _ => 0

def State.vinGood (s : State) : Bool := 4400 ≤ s.pwr.vinMv
def State.vbatGood (s : State) : Bool := s.num 0xA024 ≤ s.pwr.vbatMv

def powerStatusBody (_ : Req) (s : State) : Result :=
  ok (u8 s.pwr.state.code ++ u8 s.pwr.lastReset ++
    u8 (bit s.vinGood + 2 * bit s.vbatGood + 4 * bit s.rtc.valid + 8 * bit s.io.doorOpen) ++ u8 0 ++ u16 s.pwr.vinMv ++
    u16 s.pwr.vbatShown ++ u16 s.fe.fabricMv ++ u16 0 ++ u32 s.pwr.cycles ++ u32 s.pwr.opSeconds ++
    u16 (s.counter 0xA02A) ++ u16 0) s

def powerStatusCommand : Command :=
  { opcode := 0xA003, access := .holder, firstLane := 1, layout := isEmpty, body := powerStatusBody }

/-- POWER_STATUS (R584). -/
def execPowerStatus (r : Req) (s : State) : Host.Outcome State Fault Refusal := shotas powerStatusCommand r s

/-! ## Power states (R575–R579) -/

/-- POWER_STATE (Table 16.9). -/
def State.powerState (s : State) (old new : Power) (cause : Nat) : State :=
  s.raise 0xA0E0 0x16 (u8 old.code ++ u8 new.code ++ u8 cause ++ u8 0 ++ u16 s.pwr.vinMv ++ u16 s.pwr.vbatShown ++ u64 s.now)

/-- Steps 1 and 2 of Table 16.5; `State.gasp` runs the rest. -/
def State.enterLastGasp (s : State) (cause : Nat) : State :=
  let old := s.pwr.state
  { s with pwr.state := .lastGasp, pwr.lastGaspSince := s.clk.mono, pwr.lastGaspStep := 2, pwr.holdByCommand := cause == 4
           pwr.vinLost := false }.powerState old .lastGasp cause

def powerHoldBody (r : Req) (s : State) : Result :=
  if fld r.payload 0 2 ≠ 0x484C then fail stRange s
  else if s.pwr.state = .lastGasp then fail stState s
  else .doneThen stOk [] s (fun s => s.enterLastGasp 4)

def powerHoldCommand : Command :=
  { opcode := 0xA004, access := .holder, firstLane := 1, layout := exactly 4, body := powerHoldBody }

/-- POWER_HOLD (R579). -/
def execPowerHold (r : Req) (s : State) : Host.Outcome State Fault Refusal := shotas powerHoldCommand r s

/-- RUN or QUIET. -/
def State.awake (s : State) : Bool := s.pwr.state == .run || s.pwr.state == .quiet

/-- Table 17.6 leaves a supply's voltage without any assured behaviour (R597). -/
def beyond (vinMv vbatMv vpaMv : Nat) : Bool := 6500 < vinMv || 4000 < vbatMv || 6500 < vpaMv

/-- The main domain loses its supply: OFF until VIN returns (Table 16.6 kind 1). In LAST-GASP it is counted and will be recorded
(R577). -/
def State.brownOut (s : State) : State :=
  if !s.powered then s
  else
    let ms_ := (s.clk.mono - s.pwr.lastGaspSince) / ms
    let s := if s.pwr.state = .lastGasp then
        { (s.bump 0xA0F0).setCounter 0xA02A 0 ms_ with pwr.shortGasp := some (ms_, s.pwr.lastGaspStep) }
      else s
    { s.enterReset 1 with pwr.state := .off, pwr.offByBrownOut := true, pwr.downAt := s.clk.mono }

/-- LAST_GASP_ENTRY: VIN has stayed below 4.40 V for 2 ms (R576, R600). -/
def execLastGaspEntry (dt : Ns) (vinMv : Nat) (s : State) : Host.Outcome State Fault Refusal :=
  always dt (fun s =>
    if s.awake ∧ vinMv < 4400 then
      let s := { s with pwr.vinMv := vinMv }
      if vinMv < 4000 then s.brownOut else s.enterLastGasp 3
    else s) s

/-- The slow domain has lost its supply (R571, R574): the RTC is not valid, HOLD is forgotten, the counts resume from MRAM. -/
def State.loseSlow (s : State) : State :=
  if s.pwr.slowLost then s
  else
    { s.enterReset 0 with
      pwr.slowLost := true, rtc.valid := false, rtc.set := none, rtc.load := false, pwr.opSeconds := s.pwr.opCopy
      pwr.cycles := s.pwr.cyclesCopy, pwr.state := .off }

/-- VIN_BELOW_4V: the slow domain moves to VBAT, which may be too low to keep it; a main domain that still runs browns out
(R571, R579, Table 16.6). -/
def execVinBelow4v (dt : Ns) (vinMv vbatMv : Nat) (s : State) : Host.Outcome State Fault Refusal :=
  if beyond 0 vbatMv 0 then .fault .absoluteMaximum
  else always dt (fun s =>
    if vinMv < 4000 then
      let s := { s with pwr.vinMv := vinMv, pwr.vbatMv := vbatMv }.brownOut
      let s := if s.pwr.state = .hold then { s with pwr.vinLost := true } else s
      if vbatMv < 1800 then s.loseSlow else s
    else s) s

/-- BROWN_OUT (R580). -/
def execBrownOut (dt : Ns) (vinMv : Nat) (s : State) : Host.Outcome State Fault Refusal :=
  always dt (fun s => if vinMv < 4000 then { s with pwr.vinMv := vinMv }.brownOut else s) s

/-- SLOW_DOMAIN_LOST (R571): its supply, VBAT while VIN is below 4.00 V, falls below 1.80 V. -/
def execSlowDomainLost (dt : Ns) (s : State) : Host.Outcome State Fault Refusal :=
  always dt (fun s => if s.pwr.vinMv < 4000 then s.brownOut.loseSlow else s) s

/-- VIN_RETURN (R573, R578, R579): VIN that meets the start condition ends a HOLD from a loss of VIN, or a commanded one in which
VIN was lost; an OFF has its start pending. -/
def execVinReturn (dt : Ns) (vinMv : Nat) (s : State) : Host.Outcome State Fault Refusal :=
  if beyond vinMv 0 0 then .fault .absoluteMaximum
  else always dt (fun s =>
    let s := { s with pwr.vinMv := vinMv }
    if 4550 ≤ vinMv ∧ s.pwr.state = .hold ∧ (!s.pwr.holdByCommand ∨ s.pwr.vinLost) then s.enterReset 7 else s) s

/-- NRESET: a low of 10 µs or more (Table 16.6, R609). -/
def execNreset (dt : Ns) (lowNs : Ns) (s : State) : Host.Outcome State Fault Refusal :=
  always dt (fun s =>
    if lowNs < 10 * us then s
    else if s.awake then s.enterReset 2
    else if s.pwr.state = .hold ∧ s.pwr.holdByCommand then s.enterReset 7
    else s) s

/-- The record the firmware writes as it stops (R490); its event and data are not stated and are free (log entry 3). -/
def State.fatalRecord (s : State) : State :=
  let d := s.draw
  let e := d.2.draw
  let s := e.2
  { s.toLastGasp
      { seq := 0, numbered := false, order := s.ev.made, opSeconds := s.pwr.opSeconds, cycles := s.pwr.cycles,
        event := d.1 % 65536, unit := 0, flags := bit (s.now != 0) + 2 * bit (s.classPinned (d.1 % 65536)), stamp := s.now,
        data := le 36 e.1, badCrc := none } with ev.made := s.ev.made + 1 }

/-- WATCHDOG (R581): in TRIAL the second one since the switch-over rolls back (Table 15.3). -/
def execWatchdog (dt : Ns) (s : State) : Host.Outcome State Fault Refusal :=
  always dt (fun s =>
    if !s.powered then s
    else
      let s := s.fatalRecord
      if s.up.trialSince.isNone then s.enterReset 3
      else if 1 ≤ s.up.trialWatchdogs then s.rollBack 3
      else { s with up.trialWatchdogs := s.up.trialWatchdogs + 1 }.enterReset 3) s

/-! ## QUIET (R575) -/

/-- Dark for pwr.quiet_idle_s in every section in use, and no switch-on within lp.plan_lead. -/
def State.longDark (s : State) : Bool :=
  !s.sectionsInUse || (s.civilKnown && s.plan.nights.all (fun n =>
    !n.lit || s.tb + s.num 0x3020 * sec < n.start || n.finish + s.num 0xA022 * sec ≤ s.tb))

/-- The conditions of R575 have held for pwr.quiet_idle_s. -/
def State.quietDue (s : State) : Bool :=
  s.flag 0xA021 && s.longDark && s.calm && match s.pwr.idleSince with
    | some t => decide (t + s.num 0xA022 * sec ≤ s.clk.mono)
    | none => false

/-- QUIET_ENTRY (R575). -/
def execQuietEntry (dt : Ns) (s : State) : Host.Outcome State Fault Refusal :=
  event dt (fun s =>
    if s.pwr.state = .run ∧ s.quietDue then { s with pwr.state := .quiet }.bump 0xA0F2 |>.powerState .run .quiet 1 else s) s

/-- QUIET_EXIT (R575). -/
def execQuietExit (dt : Ns) (s : State) : Host.Outcome State Fault Refusal :=
  event dt (fun s =>
    if s.pwr.state = .quiet ∧ !s.quietDue then { s with pwr.state := .run }.powerState .quiet .run 2 else s) s

/-! ## The slow domain's own events -/

/-- The RTC's count in nanoseconds since 2000-01-01 00:00:00. -/
def State.rtcNs (s : State) : Ns := s.rtc.seconds * sec + min (s.clk.mono - s.rtc.secondAt) (sec - 1)

/-- The period of the periodic wake in ns, if it is enabled (R570). -/
def State.wakePeriod (s : State) : Option Ns :=
  let n := (s.slowValue 0xA012).int.toNat
  if n = 0x7F then none else if n < 128 then some (2 ^ n * sec) else some (sec / 2 ^ (256 - n))

/-- A whole multiple of the period has just come on the RTC, to the 32.768 kHz edge. -/
def State.wakeDue (s : State) : Bool :=
  match s.wakePeriod with
  | none => false
  | some p => !s.pwr.slowLost && s.rtcNs % p < 30518 && s.pwr.wokeAt < s.rtcNs - s.rtcNs % p

/-- PERIODIC_WAKE (R570, Table 16.2). -/
def execPeriodicWake (dt : Ns) (s : State) : Host.Outcome State Fault Refusal :=
  always dt (fun s =>
    if !s.wakeDue then s
    else
      let s := { s with pwr.wokeAt := s.rtcNs }
      if s.awake then s.bump 0xA0F1
      else if s.pwr.state = .hold ∧ s.pwr.holdByCommand ∧ (s.slowValue 0xA013).int ≠ 0 ∧ 4550 ≤ s.pwr.vinMv then s.enterReset 7
      else s) s

/-- VBAT_SAMPLE, once a minute while the main domain runs (R572). -/
def execVbatSample (dt : Ns) (vbatMv : Nat) (s : State) : Host.Outcome State Fault Refusal :=
  if beyond 0 vbatMv 0 then .fault .absoluteMaximum
  else event dt (fun s => { s with pwr.vbatMv := vbatMv, pwr.vbatShown := vbatMv }) s

/-- OPERATING_SECOND (R574). -/
def execOperatingSecond (dt : Ns) (s : State) : Host.Outcome State Fault Refusal :=
  always dt (fun s =>
    if !s.powered ∨ s.clk.mono < s.pwr.opSecondAt + sec then s
    else
      let n := (s.pwr.opSeconds + 1) % pow32
      let s := { s with pwr.opSeconds := n, pwr.opSecondAt := s.pwr.opSecondAt + sec }
      if n % 60 = 0 then { s with pwr.opCopy := n, pwr.cyclesCopy := s.pwr.cycles } else s) s

/-- The RTC becomes valid, or has been so: where no clock was, the present night is resolved (R135). -/
def State.rtcKnown (s : State) (before : Bool) : State := if before || !s.running then s else s.resolveNights

/-- A set is loaded: the RTC shows the value from this edge; it is recorded once and its commands are answered (R566). -/
def State.rtcLoad (s : State) (x : RtcSetReq) : State :=
  match rtcParse x.value with
  | none => s
  | some (n, wd) =>
    let known := s.civilKnown
    let old := s.rtcBytes
    let s := { s with rtc.seconds := n, rtc.weekday := wd, rtc.secondAt := s.clk.mono, rtc.valid := true, rtc.set := none
                      rtc.lastCompare := s.clk.mono, rtc.lastError := 0, pwr.wokeAt := n * sec - 1 }
    let s := s.record 0xA001 0x16 (old ++ u8 0 ++ x.value ++ u8 x.class_)
    (x.waiters.foldl (fun s w => s.finish w.1 w.2 stOk (u64 s.now)) s).rtcKnown known

/-- A discipline load: the RTC counts from the whole UTC second nearest this edge (R568). -/
def State.rtcDisciplined (s : State) : State :=
  let error := s.rtcUtc - s.utcNs
  let u := s.utcNs
  let n : Nat := ((u / (sec : Int)) + rtcEpoch).toNat
  let part : Nat := (u % (sec : Int)).toNat
  let s := { s with rtc.seconds := n, rtc.secondAt := s.clk.mono - part, rtc.valid := true, rtc.load := false
                    rtc.lastCompare := s.clk.mono, rtc.lastError := 0, pwr.wokeAt := n * sec - 1 }
  (s.bump 0xA0F3).record 0xA002 0x16
    (leI 4 (clampTo (-2147483648) 2147483647 (Int.tdiv error (ms : Int))) ++ leI 2 (s.int 0xA011) ++ u16 0)

/-- The RTC's next second; the weekday counter advances at the day's rollover (R564, R565). -/
def State.rtcTick (s : State) : State :=
  let n := s.rtc.seconds + 1
  let n := if n = rtcWrap then rtcEpoch.toNat else n
  { s with rtc.seconds := n, rtc.secondAt := s.clk.mono
           rtc.weekday := if n % 86400 = 0 then (s.rtc.weekday + 1) % 7 else s.rtc.weekday }

/-- A rollover of the RTC's second: a set that reached the slow domain two 32.768 kHz edges ago or more is loaded, or a
discipline load takes place (R566, R568). -/
def State.rtcSecond (s : State) : State :=
  if s.pwr.slowLost ∨ s.clk.mono < s.rtc.secondAt + sec - ms then s
  else match s.rtc.set with
    | some x =>
      if x.at_ ≤ s.clk.mono then s.rtcLoad x else s.rtcTick
    | none => if s.rtc.load ∧ s.timeValid then s.rtcDisciplined else s.rtcTick

/-- RTC_SECOND (R565, R566, R568). -/
def execRtcSecond (dt : Ns) (s : State) : Host.Outcome State Fault Refusal := always dt State.rtcSecond s

/-- RTC_DISCIPLINE, every 1,024 s while network time and the RTC are valid (R568). -/
def execRtcDiscipline (dt : Ns) (s : State) : Host.Outcome State Fault Refusal :=
  event dt (fun s =>
    if !s.timeValid ∨ !s.rtc.valid ∨ s.rtc.load ∨ s.clk.mono < s.rtc.lastCompare + 1024 * sec then s
    else
      let error := s.rtcUtc - s.utcNs
      if 100 * ms ≤ error.natAbs then { s with rtc.load := true }
      else
        let interval : Int := (s.clk.mono - s.rtc.lastCompare : Nat)
        let f := (error - s.rtc.lastError) * 10000000 / interval
        let trim := s.int 0xA011
        { s with rtc.lastCompare := s.clk.mono, rtc.lastError := error }.setValue 0xA011 0
          (.num (clampTo (-500) 500 (trim + Int.tdiv (f - trim) 16)))) s

/-- The curve's correction at a temperature, in 0.1 ppm: linear between its points, clamped at its ends (R567). -/
def curveAt (curve : List Byte) (celsius : Int) : Int :=
  let t := clampTo (-45) 110 celsius + 45
  let k := (t / 5).toNat
  let c (i : Nat) : Int := fldI curve (2 * min i 31) 2
  c k + (c (k + 1) - c k) * (t % 5) / 5

/-- RTC_TEMP_CORRECTION (R567). -/
def execRtcTempCorrection (dt : Ns) (celsius : Int) (s : State) : Host.Outcome State Fault Refusal :=
  always dt (fun s =>
    if s.pwr.slowLost then s
    else { s with rtc.celsius := celsius, rtc.correction := curveAt (s.slowValue 0xA010).bytes celsius + s.int 0xA011 }) s

/-! ## Pins and the radios' supply (R595, R612) -/

/-- DOOR_CHANGE (R612). -/
def execDoorChange (dt : Ns) (isOpen : Bool) (s : State) : Host.Outcome State Fault Refusal :=
  event dt (fun s => { s with io.doorOpen := isOpen }) s

/-- PHOTO_CHANGE (R612): the reading that the light plan debounces (R129). -/
def execPhotoChange (dt : Ns) (dark : Bool) (s : State) : Host.Outcome State Fault Refusal :=
  event dt (fun s =>
    let s := { s with io.photoDark := dark }
    if s.plan.photo.dark = dark then s else { s with plan.photo.dark := dark, plan.photo.since := s.clk.mono }) s

/-- VPA_CHANGE (R595). -/
def execVpaChange (dt : Ns) (vpaMv : Nat) (s : State) : Host.Outcome State Fault Refusal :=
  if beyond 0 0 vpaMv then .fault .absoluteMaximum
  else always dt (fun s => { s with pwr.vpaMv := vpaMv }) s

/-- The power a radio sends at, in dBm (R595). -/
def State.txDbm (s : State) (r : Nat) : Int :=
  if s.pwr.vpaMv < 4750 then min (s.int 0x5080 r) 24 else s.int 0x5080 r

end Sys2Proof.Machine
end

