-- ==== Sys2Proof/Machine/Start.lean ====
section
/-!
DEFINITION. START: the main domain leaves reset (R583, Table 16.7). Each unit has one definition that says what a start of kind
`k` keeps of it.
-/

namespace Sys2Proof.Machine

/-- Kinds whose start follows a loss of the main domain's supply: power-on, brown-out, HOLD wake. -/
def coldStart (k : Nat) : Bool := k == 0 || k == 1 || k == 7

/-! ## Firmware (R538, R539, R554) -/

/-- The boot loader's work: a turned selector boots the new firmware into its trial; failing copies are rewritten, and a slot
without a good copy is left for the other. -/
def State.bootFirmware (s : State) (found : StartReport) : State :=
  let s := if s.up.selectorTurned then
      let s := { s with up.active := 1 - s.up.active, up.selectorTurned := false, up.arms := tdel s.up.arms 0
                        up.trialSince := some s.clk.mono, up.trialWatchdogs := 0, up.fwVerified := false }
      s.updateState 0 5 s.running_.id
    else s
  let bad := found.badFirmwareCopies.dedup.length
  if bad < 3 then s.bump 0x98F3 0 bad
  else
    let i := s.running_
    { s with up.active := 1 - s.up.active, up.trialSince := none }.updateState 0 7 i.id

/-- An arm whose instant has passed while the module was down (R552). -/
def State.startArms (s : State) : State :=
  s.up.arms.foldl (fun s e =>
    let a := e.2
    if s.tb < a.instant then s
    else if a.immediate then
      { s with up.arms := tput s.up.arms e.1 { a with instant := s.tb + s.armLead } }
    else s.armMissed e.1 a) s

/-! ## Parameters (R11, R96) -/

/-- The persistence of the parameter under a key; the level of a graph's queue is volatile (Table 6.10). -/
def keepOf (key : Nat) : Keep :=
  if pkey 0x4C82 0x20 ≤ key ∧ key < pkey 0x4C82 256 then .v
  else ((paramRow (key / 65536)).map (fun r => r.keep)).getD .u

/-- Copy B's sequence is the later, modulo 2³². -/
def laterCopy (a b : Nat) : Bool := a != b && (b + pow32 - a) % pow32 < 2147483648

/-- The copy of the store that a start uses: the later one whose CRC is valid; with none, the reset values (log entry 53). -/
def State.storeAtStart (s : State) (bad : List Nat) : Table PVal × Nat :=
  let a := s.par.copyA
  let b := s.par.copyB
  let later := if laterCopy a.seq b.seq then 1 else 0
  if !bad.contains later then (s.par.vals, if later = 0 then a.seq else b.seq)
  else if bad.contains (1 - later) then ([], 0)
  else if later = 0 then (b.vals, b.seq) else (a.vals, a.seq)

/-- Values the module itself writes outside the store: the trim and the epoch floors. -/
def ownValue (key : Nat) : Bool := key / 65536 == 0xA011 || key / 65536 == 0x9880

def State.startParams (s : State) (k : Nat) (found : StartReport) : State :=
  let x := s.storeAtStart found.badStoreCopies
  let stays (key : Nat) : Bool := match keepOf key with
    | .v => false
    | .m => k != 6
    | _ => true
  let own := s.par.vals.filter (fun e => ownValue e.1)
  let vals := own.foldl (fun t e => tput t e.1 e.2) (x.1.filter (fun e => !ownValue e.1))
  let good (c : StoreCopy) (i : Nat) : StoreCopy :=
    if found.badStoreCopies.contains i then { vals := [], seq := (x.2 + pow32 - 1) % pow32 } else c
  { s with par := { vals := vals.filter (fun e => stays e.1), counts := s.par.counts.filter (fun e => stays e.1)
                    copyA := good s.par.copyA 0, copyB := good s.par.copyB 1, parityTimes := [], failed := [], restoring := [] }
           mt.converters := if k = 6 then s.mt.converters.map (fun e => (e.1, { e.2 with calStamp := 0 })) else s.mt.converters }

/-! ## Keys (R520–R524, R528) -/

/-- One slot whose selected record has failed its CRC. -/
def State.recoverSlot (s : State) (x : Nat × Bool) : State :=
  let k := s.slot x.1
  if k.rec_.type = 0 ∧ k.rec_.gen = 0 then s
  else
    let f (k : KeySlot) : KeySlot :=
      if x.2 then { k with rec_ := k.older, older := .empty, recovered := true }
      else { k with rec_ := .empty, older := .empty, recovered := false, lost := true }
    (s.changeSlot x.1 8 f).record 0x9003 0x12 (u8 x.1 ++ u8 (if x.2 then 1 else 2) ++ u16 0)

def State.startKeys (s : State) (found : StartReport) : State :=
  let s := found.badKeyRecords.foldl State.recoverSlot s
  let s := found.abandonedWrites.foldl (fun s i =>
    (s.bump 0x90F1).record 0x9002 0x12 (u8 i ++ zeros 3 ++ u32 (s.slot i).rec_.gen)) s
  let s := (List.range s.ks.slots.length).foldl (fun (s : State) i =>
    let d := s.draw
    d.2.onSlot i (fun k => { k with mask := le 32 d.1, maskedAt := s.clk.mono })) s
  let s : State := { s with ks.attests := [], ks.cache := [] }
  if s.ks.lifecycle = 3 then s.retireKeys else s

/-! ## Engines, graphs and queues (R228, R236, R246, R254) -/

/-- The self-test of every engine; one retired three times within 24 h stays so until a power-on reset. -/
def State.startEngines (s : State) (k : Nat) (found : StartReport) : State :=
  let s := { s with fe.engines := s.fe.engines.map (fun e =>
    { Engine.reset with state := if e.state = 4 ∧ k ≠ 0 then 4 else 0, retirements := e.retirements, times := e.times }) }
  found.engineFails.foldl (fun s e =>
    if 16 ≤ e ∨ (s.engine e).state ≠ 0 then s else (s.retire e 3).1) s

/-- A slot's image as the store gives it again, with its code; the standard graph is part of the firmware (log entry 6). -/
def State.reloaded (s : State) (g : Nat) (x : GraphSlot) : Option (GraphInfo × List Byte) :=
  match s.imageOf x.info.imageId with
  | some i => (graphInfo g i).bind (fun y => if s.graphFits g y then some (y, Config.graphCode i.payload) else none)
  | none => if x.info.imageId = 1 then some (.standard, Config.graphCode []) else none

/-- One slot is reloaded: RUNNING where it was ARMED or RUNNING with autostart, else LOADED, or EMPTY (R246). -/
def State.startSlot (s : State) (g : Nat) (x : GraphSlot) : State :=
  if x.state = .empty then s
  else match s.reloaded g x with
    | none => (s.setSlot g { GraphSlot.empty with state := x.state, info := x.info }).enterSlot g .empty 4
    | some y =>
      let run := s.flag 0x4881 g && (x.state == .running || x.state == .armed)
      let new : SlotState := if run then .running else .loaded
      let s := s.loadGraph g y.1 y.2
      let s := s.setSlot g { s.slotOf g with state := new, instant := if run then s.tb else 0 }
      if x.state = new then s else s.graphState g x.state new 3

def State.startGraphs (s : State) : State :=
  let old := s.fe.slots
  let s := { s with fe.slots := List.replicate 8 .empty, fe.stores := List.replicate 4 [], qm.specs := [] }
  old.zipIdx.foldl (fun s e => s.startSlot e.2 e.1) s

/-- Queues, flow state, alarms and the Backstep store are lost; the records that wait in queue 0x0A only with the main domain's
supply (R236, R292, R461). -/
def State.startFlows (s : State) (k : Nat) (found : StartReport) : State :=
  let kept := if coldStart k then [] else (s.queue 0x0A).items
  let s := { s with
    fe := { s.fe with flows := [], hold := [], fabricMv := 0, lastLower := s.clk.mono, deadlineMisses := 0, pastDeadline := false
                      sinceReplay := [0, 0, 0, 0], forced := 0, missed := 0, emptied := 0 }
    qm := { s.qm with queues := [], claims := []
                      retired := if k = 0 then s.qm.retired.filter found.cellFails.contains else s.qm.retired }
    bs := { Backstep.reset with horizon := s.tb } }
  if kept.isEmpty then s else s.setQueue 0x0A { s.queue 0x0A with items := kept }

/-! ## Light plan and Promenade -/

/-- What the control core held in its own memory is lost; the commands of overrides still ahead are to be issued again. -/
def State.startPlan (s : State) : State :=
  { s with
    plan := { s.plan with
      overrides := s.plan.overrides.map (fun o =>
        { o with startSent := o.startSent && decide (o.start ≤ s.tb), endSent := false })
      temps := [], nights := [], issued := [], live := [], held := [], coreHeld := [], coreCount := 0, late := .reset
      diag := s.plan.diag.map (fun e => (e.1, { e.2 with pulseUntil := none }))
      photo := { dark := s.io.photoDark, since := s.clk.mono, counted := none } }
    prom := { s.prom with tracks := [], cover := [], loose := [], batches := [], load := .reset } }

/-! ## Mesh (R298, R304, R317) -/

/-- A band-plan parameter differs from the value the radios run (R298). -/
def State.bandChanged (s : State) : Bool :=
  let b := s.mesh.band
  b.phy != s.num 0x5001 || b.panId != s.num 0x5003 || b.ch0 != s.num 0x5004 || b.spacing != s.num 0x5005 ||
    b.hop != (s.value 0x5006 0).bytes

def State.startMesh (s : State) (k : Nat) (found : StartReport) : State :=
  let fresh := coldStart k || (k != 6 && s.bandChanged)
  let radios := s.mesh.radios.mapIdx (fun r x =>
    let y : Radio := { x with selfTestFailed := found.radioFails.contains r, counter := x.committed }
    if fresh then { y with skipping := 0, rx := 0, tx := 0, ccaBusy := 0, acksWithheld := 0 } else y)
  let s := { s with mesh := { s.mesh with
    radios := radios, flights := [], probes := [], activations := [], unknownAt := [], leaveSecond := 0
    leaveCount := 0, load := .reset } }
  if fresh then s.freshRadios else s

/-! ## Metering, output chain, ring and time -/

def State.startMeter (s : State) (k : Nat) (found : StartReport) : State :=
  let s := if coldStart k then s.meterRestore found.badMeterSlots else s
  { s with mt.circuits := s.mt.circuits.map (fun e => (e.1, { e.2 with recon := Recon.none_ }))
           mt.inputs := s.mt.inputs.map (fun x => { x with freq := 0, vRms := 0 }) }

/-- NOP first, then the sensed levels (R408). -/
def State.startChain (s : State) : State :=
  { s with oc := { s.oc with
      circuits := s.oc.circuits.map (fun e =>
        (e.1, { e.2 with commanded := false, dwellWait := false, inrushWait := false, sensed := 2 }))
      latches := Chain.reset.latches, phase := 0, due := true } }

/-- A port after a start: its mode straps are read at power-on alone (R419); its link is lost with the supply. -/
def RingPort.start (p : RingPort) (k mode mono : Nat) : RingPort :=
  if coldStart k then { RingPort.reset with mode := if k = 0 then mode else p.mode, delayInvalidSince := mono }
  else { p with delayValid := false, delayInvalidSince := mono, delays := [], delay := 0, okRun := 0, failRun := 0, asked := false
                expressQ := [], preemptQ := [], fwdQ := [] }

def State.startRing (s : State) (k : Nat) (found : StartReport) : State :=
  let ring := { s.ring with
    a := s.ring.a.start k found.modeA s.clk.mono, b := s.ring.b.start k found.modeB s.clk.mono, copies := [] }
  { s with ring := if coldStart k then
      { ring with closed := false, heardA := [], heardB := [], delivered := [], mismatchSecond := none } else ring }

/-- The time base starts from the RTC, and the time state is FREE (R439, Table 11.6). -/
def State.startTime (s : State) : State :=
  let s := if s.pwr.slowLost then
      { s with rtc := { Rtc.reset with secondAt := s.clk.mono, celsius := s.rtc.celsius }, pwr.wokeAt := 0 }
    else { s with rtc.load := false }
  let s := { s with ptp := { Ptp.reset with active := s.preferredPort } }
  let s := s.setTimeBase s.tbFromRtc
  { s with ptp.rawRef := s.tb % pow32, ptp.extRef := s.tb, ptp.refAt := s.clk.mono }

/-! ## Recorder, counters, updates, link -/

/-- A record that a start finds with a CRC that fails keeps it (R488). -/
def RecEntry.found (found : StartReport) (r : RecEntry) : RecEntry :=
  match found.badRecords.find? (fun e => e.1 == r.seq) with
  | some e => { r with badCrc := some e.2 }
  | none => r

def State.startRecorder (s : State) (k : Nat) (found : StartReport) : State :=
  { s with
    ev.state := 0, ev.failRun := 0
    ev.general := s.ev.general.map (RecEntry.found found), ev.pinned := s.ev.pinned.map (RecEntry.found found)
    ev.queue := if k ≤ 1 then [] else s.ev.queue
    ev.lastGasp := if k ≤ 1 then [] else if k = 7 then s.ev.lastGaspCopy else s.ev.lastGasp
    perf := { values := [], sinceSample := [], samples := []
              meters := (List.range 16).map (fun m => { WindowMeter.reset with window := s.num 0x8492 m, windowStart := s.tb }) } }

def State.startLink (s : State) : State :=
  { s with link := { Link.reset with floor := s.link.floor, floorEp := s.link.floorEp, heldAtReset := s.link.heldAtReset }
           hl := .reset, hs.cursors := [], hs.stallSince := none, hs.discarded := none, hs.work := none, hs.forced := 0
           hs.minute := .reset
           hs.tiers := s.hs.tiers.map (fun x => { x with hourBytes := 0, hourStart := s.clk.mono, lastHour := none }) }

/-- Receipts from the ring resume from the first byte not held; what a card was being read for is dropped (R542, R596). -/
def State.startUpdates (s : State) : State :=
  { s with up.waiting := [], up.card := none, up.nextFetch := s.tb, up.startAt := s.clk.mono, up.ranSince := true
           up.receipt := s.up.receipt.filter (fun r => r.from_.isSome) }

/-! ## Power (R574, R577, R580) -/

/-- The counts and records of the start itself. -/
def State.startCounts (s : State) (k : Nat) : State :=
  let gasping := s.pwr.state == Power.lastGasp
  let at_ := if s.powered then s.pwr.opSecondAt else s.pwr.opSecondAt + (s.clk.mono - s.pwr.downAt)
  let s := { s.bump 0xA080 k with
    pwr.state := if gasping then Power.lastGasp else Power.run, pwr.lastReset := k, pwr.opSecondAt := at_, pwr.offByBrownOut := false, pwr.pendingStart := none
    pwr.holdByCommand := gasping && s.pwr.holdByCommand, pwr.vinLost := false, pwr.idleSince := none, pwr.vbatShown := 0, pwr.coreReduced := false }
  let s := if coldStart k then
      let n := (s.pwr.cycles + 1) % pow32
      { s with pwr.cycles := n, pwr.cyclesCopy := n, pwr.opCopy := s.pwr.opSeconds }
    else s
  let s := if s.pwr.slowLost then
      { s with pwr.slowLost := false }.record 0xA003 0x16 (u32 s.pwr.opSeconds ++ u32 s.pwr.cycles)
    else s
  match s.pwr.shortGasp with
  | some (n, step) => { s with pwr.shortGasp := none }.record 0xA004 0x16 (u16 n ++ u8 step ++ u8 0)
  | none => s

/-- The record of the reset's end, and of a Holder's that it unbound (R82, R483). -/
def State.recordReset (s : State) : State :=
  let s := s.record 0x10E1 0x00 s.resetDone
  match s.link.heldAtReset with
  | some f => s.record 0x20E0 0xFF (holderChanged f f 4 none)
  | none => s

/-- The present levels are launched, from the resolved night or bright (R134, R135). -/
def State.startLight (s : State) : State :=
  if s.civilKnown then s.resolveNights
  else (s.relaunch s.points (s.tb + s.num 0x3020 * sec) 0).demandAll

/-- A start of kind `k` gets to RUN. -/
def State.starts (s : State) (k : Nat) (found : StartReport) : State :=
  let s := (s.startTime.startParams k found).startLink.startRecorder k found
  let s := ((s.startFlows k found).startEngines k found).startGraphs
  let s := ((s.startPlan.startMesh k found).startMeter k found).startChain.startRing k found
  let s := ((s.startCounts k).recordReset.startKeys found).startUpdates
  let s := if coldStart k then s.histRestart else s
  s.startArms.startLight.fetch

/-- START: the supplies meet R573 and a start is pending. Firmware that does not get to RUN leaves it pending (R539). -/
def State.start (s : State) (found : StartReport) : State :=
  match s.pwr.pendingStart with
  | none => s
  | some p =>
    if s.pwr.vinMv < 4550 then s
    else
      let k := if s.pwr.slowLost then 0 else p
      let s := s.bootFirmware found
      if found.runs then s.starts k found
      else { s with pwr.state := if s.pwr.state = .lastGasp then Power.lastGasp else Power.run
                    up.startAt := s.clk.mono, up.ranSince := false }

/-- START (R583). -/
def execStart (dt : Ns) (found : StartReport) (s : State) : Host.Outcome State Fault Refusal :=
  always dt (fun s => s.start found) s

end Sys2Proof.Machine
end

