-- ==== Sys2Proof/Machine/ParamView.lean ====
section
/-!
DEFINITION. PARAM_GET (R83–R90): what the module shows of each parameter, the read-only ones computed from its state.
-/

namespace Sys2Proof.Machine

/-! ## Read-only values -/

/-- link.holder_kind. -/
def State.holderKind (s : State) : Nat :=
  if !s.link.bound then 0
  else match s.link.floorEp with
    | some (.ring _) => 1
    | some .host => 2
    | some .uart => 3
    | none => 0

/-- link.session_mac: ring sessions in the order in which they opened. -/
def State.sessionMac (s : State) (i : Nat) : Nat :=
  match (s.ringSessions[i]?).map (fun (x : Session) => x.ep) with
  | some (.ring m) => m.toNat
  | _ => 0

/-- Sequence of the current store copy (sys.commit_seq). -/
def State.commitSeq (s : State) : Nat := if laterCopy s.par.copyA.seq s.par.copyB.seq then s.par.copyB.seq else s.par.copyA.seq

/-- Distinct IDs staged (R93). -/
def stagedIds (t : Table PVal) : Nat := ((t.map (fun e => e.1 / 65536)).dedup).length

/-- Points of sections with Promenade on that have no place (R174). -/
def State.unplaced (s : State) : Nat :=
  (s.plan.lamps.filter (fun e => s.flag 0x4080 e.2.section_ && (tget s.prom.places e.1).isNone)).length

/-- Nodes that are joined, or silent. -/
def State.nodesIn (s : State) (p : Node → Bool) : Nat :=
  (s.mesh.nodes.filter (fun e => (e.2.state == 1 || e.2.state == 2) && p e.2)).length

/-- Read-only parameters of groups 0x10 to 0x50. -/
def State.shownLow (s : State) (id idx : Nat) : Nat :=
  match id with
  | 0x1001 => if s.is16C then 2 else 1
  | 0x1002 => s.id.serial
  | 0x1020 => s.commitSeq
  | 0x1021 => stagedIds s.link.staged
  | 0x2010 => s.link.floor.toNat
  | 0x2011 => s.holderKind
  | 0x2080 => s.sessionMac idx
  | 0x30F3 => (s.plan.diag.filter (fun e => e.2.state == 2)).length
  | 0x40F0 => s.prom.tracks.length
  | 0x40F9 => s.unplaced
  | 0x4804 => s.enginesLive
  | 0x4825 => min 65535 ((s.tb - s.horizon) / ms)
  | 0x4826 => s.ckptFree
  | 0x4827 => s.logFree
  | 0x4880 => (s.engine idx).state
  | 0x4883 => s.liveFlows idx
  | 0x4C01 => s.cellsFree
  | 0x4C02 => s.qm.retired.length
  | 0x4C85 => s.depth idx
  | 0x5083 => s.nodesIn (fun n => n.radio == idx)
  | 0x5084 => s.nodesIn (fun n => n.imageType == idx)
  | 0x50F0 => s.nodesIn (fun n => n.state == 1)
  | 0x50F1 => s.nodesIn (fun n => n.state == 2)
  | _ => s.counter id idx

/-- Read-only parameters of groups 0x60 to 0x70. -/
def State.shownMid (s : State) (id idx : Nat) : Nat :=
  match id with
  | 0x6020 => s.sparesFree - s.sparesLent
  | 0x6082 => ((s.mt.inputs[idx]?).getD .reset).freq
  | 0x6083 => ((s.mt.inputs[idx]?).getD .reset).vRms
  | 0x6084 => (s.converter (48 + idx)).calStamp
  | 0x60A0 => (s.metered idx).regs.imp
  | 0x60A1 => (s.metered idx).regs.exp
  | 0x60A2 => (s.metered idx).regs.lag
  | 0x60A3 => (s.metered idx).regs.lead
  | 0x60A4 => (s.metered idx).regs.imp / 1000
  | 0x60A5 => (s.metered idx).regs.exp / 1000
  | 0x60A6 => 4 ^ (s.metered idx).gain
  | 0x60A9 => (s.converter idx).calStamp
  | 0x60AA => (s.metered idx).recon.state
  | 0x6880 => (s.latch idx).state
  | 0x6881 => (s.latch idx).claim.toNat
  | 0x6890 => s.forceMode idx
  | 0x6891 => bit (s.circuitOf idx).commanded
  | 0x6892 => (s.circuitOf idx).sensed
  | 0x7085 => (s.port (if idx = 0 then .A else .B)).link.speed
  | 0x7086 => (s.port (if idx = 0 then .A else .B)).delay
  | _ => s.counter id idx

/-- Read-only parameters of groups 0x78 to 0xA0. -/
def State.shownHigh (s : State) (id idx : Nat) : Nat :=
  let arm := (tget s.up.arms idx).filter (fun a => !a.pending)
  match id with
  | 0x7880 => 4 * (s.tier idx).size
  | 0x7881 => 4 * (s.tier idx).blocks.length
  | 0x7882 => s.histOldest idx
  | 0x7883 => s.histNewest idx
  | 0x78F3 => s.hs.spare
  | 0x78F4 => s.eraseMean
  | 0x78F5 => maxOf (s.hs.erases.map Prod.snd)
  | 0x8001 => s.ev.state
  | 0x84F1 => s.perf.samples.length
  | 0x9001 => s.ks.lifecycle
  | 0x9080 => s.slotState idx
  | 0x9081 => (s.slot idx).rec_.gen
  | 0x9082 => (s.slot idx).rec_.attrs
  | 0x9881 => (arm.map (fun a => a.imageId)).getD 0
  | 0x9882 => (arm.map (fun a => a.instant)).getD 0
  | 0xA014 => bit s.rtc.valid
  | 0xA020 => s.pwr.state.code
  | 0xA025 => s.fe.fabricMv
  | 0xA026 => s.pwr.vinMv
  | 0xA027 => s.pwr.vbatShown
  | 0xA028 => s.pwr.cycles
  | 0xA029 => s.pwr.opSeconds
  | _ => s.counter id idx

/-- What the module shows of an element. -/
def State.shown (s : State) (r : ParamRow) (idx : Nat) : PVal :=
  if r.id = 0xA010 ∨ r.id = 0xA012 ∨ r.id = 0xA013 then s.slowValue r.id
  else if !r.readOnly || r.id == 0xA011 then s.value r.id idx
  else if r.id < 0x6000 then .num (s.shownLow r.id idx)
  else if r.id < 0x7800 then .num (s.shownMid r.id idx)
  else .num (s.shownHigh r.id idx)

/-- One more tier's hs.retain_est. -/
def retainMore (a : List PVal × State) (t : Nat) : List PVal × State :=
  (a.1 ++ [.num (a.2.retention t).1], (a.2.retention t).2)

/-- The elements of a parameter that the module has; the estimate of hs.retain_est may be a free value. -/
def State.shownAll (s : State) (r : ParamRow) : List PVal × State :=
  if r.id = 0x7884 then
    (List.range 3).foldl retainMore ([], s)
  else ((List.range (r.dom.fitted s)).map (s.shown r), s)

/-- A value on the wire (Table 3.2). -/
def PVal.wire (t : PType) (v : PVal) : List Byte :=
  match t with
  | .bool | .enum => u8 v.int.toNat
  | .u n => le n v.int.toNat
  | .i n => leI n v.int
  | .pid48 => le 6 v.int.toNat
  | .mac => be 6 v.int.toNat
  | .text | .bytes => v.bytes

/-! ## PARAM_GET -/

/-- One entry of the response: ID, length, value padded to 4 bytes (R86, R87). -/
def State.paramEntry (s : State) (r : ParamRow) : List Byte × State :=
  let x := s.shownAll r
  let body := (x.1.map (PVal.wire r.type)).flatten
  let value := if r.dom = .scalar then body else u16 0 ++ u16 x.1.length ++ body
  (u16 r.id ++ u16 value.length ++ padTo 4 value, x.2)

def paramGetBody (r : Req) (s : State) : Result :=
  let ids := (entries 2 r.payload).map fromLe
  let rows := ids.filterMap paramRow
  if ids.isEmpty ∨ 64 < ids.length then fail stRange s
  else if rows.length ≠ ids.length then fail stUnsupported s
  else
    let x := rows.foldl (fun (a : List Byte × State) row => let y := a.2.paramEntry row; (a.1 ++ y.1, y.2)) ([], s)
    if 1472 < 4 + x.1.length then fail stRange s else ok (u16 ids.length ++ u16 0 ++ x.1) x.2

def paramGetCommand : Command :=
  { opcode := 0x1003, access := .holder, firstLane := 1, layout := counted 2, body := paramGetBody }

/-- PARAM_GET (R87, R89, R90). -/
def execParamGet (r : Req) (s : State) : Host.Outcome State Fault Refusal := shotas paramGetCommand r s

/-! ## PARAM_SET (R88, R91–R93) -/

/-- `n` entries of ID, length and padded value, with the bytes after them. -/
def parseEntries (n : Nat) (b : List Byte) : Option (List (Nat × List Byte) × List Byte) :=
  match n with
  | 0 => some ([], b)
  | n + 1 =>
    let len := fld b 2 2
    let step := 4 + len + (4 - len % 4) % 4
    if b.length < 4 ∨ b.length < step then none
    else match parseEntries n (b.drop step) with
      | none => none
      | some (es, rest) => some ((fld b 0 2, slice b 4 len) :: es, rest)

/-- The entries of a PARAM_SET payload, if they exactly fill it. -/
def setEntries (p : List Byte) : Option (List (Nat × List Byte)) :=
  if p.length < 4 then none
  else match parseEntries (fld p 0 2) (p.drop 4) with
    | some (es, []) => some es
    | _ => none

/-- clk.dst_start and clk.dst_end (Table 16.1). -/
def dstOk (v : Nat) : Bool :=
  v == 0 || (v < 2 ^ 21 && 1 ≤ v % 16 && v % 16 ≤ 12 && 1 ≤ v / 16 % 8 && v / 16 % 8 ≤ 5 && v / 128 % 8 ≤ 6 &&
    v / 1024 ≤ 1439)

/-- Luminance class codes (Table 4.3). -/
def classCodeOk (v : Nat) : Bool :=
  v == 0 || (1 ≤ v && v ≤ 6) || (0x10 ≤ v && v ≤ 0x15) || (0x21 ≤ v && v ≤ 0x26)

/-- The counter events (Table 13.4). -/
def perfEvents : List Nat :=
  [0x0001, 0x0002, 0x0003, 0x0004, 0x0010, 0x0011, 0x0012, 0x0013, 0x0020, 0x0021, 0x0030, 0x0031, 0x0040, 0x0041,
    0x0050, 0x0060, 0x0061, 0x0070]

/-- What a parameter's Meaning asks of a number beyond its bounds. -/
def State.meaningOk (s : State) (id idx v : Nat) : Bool :=
  match id with
  | 0x1010 => v % 16384 == 0x3EFF
  | 0x2001 => [115200, 230400, 460800, 921600, 1000000, 2000000, 3000000].contains v
  | 0x3080 | 0x3081 | 0x3082 | 0x3083 | 0x3084 => v % 16384 ≤ 1439
  | 0x3090 | 0x3091 | 0x3092 | 0x3093 | 0x3094 | 0x3095 | 0x3098 | 0x3099 | 0x309A | 0x309B | 0x309C | 0x309D =>
    classCodeOk v
  | 0x4C80 | 0x4C81 | 0x4C84 => idx < 12
  | 0x4C83 => idx < 12 && (v == 0 || 100 ≤ v)
  | 0x8480 => v == 0 || perfEvents.contains v
  | 0x8482 => v == 0 || 1000 ≤ v
  | 0x8490 => v ≤ 8 || v == 0xFF
  | 0x9802 => v ≤ 63 || v == 0xFF
  | 0x9880 => s.num 0x9880 idx ≤ v
  | 0xA003 | 0xA004 => dstOk v
  | 0xA012 => v ≤ 16 || v == 0x7F || 0xF8 ≤ v
  | _ => true

/-- The number an element's bytes spell. -/
def PType.number (t : PType) (b : List Byte) : Int :=
  match t with
  | .i n => signed n (fromLe b)
  | .mac => fromBe b
  | _ => fromLe b

/-- A number lies in its parameter's range. -/
def State.inRange (s : State) (r : ParamRow) (idx : Nat) (v : Int) : Bool :=
  r.lo ≤ v && v ≤ r.hi && s.meaningOk r.id idx v.toNat

/-- mesh.fallback_drive is one drive code: four u16 of at most 10,000 (Tables 4.7, 8.16). -/
def driveOk (b : List Byte) : Bool := b.length == 8 && (List.range 4).all (fun i => fld b (2 * i) 2 ≤ 10000)

/-- Text or bytes: length, then content. -/
def blobStatus (r : ParamRow) (b : List Byte) : Nat :=
  if (if r.type = .text then 32 else 64) < b.length then stFormat
  else if r.type = .text ∧ !utf8 b then stRange
  else if r.id = 0x5014 ∧ !driveOk b then stRange
  else stOk

/-- A meter source that names a radio the module lacks (Table 13.5). -/
def State.radioMissing (s : State) (r : ParamRow) (v : Int) : Bool := s.is16C && r.id == 0x8490 && 4 ≤ v && v ≤ 6

/-- One entry's checks in the order of R91, and its values by key. -/
def State.entryValues (s : State) (custodian : Bool) (e : Nat × List Byte) : Nat × List (Nat × PVal) :=
  match paramRow e.1 with
  | none => (stUnsupported, [])
  | some r =>
    if r.custodian ∧ !custodian then (stClassDenied, [])
    else if r.readOnly then (stRange, [])
    else match r.type.width with
      | none => (blobStatus r e.2, [(pkey r.id 0, .blob e.2)])
      | some w =>
        let indexed := decide (r.dom ≠ .scalar)
        let start := if indexed then fld e.2 0 2 else 0
        let n := if indexed then fld e.2 2 2 else 1
        let data := if indexed then e.2.drop 4 else e.2
        let vs := (List.range n).map (fun i => (start + i, r.type.number (slice data (w * i) w)))
        if (indexed ∧ e.2.length < 4) ∨ data.length ≠ n * w then (stFormat, [])
        else if n = 0 ∨ r.dom.size < start + n then (stRange, [])
        else if !vs.all (fun v => s.inRange r v.1 v.2) then (stRange, [])
        else if r.dom.fitted s < start + n ∨ vs.any (fun v => s.radioMissing r v.2) then (stAbsent, [])
        else (stOk, vs.map (fun v => (pkey r.id v.1, .num v.2)))

/-- Merge entries into the staging area until one fails (R91, R92). -/
def State.stage (s : State) (custodian : Bool) (t : Table PVal) (es : List (Nat × List Byte)) : Nat × Table PVal :=
  match es with
  | [] => (stOk, t)
  | e :: rest =>
    let x := s.entryValues custodian e
    if x.1 = stOk then s.stage custodian (x.2.foldl (fun t v => tput t v.1 v.2) t) rest else (x.1, t)

/-- Value bytes staged (R93). -/
def stagedBytes (t : Table PVal) : Nat :=
  sumOf (t.map (fun e => match e.2 with
    | .blob b => b.length
    | .num _ => (((paramRow (e.1 / 65536)).bind (fun r => r.type.width)).getD 0)))

def paramSetBody (r : Req) (s : State) : Result :=
  let es := (setEntries r.payload).getD []
  if es.isEmpty ∨ 64 < es.length then fail stRange s
  else
    let x := s.stage (r.src = .uart) s.link.staged es
    if x.1 ≠ stOk then fail x.1 s
    else if 256 < stagedIds x.2 ∨ 8192 < stagedBytes x.2 then fail stRange s
    else ok [] { s with link.staged := x.2, link.stagedAt := s.clk.mono }

def paramSetCommand : Command :=
  { opcode := 0x1004, access := .holder, firstLane := 1, layout := fun p => (setEntries p).isSome, body := paramSetBody }

/-- PARAM_SET (R88, R91–R93). -/
def execParamSet (r : Req) (s : State) : Host.Outcome State Fault Refusal := shotas paramSetCommand r s

/-- PARAM_ABORT empties the staging area (R98). -/
def paramAbortCommand : Command :=
  { opcode := 0x1006, access := .holder, firstLane := 1, layout := isEmpty, body := fun _ s => ok [] s.unstage }

/-- PARAM_ABORT (R98). -/
def execParamAbort (r : Req) (s : State) : Host.Outcome State Fault Refusal := shotas paramAbortCommand r s

end Sys2Proof.Machine
end

