-- ==== Sys2Proof/Machine/Commit.lean ====
section
/-!
DEFINITION. PARAM_COMMIT (R94–R97): the cross-parameter rules of every chapter, the store copy, and what follows from the values
that change.
-/

namespace Sys2Proof.Machine

/-! ## Rules, each over the state the commit would leave (R94) -/

/-- Class codes of the three series, lowest number first (Table 4.3). -/
def classSeries : List (List Nat) := [[1, 2, 3, 4, 5, 6], [0x10, 0x11, 0x12, 0x13, 0x14, 0x15], [0x21, 0x22, 0x23, 0x24, 0x25, 0x26]]

/-- The level of a class in a section; OFF has none. -/
def State.levelOfClass (s : State) (sect code : Nat) : Nat := if code = 0 then 0 else s.num (0x30B0 + code) sect

/-- A lower-numbered class never has the lower non-zero level. -/
def falling (l : List Nat) : Bool :=
  match l with
  | [] => true
  | a :: rest => rest.all (fun b => a == 0 || b ≤ a) && falling rest

def State.sectionLevelsOk (s : State) (sect : Nat) : Bool :=
  (List.range 6).all (fun b =>
    let a := s.num (0x3090 + b) sect
    let r := s.num (0x3098 + b) sect
    (a == 0 || s.levelOfClass sect a != 0) && (r == 0 || s.levelOfClass sect r != 0) &&
      s.levelOfClass sect r ≤ s.levelOfClass sect a) &&
    classSeries.all (fun cs => falling (cs.map (s.levelOfClass sect)))

/-- R138. -/
def State.lightRule (s : State) : Bool :=
  (List.range 256).all (fun n => !s.flag 0x30A0 n || s.sectionLevelsOk n) && s.num 0x3031 ≤ s.num 0x3030 && s.flag 0x3089 0

/-- R213. -/
def State.promRule (s : State) : Bool :=
  s.num 0x4013 ≤ s.num 0x4016 && s.num 0x4014 ≤ s.num 0x4016 && s.num 0x4015 ≤ s.num 0x4016 &&
    s.num 0x4002 + 120 ≤ s.num 0x4001 && s.num 0x4026 < s.num 0x4027 &&
    (List.range 256).all (fun n => !s.flag 0x4080 n || (s.flag 0x30A0 n && (s.sectionOf n).isSome))

/-- R258. -/
def State.queueRule (s : State) : Bool :=
  (List.range 256).all (fun q => s.num 0x4C82 q ≤ s.capacity q && s.reserve q ≤ s.capacity q) &&
    sumOf ((List.range 12).map s.reserve) ≤ 8192

/-- R295. -/
def State.backstepRule (s : State) : Bool := s.num 0x4823 ≤ 8192 && s.num 0x4824 ≤ 16384

/-- R357. -/
def State.meshRule (s : State) : Bool :=
  let hop := (s.value 0x5006 0).bytes
  s.num 0x5009 ≤ (if s.num 0x5001 = 0 then 18 else 45) && 900 % s.num 0x500C == 0 && 2 * s.num 0x500B ≤ s.num 0x5011 &&
    s.num 0x500D ≤ s.num 0x500E &&
    (hop.isEmpty || (4 ≤ hop.length && hop.all (fun c =>
      let f := s.num 0x5004 + c.toNat * s.num 0x5005
      470000 ≤ f && f ≤ 960000) && (s.num 0x5008 ≤ 1 || s.radiosFitted < hop.length)))

/-- i_nom lies within Imax / 20 to Imax / 2, with Imax² = 2025 s² / 2³³ in (0.01 A)² for the scale s (R370, R399). -/
def State.nominalOk (s : State) (c : Nat) : Bool :=
  let n := s.num 0x6093 c
  let scale := (s.int 0x6091 c).natAbs
  4 * n * n * 2 ^ 33 ≤ 2025 * scale * scale && 2025 * scale * scale ≤ 400 * n * n * 2 ^ 33

/-- R399. -/
def State.meterRule (s : State) : Bool :=
  s.num 0x6005 + s.num 0x6006 < s.num 0x6003 && s.num 0x6010 % s.num 0x500C == 0 && 3600 % s.num 0x6010 == 0 &&
    (List.range s.circuitsFitted).all (fun c => !s.flag 0x1081 c || (s.flag 0x6081 (s.num 0x6090 c) && s.nominalOk c))

/-- R418. -/
def State.chainRule (s : State) : Bool :=
  (List.range s.circuitsFitted).all (fun c => !s.flag 0x1081 c || c / 8 < s.num 0x6801) &&
    47 * s.num 0x6803 ≤ 1000 * s.num 0x3024

/-- R453. -/
def State.ringRule (s : State) : Bool := s.num 0x7007 < s.num 0x7008 && 10 * s.num 0x7028 < s.num 0x7025

/-- A filter lies in its event's domain, or says "any" (Table 13.4). -/
def filterOk (event filter : Nat) : Bool :=
  if event = 0 then true
  else if event = 0x0030 then filter < 23 && filter != 7
  else filter == 0xFFFF ||
    (match event with
     | 0x0001 | 0x0002 | 0x0003 => filter < 16
     | 0x0004 | 0x0020 | 0x0021 => filter < 8
     | 0x0010 | 0x0011 | 0x0012 | 0x0013 => filter < 256
     | 0x0040 | 0x0041 => filter < 4
     | 0x0050 | 0x0060 | 0x0061 => filter < 2
     | _ => false)

/-- The three cases of R503 that are RANGE. -/
def State.countersRule (s : State) : Bool :=
  [0, 7, 13, 14, 15].all (fun c => s.flag 0x8080 c && s.flag 0x8081 c) &&
    (List.range 64).all (fun c =>
      filterOk (s.num 0x8480 c) (s.num 0x8481 c) && (s.num 0x8482 c == 0 || !perfIsLevel (s.num 0x8480 c)))

/-- No filter names a radio, a unit of one, or a NAND package that the module lacks (R3, R503). -/
def State.filtersFitted (s : State) : Bool :=
  !s.is16C || (List.range 64).all (fun c =>
    let e := s.num 0x8480 c
    let f := s.num 0x8481 c
    !(((e == 0x0040 || e == 0x0041) && 1 ≤ f && f < 4) || (e == 0x0030 && 9 ≤ f && f < 12) ||
      ((e == 0x0060 || e == 0x0061) && f == 1)))

/-- The role slots of Table 14.3 that role parameters name. -/
def State.roleSlots (s : State) : List Nat := [s.num 0x9002, s.num 0x9003, s.num 0x9004, s.num 0x9004 + 1]

/-- R532. -/
def State.rolesRule (s : State) : Bool :=
  decide s.roleSlots.Nodup && s.roleSlots.all (fun i => i < s.slotsFitted)

/-- R560. -/
def State.updateRule (s : State) : Bool :=
  let k := s.num 0x9801
  let next := s.num 0x9802
  k + 1 < s.slotsFitted && !s.roleSlots.contains k && !s.roleSlots.contains (k + 1) &&
    (next == 0xFF || (next != pidSegment s.ownPid && (tget s.ring.peers next).isSome))

/-- R587. -/
def State.clockRule (s : State) : Bool :=
  ((s.num 0xA003 == 0) == (s.num 0xA004 == 0)) && (s.value 0xA010 0).bytes.length == 64

/-- The status the rules give a commit (R94). -/
def State.rulesStatus (s : State) : Nat :=
  if !(s.lightRule && s.promRule && s.queueRule && s.backstepRule && s.meshRule && s.meterRule && s.chainRule && s.ringRule &&
      s.countersRule && s.rolesRule && s.updateRule && s.clockRule) then stRange
  else if !s.filtersFitted then stAbsent
  else stOk

/-! ## What follows from the values that change -/

/-- The prefix has changed: places of the module's own points carry the new one (log entry 52). -/
def State.rePrefix (s : State) (old : Nat) : State :=
  let f (p : Pid) : Pid := if pidPrefix p = old then mkPid s.ownPrefix (pidCircuit p) (pidPoint p) else p
  { s with
    plan.lamps := s.plan.lamps.map (fun e => (e.1, { e.2 with point := f e.2.point }))
    plan.overrides := s.plan.overrides.map (fun o => { o with target := f o.target })
    mesh.nodes := s.mesh.nodes.map (fun e => (e.1, { e.2 with point := f e.2.point }))
    mesh.map := s.mesh.map.map (fun e => (e.1, f e.2))
    mt.spans := s.mt.spans.map (fun e => (e.1, { e.2 with point := f e.2.point, upstream := f e.2.upstream })) }

/-- Metrology parameters (R360). -/
def metrology (id : Nat) : Bool := [0x6001, 0x6002, 0x6080, 0x6081, 0x6090, 0x6091, 0x6092, 0x6093].contains id

/-- METROLOGY: one record for each metrology value changed (R360, Table 13.3). -/
def State.recordMetrology (s : State) (before : State) (class_ : Nat) (keys : List Nat) : State :=
  (keys.filter (fun k => metrology (k / 65536))).foldl (fun s k =>
    let id := k / 65536
    let i := k % 65536
    let scalar := (paramRow id).any (fun r => r.dom == .scalar)
    s.record 0x6001 0x0E (u16 id ++ u8 (if scalar then 0xFF else i) ++ u8 class_ ++ leI 8 (before.int id i) ++ leI 8 (s.int id i))) s

/-- A counter whose select or filter changes is set to 0 (R496). -/
def State.clearCounters (s : State) (keys : List Nat) : State :=
  let cs := (keys.filter (fun k => k / 65536 == 0x8480 || k / 65536 == 0x8481)).map (fun k => k % 65536)
  { s with perf.values := tkeep s.perf.values (fun c _ => !cs.contains c)
           perf.sinceSample := tkeep s.perf.sinceSample (fun c _ => !cs.contains c) }

/-- Joined nodes hold configuration fields that come from these parameters (R329). -/
def nodeConfig (id : Nat) : Bool :=
  [0x3010, 0x3011, 0x5009, 0x500B, 0x500C, 0x500D, 0x500E, 0x5012, 0x5013, 0x5014].contains id

/-- Points of a section. -/
def State.pointsOfSection (s : State) (n : Nat) : List Pid :=
  (s.plan.lamps.filter (fun e => e.2.section_ == n)).map (fun e => e.2.point)

/-- The light plan follows: the night is resolved anew (R134), and points whose section's CCT or Promenade changed are launched
again (R157). -/
def State.lightFollows (s : State) (keys : List Nat) : State :=
  let ids := keys.map (fun k => k / 65536)
  let s := if ids.any (fun i => i / 256 == 0x30 || (0xA001 ≤ i && i ≤ 0xA004) || i == 0x702B) then s.startLight else s
  let sections := ((keys.filter (fun k => k / 65536 == 0x30A2 || k / 65536 == 0x4080)).map (fun k => k % 65536)).dedup
  let ps := sections.flatMap s.pointsOfSection
  let s := if ps.isEmpty then s else s.relaunchSoon ps 0
  if ids.any (fun i => i == 0x1081 || i == 0x6801) then s.demandAll else s

/-- A slow-domain value that a commit writes stands as it was until the second 32.768 kHz edge (R109). -/
def State.slowFollows (s : State) (before : State) (ids : List Nat) : State :=
  { s with rtc.slow := ([0xA010, 0xA012, 0xA013].filter ids.contains).foldl (fun t i =>
      tput t i (before.slowValue i, s.secondEdge)) s.rtc.slow }

/-- The slow domain, the ring, time and keys follow. -/
def State.unitsFollow (s : State) (before : State) (keys : List Nat) : State :=
  let ids := keys.map (fun k => k / 65536)
  let s := s.slowFollows before ids
  let s := if ids.contains 0x9003 then { s with ks.cache := [] } else s
  let s := if ids.contains 0x7020 then { s with ptp.heard := [] } else s
  let s := if ids.any (fun i => 0x7020 ≤ i && i ≤ 0x7024) then s.selectMaster else s
  let s := if ids.contains 0x7080 then
      let a := (s.port .A).link
      let b := (s.port .B).link
      let s := if s.flag 0x7080 0 then s else s.linkChange .A { a with speed := 0 }
      if s.flag 0x7080 1 then s else s.linkChange .B { b with speed := 0 }
    else s
  if ids.any nodeConfig then s.reconfigure (s.mesh.nodes.map (fun e => e.2.point)) else s

/-- Everything a commit changes besides the values. -/
def State.follows (s : State) (before : State) (class_ : Nat) (keys : List Nat) : State :=
  let s := (s.recordMetrology before class_ keys).clearCounters keys
  let s := if keys.contains (pkey 0x1010 0) then s.rePrefix before.ownPrefix else s
  let s := if keys.contains (pkey 0x4820 0) then { s with bs.horizon := max before.horizon s.horizon }.trim else s
  (s.unitsFollow before keys).lightFollows keys

/-! ## The commit -/

/-- The staged values applied at one instant. -/
def State.applied (s : State) : State := s.link.staged.foldl (fun s e => s.setValue (e.1 / 65536) (e.1 % 65536) e.2) s

/-- The older store copy takes the M and U values under the next sequence (R95, R96). -/
def State.writeStore (s : State) (vals : Table PVal) : State :=
  let c : StoreCopy :=
    { vals := vals.filter (fun e => keepOf e.1 == .m || keepOf e.1 == .u), seq := (s.commitSeq + 1) % pow32 }
  if laterCopy s.par.copyA.seq s.par.copyB.seq then { s with par.copyA := c } else { s with par.copyB := c }

/-- Keys whose value a commit changes. -/
def State.changedBy (s : State) (after : State) : List Nat :=
  (s.link.staged.map Prod.fst).filter (fun k => s.value (k / 65536) (k % 65536) != after.value (k / 65536) (k % 65536))

/-- Items in service when a commit comes complete on the values as they were (R95). -/
def State.keepOld (s : State) : State :=
  { s with fe.engines := s.fe.engines.map (fun e =>
      if e.cur.isSome ∧ e.old.isNone then { e with old := some s.par.vals } else e) }

/-- A commit that has passed its checks. -/
def State.commit (s : State) (class_ : Nat) : State :=
  let after := s.keepOld.applied
  ((after.writeStore after.par.vals).unstage).follows s class_ (s.changedBy after)

/-- The UART runs at the committed rate (R48). -/
def State.adoptRate (s : State) : State := { s with link.uartRate := s.num 0x2001 }

/-- The answer of a commit: with its plan items where some of them wait for room in queue 0x07 (R224), otherwise at once. -/
def State.commitAnswer (s after : State) (r : Req) (payload : List Byte) : Result :=
  match after.plan.held.reverse with
  | (it, none) :: rest =>
    if s.plan.held.length < after.plan.held.length then
      .wait { after with plan.held := ((it, some (r.src.endpoint, r.lane.toNat, payload)) :: rest).reverse }
    else .doneThen stOk payload after State.adoptRate
  | _ => .doneThen stOk payload after State.adoptRate

def paramCommitBody (r : Req) (s : State) : Result :=
  let st := s.applied.rulesStatus
  if s.link.staged.isEmpty then ok (u16 0) s
  else if st ≠ stOk then fail st s
  else s.commitAnswer (s.commit (classCode r.src)) r (u16 (stagedIds s.link.staged))

def paramCommitCommand : Command :=
  { opcode := 0x1005, access := .holder, firstLane := 1, layout := isEmpty, body := paramCommitBody }

/-- PARAM_COMMIT (R94–R97). -/
def execParamCommit (r : Req) (s : State) : Host.Outcome State Fault Refusal := shotas paramCommitCommand r s

end Sys2Proof.Machine
end

