-- ==== Sys2Proof/Machine/System.lean ====
section
/-!
DEFINITION. Groups 0x10 and 0x20 of the Shotas link (Table 2.8), except the parameter commands, and the link's own events.
-/

namespace Sys2Proof.Machine

/-! ## Group 0x10 -/

/-- The IDENTIFY response (Table 2.9). -/
def State.identity (s : State) : List Byte :=
  u8 (if s.is16C then 2 else 1) ++ u8 3 ++ u8 1 ++ u8 0 ++ u32 s.build ++ u64 s.id.serial ++ pidBytes s.ownPid ++
    u16 0 ++ u16 s.pointsFitted ++ u8 s.circuitsFitted ++ u8 s.radiosFitted ++ u8 s.slotsFitted ++ u8 s.up.active ++
    u16 s.historyGiB ++ u32 0 ++ u64 s.now

def identifyCommand : Command :=
  { opcode := 0x1001, access := .open_, firstLane := 1, layout := isEmpty, body := fun _ s => ok s.identity s }

/-- IDENTIFY (R6, Table 2.9). -/
def execIdentify (r : Req) (s : State) : Host.Outcome State Fault Refusal := shotas identifyCommand r s

/-- One unit's entry of HEALTH (Table 2.10). -/
def State.healthEntry (s : State) (u : Nat) : List Byte :=
  let h := s.unitHealth u
  u8 u ++ u8 h.state.code ++ u16 0 ++ u32 h.masked ++ u32 h.degraded ++ u32 h.out

/-- The HEALTH response (Table 2.10, R81). -/
def State.healthReport (s : State) : List Byte :=
  u64 s.now ++ u32 s.pwr.opSeconds ++ u8 s.units.length ++ zeros 3 ++ (s.units.map s.healthEntry).flatten

/-- All states are read at one instant, after any change the passing of time has brought (R41). -/
def healthBody (_ : Req) (s : State) : Result :=
  let s := s.settle
  ok s.healthReport s

def healthCommand : Command :=
  { opcode := 0x1002, access := .open_, firstLane := 1, layout := isEmpty, body := healthBody }

/-- HEALTH (R41, R81). -/
def execHealth (r : Req) (s : State) : Host.Outcome State Fault Refusal := shotas healthCommand r s

/-- One pending WARM_RESET is held, the later replacing the earlier; its delay counts from its admission (R622). -/
def warmResetBody (r : Req) (s : State) : Result :=
  let delay := fld r.payload 0 4
  if 60000 < delay then fail stRange s
  else ok [] { s with link.warmDue := some (s.admittedAt r + delay * ms) }

def warmResetCommand : Command :=
  { opcode := 0x1010, access := .holder, firstLane := 1, layout := exactly 4, body := warmResetBody }

/-- WARM_RESET (R622). -/
def execWarmReset (r : Req) (s : State) : Host.Outcome State Fault Refusal := shotas warmResetCommand r s

/-! ## Group 0x20: the Holder (Table 2.5) -/

/-- What every transition that changes F or the bound endpoint does: pending commands are overtaken (R77), the staging area
is emptied (R98), and a change of F makes an output-chain cycle due (R406). -/
def State.transition (s : State) (floor : Claim) (ep : Option Endpoint) (bound : Bool) : State :=
  let changed := decide (floor ≠ s.link.floor)
  { s.supersede.unstage with link.floor := floor, link.floorEp := ep, link.bound := bound,
                             oc.due := s.oc.due || changed }

/-- BIND's response: previous F, current F. -/
def floors (old new : Claim) : List Byte := u64 old.toNat ++ u64 new.toNat

/-- BIND accepted: F := c, E is recorded, OK is sent, and HOLDER_CHANGED follows it. -/
def State.bindTo (s : State) (c : Claim) (ep : Endpoint) : Result :=
  let old := s.link.floor
  .doneThen stOk (floors old c) (s.transition c (some ep) true)
    (fun s => s.raise 0x20E0 0xFF (holderChanged old c 1 (some ep)))

def bindBody (r : Req) (s : State) : Result :=
  let c := r.claim
  let ep := r.src.endpoint
  let f := s.link.floor
  if s.link.bound then
    if f.toNat < c.toNat then s.bindTo c ep
    else if c = f ∧ s.link.floorEp = some ep then ok (floors f f) s
    else fail stClaimLow s
  else if c = 0#64 then fail stRange s
  else if f.toNat < c.toNat then s.bindTo c ep
  else if c = f ∧ s.link.floorEp = some ep then s.bindTo c ep
  else fail stClaimLow s

def bindCommand : Command :=
  { opcode := 0x2001, access := .open_, firstLane := 1, layout := isEmpty, body := bindBody }

/-- BIND (R76). -/
def execBind (r : Req) (s : State) : Host.Outcome State Fault Refusal := shotas bindCommand r s

/-- The binding ends: `cause` 2 RELEASE, 3 FORCE_RELEASE. F and its endpoint stay (R76). HOLDER_CHANGED then names endpoint kind 0
and no MAC, for nobody is bound (log entry 81). -/
def State.unbind (s : State) (cause : Nat) (payload : List Byte) : Result :=
  let f := s.link.floor
  .doneThen stOk payload (s.transition f s.link.floorEp false)
    (fun s => s.raise 0x20E0 0xFF (holderChanged f f cause none))

/-- Unbound: NOT_HOLDER (Table 2.5); else the Holder check, then the binding ends. -/
def releaseBody (r : Req) (s : State) : Result :=
  if !s.link.bound then fail stNotHolder s
  else match s.holderCheck r.src.endpoint r.claim with
    | some st => fail st s
    | none => s.unbind 2 []

def releaseCommand : Command :=
  { opcode := 0x2002, access := .open_, firstLane := 1, layout := isEmpty, body := releaseBody }

/-- RELEASE (R76). -/
def execRelease (r : Req) (s : State) : Host.Outcome State Fault Refusal := shotas releaseCommand r s

def forceReleaseBody (_ : Req) (s : State) : Result :=
  if s.link.bound then s.unbind 3 (u64 s.link.floor.toNat) else ok (u64 0) s

def forceReleaseCommand : Command :=
  { opcode := 0x2003, access := .custodian, firstLane := 1, layout := isEmpty, body := forceReleaseBody }

/-- FORCE_RELEASE (R75, R76). -/
def execForceRelease (r : Req) (s : State) : Host.Outcome State Fault Refusal := shotas forceReleaseCommand r s

/-- The subscription is replaced. The Holder's session has every group by R67, so its mask leaves all out; another may name
only group 0x10 (R72). -/
def subscribeBody (r : Req) (s : State) : Result :=
  let ep := r.src.endpoint
  let asked : BitVec 256 := BitVec.ofNat 256 (fromLe r.payload)
  let mask : BitVec 256 := if s.holderSession ep then 0 else asked &&& BitVec.ofNat 256 (2 ^ 0x10)
  ok (le 32 mask.toNat) (s.onSession ep (fun x => { x with mask := mask }))

def subscribeCommand : Command :=
  { opcode := 0x2004, access := .open_, firstLane := 1, layout := exactly 32, body := subscribeBody }

/-- SUBSCRIBE (R72). -/
def execSubscribe (r : Req) (s : State) : Host.Outcome State Fault Refusal := shotas subscribeCommand r s

def sessionCloseBody (r : Req) (s : State) : Result :=
  .doneThen stOk [] s (fun s => s.lapse r.src.endpoint)

def sessionCloseCommand : Command :=
  { opcode := 0x2005, access := .open_, firstLane := 1, layout := isEmpty, body := sessionCloseBody }

/-- SESSION_CLOSE (R58): the session lapses after its response. -/
def execSessionClose (r : Req) (s : State) : Host.Outcome State Fault Refusal := shotas sessionCloseCommand r s

/-- Notices dropped for the session are told once room is there: a NOTICES_LOST before any later notice. While the queue is full
their count is kept (R70). -/
def State.noticesLost (s : State) (ep : Endpoint) : State :=
  match s.session? ep with
  | none => s
  | some x =>
    if x.dropped = 0 ∨ 256 ≤ x.notices.length then s
    else
      let n := u32 x.dropped
      ((s.onSession ep (fun x => { x with dropped := 0 })).record 0x20E1 0xFF n).noticeTo ep 0x20E1 n

/-- Notices up to and including sequence `n` are acknowledged, if `n` is among those sent (R69). -/
def acknowledge (n : Nat) (l : List Notice) : List Notice :=
  if l.any (fun m => m.seq == n && m.sentAt.isSome) then (l.dropWhile (fun m => m.seq != n)).drop 1 else l

/-- The effect of a NOTICE_ACK. -/
def State.acked (s : State) (ep : Endpoint) (n : Nat) : State :=
  let s := (s.onSession ep (fun x => { x with notices := acknowledge n x.notices })).noticesLost ep
  match s.session? ep with
  | some x => s.sendNotices ep (32 - x.inFlight)
  | none => s

/-- A NOTICE_ACK received: on lane 0 alone, four bytes; it is not answered (R54, R69; log entry 15). -/
def State.noticeAck (s : State) (r : Req) : State :=
  let ep := r.src.endpoint
  if !s.hears r.src then s.unheard r.src
  else if r.flags.getLsbD 0 then { s with link.counts.dirDiscards := s.link.counts.dirDiscards + 1 }
  else if r.lane ≠ 0#8 ∨ 1472 < r.payload.length then
    (s.touch r.src).respond r.src r.lane.toNat r.seq 0x2006 1 stFormat []
  else if s.noRoom ep then s.respondBusy r.src 0 r.seq 0x2006
  else
    let s := if (s.session? ep).isSome then s else s.openSession r.src
    let s := s.touch r.src
    if r.payload.length ≠ 4 then s.respond r.src 0 r.seq 0x2006 1 stFormat [] else s.acked ep (fld r.payload 0 4)

/-- NOTICE_ACK (R69). -/
def execNoticeAck (r : Req) (s : State) : Host.Outcome State Fault Refusal :=
  .next ((s.begin r.dt).noticeAck r).settle

/-! ## The link's own events -/

/-- An interim response for a command that has no final one yet (R63). -/
def State.interim (s : State) (ep : Endpoint) (n : Nat) : State :=
  let l := s.lane ep n
  match l.cmd with
  | some (op, r) =>
    if l.phase = .idle ∨ l.interimSent then s
    else (s.setLane ep n { l with interimSent := true }).respond r.src n r.seq op 3 stOk []
  | none => s

/-- INTERIM_RESPONSE (R63). -/
def execInterimResponse (dt : Ns) (ep : Endpoint) (lane : Byte) (s : State) : Host.Outcome State Fault Refusal :=
  event dt (fun s => s.interim ep lane.toNat) s

/-- UART_FRAME_TIMEOUT: a frame still incomplete 100 ms after its first byte is discarded and counted (R49). -/
def execUartFrameTimeout (dt : Ns) (_frame : List Byte) (age : Ns) (s : State) : Host.Outcome State Fault Refusal :=
  event dt (fun s =>
    if 100 * ms ≤ age then { s with link.counts.uartDiscards := s.link.counts.uartDiscards + 1 } else s) s

/-- SESSION_LAPSE: 120 s without a message (R58). -/
def execSessionLapse (dt : Ns) (ep : Endpoint) (s : State) : Host.Outcome State Fault Refusal :=
  event dt (fun s => match s.session? ep with
    | some x => if x.lastRx + 120 * sec ≤ s.clk.mono then s.lapse ep else s
    | none => s) s

/-- Every unacknowledged notice sent 1 s ago or earlier is sent again, in order (R68). -/
def State.resendNotices (s : State) (ep : Endpoint) : State :=
  match s.session? ep with
  | none => s
  | some x =>
    let due (m : Notice) : Bool := match m.sentAt with | some t => t + sec ≤ s.clk.mono | none => false
    let s' := s.onSession ep (fun x =>
      { x with notices := x.notices.map (fun m => if due m then { m with sentAt := some s.clk.mono } else m) })
    (x.notices.filter due).foldl (fun s m => s.send x.noticeTo false (s.noticeMessage m)) s'

/-- NOTICE_RESEND (R68). -/
def execNoticeResend (dt : Ns) (ep : Endpoint) (s : State) : Host.Outcome State Fault Refusal :=
  event dt (fun s => s.resendNotices ep) s

/-- STAGING_TIMEOUT: 600 s after the last PARAM_SET that staged anything (R98). -/
def execStagingTimeout (dt : Ns) (s : State) : Host.Outcome State Fault Refusal :=
  event dt (fun s => if s.link.stagedAt + 600 * sec ≤ s.clk.mono then s.unstage else s) s

/-- WARM_RESET_DUE: the pending warm reset's delay has run out (R622, Table 16.6 kind 4). -/
def execWarmResetDue (dt : Ns) (s : State) : Host.Outcome State Fault Refusal :=
  event dt (fun s => match s.link.warmDue with
    | some t => if t ≤ s.clk.mono then s.enterReset 4 else s
    | none => s) s

/-- SNAPSHOT_LAPSE: 60 s after the snapshot was taken (R377). -/
def execSnapshotLapse (dt : Ns) (ep : Endpoint) (s : State) : Host.Outcome State Fault Refusal :=
  event dt (fun s => s.onSession ep (fun x => match x.snapshot with
    | some p => if p.takenAt + 60 * sec ≤ s.clk.mono then { x with snapshot := none } else x
    | none => x)) s

/-- CURSOR_IDLE: hs.cursor_idle_s without a HIST_NEXT (R470). -/
def execCursorIdle (dt : Ns) (cursor : Nat) (s : State) : Host.Outcome State Fault Refusal :=
  event dt (fun s =>
    { s with hs.cursors := s.hs.cursors.filter (fun c =>
        !(c.id == cursor && c.lastUse + s.num 0x7806 * sec ≤ s.clk.mono)) }) s

end Sys2Proof.Machine
end

