-- ==== Sys2Proof/Machine/Receive.lean ====
section
/-!
DEFINITION. Messages as bytes: the checks of R46 and R52–R54 on a whole message, the opcode's command, and the rows by which
messages come other than as a request of a row of their own: the host link's buffer, a ring frame, a message that no row names.
-/

namespace Sys2Proof.Machine

/-- Every command of the opcode catalogue (Table 2.7) but NOTICE_ACK and SD_SCAN. -/
def catalogue : List Command :=
  [identifyCommand, healthCommand, paramGetCommand, paramSetCommand, paramCommitCommand, paramAbortCommand,
    warmResetCommand, bindCommand, releaseCommand, forceReleaseCommand, subscribeCommand, sessionCloseCommand,
    overrideSetCommand, overrideClearCommand, overrideListCommand, typeSetCommand, typeGetCommand, lampSetCommand,
    lampGetCommand, lampRemoveCommand, targetQueryCommand, nightQueryCommand, diagListCommand, sectionSetCommand] ++
  [junctionSetCommand, placeSetCommand, graphGetCommand, graphRemoveCommand, trackListCommand, handoverCommand,
    handoverTakenCommand, handoverCancelCommand, graphListCommand, graphLoadCommand, graphStartCommand, graphStopCommand,
    graphSwapCommand, graphUnloadCommand, engineStatusCommand, queueStatusCommand, backstepStatusCommand,
    nodeMapSetCommand, nodeMapGetCommand, nodeMapRemoveCommand, nodeListCommand, nodeProbeCommand, nodeLeaveCommand,
    radioStatusCommand] ++
  [meterTakeCommand, meterReadCommand, pqListCommand, spanSetCommand, spanGetCommand, reconQueryCommand,
    circuitForceCommand, circuitStatusCommand, latchStatusCommand, ringHealthCommand, ringPeerSetCommand,
    ringPeerGetCommand, timeStatusCommand, timeSeedCommand, histQueryCommand, histNextCommand, histCloseCommand,
    histStatusCommand, recReadCommand, recStatusCommand, perfReadCommand, perfSamplesCommand, wmeterReadCommand,
    keyWriteCommand] ++
  [keyEraseCommand, keyDisableCommand, keyDeriveCommand, keyStatusCommand, attestCommand, lifecycleSetCommand,
    imageListCommand, updateArmCommand, updateDisarmCommand, updateRollbackCommand, updateStatusCommand,
    imageEraseCommand, chainOfferCommand, chainFetchCommand, chainArmCommand, rtcGetCommand, rtcSetCommand,
    powerStatusCommand, powerHoldCommand]

/-- The command of an opcode; the files of the card that an SD_SCAN reads are free here (log entry 55). -/
def State.commandOf (s : State) (op : Nat) : Option Command :=
  if op = 0x9807 then
    let c := sdScanCommand (Config.cardFiles s.free)
    some { c with body := fun r s => c.body r { s with free := s.free + 1 } }
  else List.find? (fun (c : Command) => c.opcode == op) catalogue

/-- An opcode the release does not implement: UNSUPPORTED after the lane's own check, before every other (R8, R66). -/
def unsupportedCommand (op : Nat) : Command :=
  { opcode := op, access := .unknown, firstLane := 1, layout := fun _ => true, body := fun _ s => fail stUnsupported s }

/-- The message of a frame: the ring pads it behind the CRC (R46). -/
def messageOf (src : Source) (bytes : List Byte) : List Byte :=
  if isRing src.endpoint then bytes.take (28 + fld bytes 12 4) else bytes

/-- Whole, and its CRC-32C is valid (R51, R52). -/
def crcValid (m : List Byte) : Bool := 28 ≤ m.length && fld m (m.length - 4) 4 == crc32c (m.take (m.length - 4))

/-- Version, lane and length (R53). -/
def headerOk (m : List Byte) : Bool := fld m 0 1 == 1 && fld m 1 1 ≤ 7 && fld m 12 4 ≤ 1472 && m.length == 28 + fld m 12 4

/-- The request a message spells. -/
def requestOf (src : Source) (m : List Byte) : Req :=
  { dt := 0, src := src, lane := BitVec.ofNat 8 (fld m 1 1), flags := BitVec.ofNat 16 (fld m 2 2)
    seq := BitVec.ofNat 32 (fld m 4 4), claim := BitVec.ofNat 64 (fld m 16 8), payload := slice m 24 (fld m 12 4)
    status := BitVec.ofNat 16 (fld m 10 2), waits := false }

/-- A discard for CRC or shortness; the host link has its own count (R52, Table 3.5). -/
def State.crcDiscard (s : State) (src : Source) : State :=
  if src = .host then { s with hl.crcShort := count16 s.hl.crcShort 1 }
  else { s with link.counts.crcDiscards := s.link.counts.crcDiscards + 1 }

/-- The bytes of a message as its port's framing carries them (Table 2.1): on the service UART a COBS frame without its delimiter,
elsewhere the message itself. `none` where the frame is no COBS frame. -/
def framed (src : Source) (bytes : List Byte) : Option (List Byte) :=
  if src = .uart then cobsDecode bytes.length bytes else some bytes

/-- A UART frame that is not COBS, or decodes to more than 1,500 bytes, is discarded and counted (R49; log entry 83). -/
def unframed (src : Source) (bytes : List Byte) : Bool :=
  match framed src bytes with
  | none => true
  | some m => src = .uart && 1500 < m.length

/-- A message arrives on a port (R44–R54, R66). R53's header checks come before R54's discard of a message with DIR set (log entry
82). -/
def State.receive (s : State) (src : Source) (bytes : List Byte) : State :=
  let m := messageOf src ((framed src bytes).getD [])
  let r := requestOf src m
  let op := fld m 8 2
  if !s.hears src then s.unheard src
  else if unframed src bytes then { s with link.counts.uartDiscards := s.link.counts.uartDiscards + 1 }
  else if !crcValid m then s.crcDiscard src
  else if !headerOk m then (s.touch src).respond src (fld m 1 1) r.seq op 1 stFormat []
  else if r.flags.getLsbD 0 then s.peerResponse r op r.status.toNat
  else if op = 0x2006 then s.noticeAck r
  else s.request ((s.commandOf op).getD (unsupportedCommand op)) r

/-- UNSUPPORTED_OPCODE: a message that no other row names (R8, R52, R53). -/
def execUnsupportedOpcode (dt : Ns) (src : Source) (message : List Byte) (s : State) : Host.Outcome State Fault Refusal :=
  .next ((s.begin dt).receive src message).settle

/-- HL_BUFFER_TAKEN: the firmware takes the buffer that a RING handed over (R114). -/
def execHlBufferTaken (dt : Ns) (s : State) : Host.Outcome State Fault Refusal :=
  event dt (fun s => match s.hl.handed with
    | some b => { s with hl.handed := none }.receive .host b
    | none => s) s

/-- RING_FRAME_RECEIVE: HSR, and a delivered Shotas frame is received (R427, R45). -/
def execRingFrameReceive (dt : Ns) (port : Port) (frame : RingFrame) (s : State) : Host.Outcome State Fault Refusal :=
  event dt (fun s =>
    let x := s.ringFrame port frame
    if x.2 ∧ frame.etherType = 0x88B5#16 ∧ !frame.supervision then
      x.1.receive (.ring frame.src frame.vlan frame.dst port) frame.lsdu
    else x.1) s

/-- A node has not replied to the probe of a lane within 2 s: result 1 (R355; log entry 93). -/
def State.probeOver (s : State) (ep : Endpoint) (n : Nat) : State :=
  match s.mesh.probes.find? (fun p => p.waiter == some (ep, n) && decide (p.sentAt + 2 * sec ≤ s.clk.mono)) with
  | some p => { s with mesh.probes := s.mesh.probes.filter (fun q => q != p) }.finish ep n stOk (probeAnswer 1 0 [])
  | none => s

/-- A command that waited on its unit begins now, or ends with SUPERSEDED where a Holder transition overtook it (R63, R77). BUSY
leaves the lane ready for a resend of it (R62). -/
def State.completes (s : State) (ep : Endpoint) (n : Nat) : State :=
  let l := s.lane ep n
  match l.cmd with
  | none => s
  | some (op, r) =>
    if l.phase = .superseded then s.finish ep n stSuperseded []
    else if l.phase ≠ .waiting then s.probeOver ep n
    else match s.commandOf op with
      | none => s
      | some c => s.conclude c r { l with phase := .idle, cmd := none, seq := l.seq - 1#32 } (c.body r s)

/-- FINAL_RESPONSE (R63, R77). -/
def execFinalResponse (dt : Ns) (ep : Endpoint) (lane : Byte) (s : State) : Host.Outcome State Fault Refusal :=
  event dt (fun s => s.completes ep lane.toNat) s

end Sys2Proof.Machine
end

