-- ==== Sys2Proof/Machine/Dispatch.lean ====
section
/-!
DEFINITION. The meaning of each command: one arm per constructor, in the order of the opcode table.
-/

namespace Sys2Proof.Machine

def exec (i : Instr) (s : State) : Host.Outcome State Fault Refusal :=
  match i with
  | .identify r => Sys2Proof.Machine.execIdentify r s
  | .health r => Sys2Proof.Machine.execHealth r s
  | .paramGet r => Sys2Proof.Machine.execParamGet r s
  | .paramSet r => Sys2Proof.Machine.execParamSet r s
  | .paramCommit r => Sys2Proof.Machine.execParamCommit r s
  | .paramAbort r => Sys2Proof.Machine.execParamAbort r s
  | .warmReset r => Sys2Proof.Machine.execWarmReset r s
  | .bind r => Sys2Proof.Machine.execBind r s
  | .release r => Sys2Proof.Machine.execRelease r s
  | .forceRelease r => Sys2Proof.Machine.execForceRelease r s
  | .subscribe r => Sys2Proof.Machine.execSubscribe r s
  | .sessionClose r => Sys2Proof.Machine.execSessionClose r s
  | .noticeAck r => Sys2Proof.Machine.execNoticeAck r s
  | .overrideSet r => Sys2Proof.Machine.execOverrideSet r s
  | .overrideClear r => Sys2Proof.Machine.execOverrideClear r s
  | .overrideList r => Sys2Proof.Machine.execOverrideList r s
  | .typeSet r => Sys2Proof.Machine.execTypeSet r s
  | .typeGet r => Sys2Proof.Machine.execTypeGet r s
  | .lampSet r => Sys2Proof.Machine.execLampSet r s
  | .lampGet r => Sys2Proof.Machine.execLampGet r s
  | .lampRemove r => Sys2Proof.Machine.execLampRemove r s
  | .targetQuery r => Sys2Proof.Machine.execTargetQuery r s
  | .nightQuery r => Sys2Proof.Machine.execNightQuery r s
  | .diagList r => Sys2Proof.Machine.execDiagList r s
  | .sectionSet r => Sys2Proof.Machine.execSectionSet r s
  | .junctionSet r => Sys2Proof.Machine.execJunctionSet r s
  | .placeSet r => Sys2Proof.Machine.execPlaceSet r s
  | .graphGet r => Sys2Proof.Machine.execGraphGet r s
  | .graphRemove r => Sys2Proof.Machine.execGraphRemove r s
  | .trackList r => Sys2Proof.Machine.execTrackList r s
  | .handover r => Sys2Proof.Machine.execHandover r s
  | .handoverTaken r => Sys2Proof.Machine.execHandoverTaken r s
  | .handoverCancel r => Sys2Proof.Machine.execHandoverCancel r s
  | .peerResponse r opcode status => Sys2Proof.Machine.execPeerResponse r opcode status s
  | .graphList r => Sys2Proof.Machine.execGraphList r s
  | .graphLoad r => Sys2Proof.Machine.execGraphLoad r s
  | .graphStart r => Sys2Proof.Machine.execGraphStart r s
  | .graphStop r => Sys2Proof.Machine.execGraphStop r s
  | .graphSwap r => Sys2Proof.Machine.execGraphSwap r s
  | .graphUnload r => Sys2Proof.Machine.execGraphUnload r s
  | .engineStatus r => Sys2Proof.Machine.execEngineStatus r s
  | .queueStatus r => Sys2Proof.Machine.execQueueStatus r s
  | .backstepStatus r => Sys2Proof.Machine.execBackstepStatus r s
  | .nodeMapSet r => Sys2Proof.Machine.execNodeMapSet r s
  | .nodeMapGet r => Sys2Proof.Machine.execNodeMapGet r s
  | .nodeMapRemove r => Sys2Proof.Machine.execNodeMapRemove r s
  | .nodeList r => Sys2Proof.Machine.execNodeList r s
  | .nodeProbe r => Sys2Proof.Machine.execNodeProbe r s
  | .nodeLeave r => Sys2Proof.Machine.execNodeLeave r s
  | .radioStatus r => Sys2Proof.Machine.execRadioStatus r s
  | .meterTake r => Sys2Proof.Machine.execMeterTake r s
  | .meterRead r => Sys2Proof.Machine.execMeterRead r s
  | .pqList r => Sys2Proof.Machine.execPqList r s
  | .spanSet r => Sys2Proof.Machine.execSpanSet r s
  | .spanGet r => Sys2Proof.Machine.execSpanGet r s
  | .reconQuery r => Sys2Proof.Machine.execReconQuery r s
  | .circuitForce r => Sys2Proof.Machine.execCircuitForce r s
  | .circuitStatus r => Sys2Proof.Machine.execCircuitStatus r s
  | .latchStatus r => Sys2Proof.Machine.execLatchStatus r s
  | .ringHealth r => Sys2Proof.Machine.execRingHealth r s
  | .ringPeerSet r => Sys2Proof.Machine.execRingPeerSet r s
  | .ringPeerGet r => Sys2Proof.Machine.execRingPeerGet r s
  | .timeStatus r => Sys2Proof.Machine.execTimeStatus r s
  | .timeSeed r => Sys2Proof.Machine.execTimeSeed r s
  | .histQuery r => Sys2Proof.Machine.execHistQuery r s
  | .histNext r => Sys2Proof.Machine.execHistNext r s
  | .histClose r => Sys2Proof.Machine.execHistClose r s
  | .histStatus r => Sys2Proof.Machine.execHistStatus r s
  | .recRead r => Sys2Proof.Machine.execRecRead r s
  | .recStatus r => Sys2Proof.Machine.execRecStatus r s
  | .perfRead r => Sys2Proof.Machine.execPerfRead r s
  | .perfSamples r => Sys2Proof.Machine.execPerfSamples r s
  | .wmeterRead r => Sys2Proof.Machine.execWmeterRead r s
  | .keyWrite r => Sys2Proof.Machine.execKeyWrite r s
  | .keyErase r => Sys2Proof.Machine.execKeyErase r s
  | .keyDisable r => Sys2Proof.Machine.execKeyDisable r s
  | .keyDerive r => Sys2Proof.Machine.execKeyDerive r s
  | .keyStatus r => Sys2Proof.Machine.execKeyStatus r s
  | .attest r => Sys2Proof.Machine.execAttest r s
  | .lifecycleSet r => Sys2Proof.Machine.execLifecycleSet r s
  | .imageList r => Sys2Proof.Machine.execImageList r s
  | .updateArm r => Sys2Proof.Machine.execUpdateArm r s
  | .updateDisarm r => Sys2Proof.Machine.execUpdateDisarm r s
  | .updateRollback r => Sys2Proof.Machine.execUpdateRollback r s
  | .updateStatus r => Sys2Proof.Machine.execUpdateStatus r s
  | .imageErase r => Sys2Proof.Machine.execImageErase r s
  | .sdScan r files => Sys2Proof.Machine.execSdScan r files s
  | .chainOffer r => Sys2Proof.Machine.execChainOffer r s
  | .chainFetch r => Sys2Proof.Machine.execChainFetch r s
  | .chainArm r => Sys2Proof.Machine.execChainArm r s
  | .rtcGet r => Sys2Proof.Machine.execRtcGet r s
  | .rtcSet r => Sys2Proof.Machine.execRtcSet r s
  | .powerStatus r => Sys2Proof.Machine.execPowerStatus r s
  | .powerHold r => Sys2Proof.Machine.execPowerHold r s
  | .interimResponse dt ep lane => Sys2Proof.Machine.execInterimResponse dt ep lane s
  | .finalResponse dt ep lane => Sys2Proof.Machine.execFinalResponse dt ep lane s
  | .uartFrameTimeout dt frame age => Sys2Proof.Machine.execUartFrameTimeout dt frame age s
  | .sessionLapse dt ep => Sys2Proof.Machine.execSessionLapse dt ep s
  | .noticeResend dt ep => Sys2Proof.Machine.execNoticeResend dt ep s
  | .stagingTimeout dt => Sys2Proof.Machine.execStagingTimeout dt s
  | .warmResetDue dt => Sys2Proof.Machine.execWarmResetDue dt s
  | .snapshotLapse dt ep => Sys2Proof.Machine.execSnapshotLapse dt ep s
  | .cursorIdle dt cursor => Sys2Proof.Machine.execCursorIdle dt cursor s
  | .hlCmdApertureWrite dt tx bytes => Sys2Proof.Machine.execHlCmdApertureWrite dt tx bytes s
  | .hlRspApertureRead dt tx count => Sys2Proof.Machine.execHlRspApertureRead dt tx count s
  | .ring dt tx clearToo => Sys2Proof.Machine.execRing dt tx clearToo s
  | .clear dt tx => Sys2Proof.Machine.execClear dt tx s
  | .pop dt tx => Sys2Proof.Machine.execPop dt tx s
  | .linkReset dt tx moduleToo => Sys2Proof.Machine.execLinkReset dt tx moduleToo s
  | .moduleReset dt tx => Sys2Proof.Machine.execModuleReset dt tx s
  | .sdTimeRead dt burst => Sys2Proof.Machine.execSdTimeRead dt burst s
  | .hlNowLoRead dt burst => Sys2Proof.Machine.execHlNowLoRead dt burst s
  | .registerWrite dt tx values bits => Sys2Proof.Machine.execRegisterWrite dt tx values bits s
  | .hlBufferTaken dt => Sys2Proof.Machine.execHlBufferTaken dt s
  | .parityScan dt fails => Sys2Proof.Machine.execParityScan dt fails s
  | .itemDispatch dt engine errors => Sys2Proof.Machine.execItemDispatch dt engine errors s
  | .itemComplete dt engine o => Sys2Proof.Machine.execItemComplete dt engine o s
  | .itemOpsLimit dt engine node => Sys2Proof.Machine.execItemOpsLimit dt engine node s
  | .engineStall dt engine retestPasses => Sys2Proof.Machine.execEngineStall dt engine retestPasses s
  | .engineMemoryError dt engine => Sys2Proof.Machine.execEngineMemoryError dt engine s
  | .engineRetest dt engine passes => Sys2Proof.Machine.execEngineRetest dt engine passes s
  | .flowStateError dt graph flow error => Sys2Proof.Machine.execFlowStateError dt graph flow error s
  | .alarmDue dt graph flow => Sys2Proof.Machine.execAlarmDue dt graph flow s
  | .dispatchBoundary dt graph => Sys2Proof.Machine.execDispatchBoundary dt graph s
  | .queueLevelSecondEnd dt queue => Sys2Proof.Machine.execQueueLevelSecondEnd dt queue s
  | .paceLowerStep dt => Sys2Proof.Machine.execPaceLowerStep dt s
  | .reviseMissed dt point launch => Sys2Proof.Machine.execReviseMissed dt point launch s
  | .trackTick dt track => Sys2Proof.Machine.execTrackTick dt track s
  | .trackCoastTimeout dt track => Sys2Proof.Machine.execTrackCoastTimeout dt track s
  | .tentativeTimeout dt track => Sys2Proof.Machine.execTentativeTimeout dt track s
  | .shadowTimeout dt track => Sys2Proof.Machine.execShadowTimeout dt track s
  | .untrackedCoverExpiry dt => Sys2Proof.Machine.execUntrackedCoverExpiry dt s
  | .holdExpiry dt point => Sys2Proof.Machine.execHoldExpiry dt point s
  | .flapHoldExpiry dt point => Sys2Proof.Machine.execFlapHoldExpiry dt point s
  | .fallDeferExpiry dt point => Sys2Proof.Machine.execFallDeferExpiry dt point s
  | .handoverCrossing dt id => Sys2Proof.Machine.execHandoverCrossing dt id s
  | .peerResend dt peer lane => Sys2Proof.Machine.execPeerResend dt peer lane s
  | .nightResolve dt => Sys2Proof.Machine.execNightResolve dt s
  | .planCommandDue dt => Sys2Proof.Machine.execPlanCommandDue dt s
  | .photoDebounce dt => Sys2Proof.Machine.execPhotoDebounce dt s
  | .photoWindowExpiry dt => Sys2Proof.Machine.execPhotoWindowExpiry dt s
  | .overrideEnd dt handle => Sys2Proof.Machine.execOverrideEnd dt handle s
  | .circuitDemandDue dt circuit => Sys2Proof.Machine.execCircuitDemandDue dt circuit s
  | .diagDue dt point channel => Sys2Proof.Machine.execDiagDue dt point channel s
  | .undiagnosed dt point channel => Sys2Proof.Machine.execUndiagnosed dt point channel s
  | .lateDiscard dt point launch => Sys2Proof.Machine.execLateDiscard dt point launch s
  | .uplinkFrame dt radio frame => Sys2Proof.Machine.execUplinkFrame dt radio frame s
  | .nodeAckReceive dt radio frame => Sys2Proof.Machine.execNodeAckReceive dt radio frame s
  | .beaconCell dt radio use => Sys2Proof.Machine.execBeaconCell dt radio use s
  | .driveCell dt radio use => Sys2Proof.Machine.execDriveCell dt radio use s
  | .otherDownlinkCell dt radio use => Sys2Proof.Machine.execOtherDownlinkCell dt radio use s
  | .e2eResend dt frame => Sys2Proof.Machine.execE2eResend dt frame s
  | .nodeSilent dt point => Sys2Proof.Machine.execNodeSilent dt point s
  | .keyRoll dt key => Sys2Proof.Machine.execKeyRoll dt key s
  | .netkeyActivation dt => Sys2Proof.Machine.execNetkeyActivation dt s
  | .oldKeyDiscard dt => Sys2Proof.Machine.execOldKeyDiscard dt s
  | .radioSelfTestFail dt radio => Sys2Proof.Machine.execRadioSelfTestFail dt radio s
  | .activationBroadcast dt kind => Sys2Proof.Machine.execActivationBroadcast dt kind s
  | .meterCycleEnd dt input cycle => Sys2Proof.Machine.execMeterCycleEnd dt input cycle s
  | .halfCycleWindow dt windows => Sys2Proof.Machine.execHalfCycleWindow dt windows s
  | .pqEventOpenTimeout dt kind => Sys2Proof.Machine.execPqEventOpenTimeout dt kind s
  | .frequencyInterval dt input => Sys2Proof.Machine.execFrequencyInterval dt input s
  | .ledgerBoundary dt => Sys2Proof.Machine.execLedgerBoundary dt s
  | .meterCheckpoint dt => Sys2Proof.Machine.execMeterCheckpoint dt s
  | .calibrationStart dt converter => Sys2Proof.Machine.execCalibrationStart dt converter s
  | .calibrationForced dt converter => Sys2Proof.Machine.execCalibrationForced dt converter s
  | .recWaitExpiry dt circuit => Sys2Proof.Machine.execRecWaitExpiry dt circuit s
  | .chainCycle dt words => Sys2Proof.Machine.execChainCycle dt words s
  | .dwellExpiry dt circuit => Sys2Proof.Machine.execDwellExpiry dt circuit s
  | .inrushExpiry dt => Sys2Proof.Machine.execInrushExpiry dt s
  | .circuitForceEnd dt circuit => Sys2Proof.Machine.execCircuitForceEnd dt circuit s
  | .ringFrameReceive dt port frame => Sys2Proof.Machine.execRingFrameReceive dt port frame s
  | .secondCopyTimeout dt src hsrSeq => Sys2Proof.Machine.execSecondCopyTimeout dt src hsrSeq s
  | .supervisionSend dt => Sys2Proof.Machine.execSupervisionSend dt s
  | .supervisionTimeout dt => Sys2Proof.Machine.execSupervisionTimeout dt s
  | .peerDelayExchange dt port => Sys2Proof.Machine.execPeerDelayExchange dt port s
  | .sync dt port m => Sys2Proof.Machine.execSync dt port m s
  | .followUp dt port m => Sys2Proof.Machine.execFollowUp dt port m s
  | .followUpHoldExpiry dt => Sys2Proof.Machine.execFollowUpHoldExpiry dt s
  | .announce dt port m => Sys2Proof.Machine.execAnnounce dt port m s
  | .syncMissTimeout dt => Sys2Proof.Machine.execSyncMissTimeout dt s
  | .holdoverTimeout dt => Sys2Proof.Machine.execHoldoverTimeout dt s
  | .ppsInEdge dt highNs => Sys2Proof.Machine.execPpsInEdge dt highNs s
  | .ppsInMissing dt => Sys2Proof.Machine.execPpsInMissing dt s
  | .stampExtendRead dt => Sys2Proof.Machine.execStampExtendRead dt s
  | .linkChange dt port info => Sys2Proof.Machine.execLinkChange dt port info s
  | .pause dt port quanta => Sys2Proof.Machine.execPause dt port quanta s
  | .pauseExpiry dt port => Sys2Proof.Machine.execPauseExpiry dt port s
  | .macMergeVerify dt port answered => Sys2Proof.Machine.execMacMergeVerify dt port answered s
  | .lpiEntry dt port => Sys2Proof.Machine.execLpiEntry dt port s
  | .speedLowerEval dt port load => Sys2Proof.Machine.execSpeedLowerEval dt port load s
  | .renegotiation dt port => Sys2Proof.Machine.execRenegotiation dt port s
  | .launchQueueFrame dt port cls => Sys2Proof.Machine.execLaunchQueueFrame dt port cls s
  | .histProgram dt outcome => Sys2Proof.Machine.execHistProgram dt outcome s
  | .writeStallTimeout dt => Sys2Proof.Machine.execWriteStallTimeout dt s
  | .scrubStep dt kind block outcome => Sys2Proof.Machine.execScrubStep dt kind block outcome s
  | .packageFailure dt package => Sys2Proof.Machine.execPackageFailure dt package s
  | .recorderWrite dt readbackOk mirrorOk => Sys2Proof.Machine.execRecorderWrite dt readbackOk mirrorOk s
  | .mirrorCopy dt ok => Sys2Proof.Machine.execMirrorCopy dt ok s
  | .mramRetry dt readbackOk => Sys2Proof.Machine.execMramRetry dt readbackOk s
  | .perfSample dt counter capture => Sys2Proof.Machine.execPerfSample dt counter capture s
  | .windowMeterBoundary dt meter => Sys2Proof.Machine.execWindowMeterBoundary dt meter s
  | .shuffle dt masks => Sys2Proof.Machine.execShuffle dt masks s
  | .imageReceived dt readbackOk => Sys2Proof.Machine.execImageReceived dt readbackOk s
  | .chainReceiveTimeout dt => Sys2Proof.Machine.execChainReceiveTimeout dt s
  | .partialImageExpiry dt => Sys2Proof.Machine.execPartialImageExpiry dt s
  | .armMissed dt kind => Sys2Proof.Machine.execArmMissed dt kind s
  | .switchOver dt => Sys2Proof.Machine.execSwitchOver dt s
  | .trialTimeout dt => Sys2Proof.Machine.execTrialTimeout dt s
  | .cardInsert dt files => Sys2Proof.Machine.execCardInsert dt files s
  | .cardRemove dt => Sys2Proof.Machine.execCardRemove dt s
  | .lastGaspEntry dt vinMv => Sys2Proof.Machine.execLastGaspEntry dt vinMv s
  | .vinBelow4v dt vinMv vbatMv => Sys2Proof.Machine.execVinBelow4v dt vinMv vbatMv s
  | .brownOut dt vinMv => Sys2Proof.Machine.execBrownOut dt vinMv s
  | .slowDomainLost dt => Sys2Proof.Machine.execSlowDomainLost dt s
  | .vinReturn dt vinMv => Sys2Proof.Machine.execVinReturn dt vinMv s
  | .nreset dt lowNs => Sys2Proof.Machine.execNreset dt lowNs s
  | .watchdog dt => Sys2Proof.Machine.execWatchdog dt s
  | .start dt found => Sys2Proof.Machine.execStart dt found s
  | .periodicWake dt => Sys2Proof.Machine.execPeriodicWake dt s
  | .quietEntry dt => Sys2Proof.Machine.execQuietEntry dt s
  | .quietExit dt => Sys2Proof.Machine.execQuietExit dt s
  | .vbatSample dt vbatMv => Sys2Proof.Machine.execVbatSample dt vbatMv s
  | .operatingSecond dt => Sys2Proof.Machine.execOperatingSecond dt s
  | .rtcSecond dt => Sys2Proof.Machine.execRtcSecond dt s
  | .rtcDiscipline dt => Sys2Proof.Machine.execRtcDiscipline dt s
  | .rtcTempCorrection dt celsius => Sys2Proof.Machine.execRtcTempCorrection dt celsius s
  | .doorChange dt isOpen => Sys2Proof.Machine.execDoorChange dt isOpen s
  | .photoChange dt dark => Sys2Proof.Machine.execPhotoChange dt dark s
  | .unsupportedOpcode dt src message => Sys2Proof.Machine.execUnsupportedOpcode dt src message s
  | .overrideStart dt handle => Sys2Proof.Machine.execOverrideStart dt handle s
  | .circuitForceStart dt circuit => Sys2Proof.Machine.execCircuitForceStart dt circuit s
  | .vpaChange dt vpaMv => Sys2Proof.Machine.execVpaChange dt vpaMv s
  | .islandSupplyOrLinkChange dt working => Sys2Proof.Machine.execIslandSupplyOrLinkChange dt working s
  | .peerDelayMessage dt port m => Sys2Proof.Machine.execPeerDelayMessage dt port m s
  | .trialRunTimeout dt => Sys2Proof.Machine.execTrialRunTimeout dt s

end Sys2Proof.Machine
end

