-- ==== Sys2Proof/Safety.lean ====
section
/-!
DEFINITION. The terms claims are stated in: what reporting may touch and when two states agree but for reports; when a
request is one that its command takes up, and what an answered lane holds; what a running event and a request leave; and the
good states of the block.
-/

namespace Sys2Proof.Machine

/-! ## States that agree but for reports

An event that raises a notice is recorded, told to the subscribed sessions, and, for a health change, kept in the History Store
(R39, R67, R483). What this may touch is erased by `bare`; everything else of the state is left standing. -/

/-- A session without its notices. -/
def Session.bare (x : Session) : Session := { x with notices := [], nextNotice := 0, dropped := 0 }

/-- A ring port without what sending a frame leaves on it. -/
def RingPort.bare (p : RingPort) : RingPort := { p with tx := 0, lpi := false, txEmptySince := 0 }

/-- The counters without those of dropped recorder records (0x80F0) and of the level crossings (0x4C86) and refusals (0x4C88)
of queue 0x0A. -/
def bareCounts (t : Table Nat) : Table Nat :=
  tdel (tdel (tdel t (pkey 0x80F0 0)) (pkey 0x4C86 0x0A)) (pkey 0x4C88 0x0A)

/-- The state without what reports touch: outputs, reported health, performance counters and window meters, the notices of
every session, the response buffer's waiting messages, the sender's part of the ring ports, queue 0x0A and the count of pushes, the recorder's queue
and last-gasp ring, the instant since which the module has been calm, and what the end of every command judges: the fabric's
voltage and the deadlines (R227), and the causes at ATTN (R116). -/
def State.bare (s : State) : State :=
  { s with
    out := []
    health := []
    perf := .reset
    par.counts := bareCounts s.par.counts
    link.sessions := s.link.sessions.map Session.bare
    hl.waiting := []
    hl.rsp := []
    hl.lastCause := 0
    fe.fabricMv := 0
    fe.deadlineMisses := 0
    fe.pastDeadline := false
    ring.a := s.ring.a.bare
    ring.b := s.ring.b.bare
    ring.seq := 0
    qm.queues := tdel s.qm.queues 0x0A
    qm.pushed := 0
    ev.made := 0
    ev.queue := []
    ev.lastGasp := []
    ev.overflow := 0
    pwr.idleSince := none }

/-- `t` is `u` but for reports. -/
def Reports (u t : State) : Prop := u.bare = t.bare

/-- The command answers a next state, which is `u` but for reports. -/
def Leads (i : Instr) (s u : State) : Prop := ∃ t, exec i s = .next t ∧ Reports u t

/-! ## Requests -/

/-- A request that its command takes up in state `s`: the module hears it, its header is good, there is room for its session, its
lane accepts it, its layout is the command's, the class and Holder checks pass, no switch-over is near, at most 64
commands stand admitted, and the unit can start it (R20, R45, R54, R57, R60, R65, R66, R621, Table 2.3, Table 15.5). -/
structure Ready (c : Command) (r : Req) (s : State) : Prop where
  hears : (s.begin r.dt).hears r.src = true
  request : r.flags.getLsbD 0 = false
  header : c.headerOk r = true
  room : (s.begin r.dt).noRoom r.src.endpoint = false
  accepted : ((((s.begin r.dt).countRetry r).sessionHears r).lane r.src.endpoint r.lane.toNat).verdict c.opcode r = .accept
  layout : c.layout r.payload = true
  allowed : ((((s.begin r.dt).countRetry r).sessionHears r).occupy c r).accessCheck c r = none
  noSwitch : c.access = .open_ ∨ ((((s.begin r.dt).countRetry r).sessionHears r).occupy c r).switchWaits = false
  few : ((((s.begin r.dt).countRetry r).sessionHears r).occupy c r).admitted ≤ 64
  starts : r.waits = false ∨ c.access = .open_ ∨ c.opcode / 256 = 0x20

/-- The state a command that is taken up acts on: time has passed, the session has heard the message, and the command has its
lane. -/
def State.taken (s : State) (c : Command) (r : Req) : State :=
  (((s.begin r.dt).countRetry r).sessionHears r).occupy c r

/-- The lane of the request, its command ended with `status` and `payload` kept for a resend (R61, Table 2.6). -/
def State.answered (s : State) (r : Req) (status : Nat) (payload : List Byte) : State :=
  s.setLane r.src.endpoint r.lane.toNat
    { s.lane r.src.endpoint r.lane.toNat with phase := .idle, cached := some (status, payload) }

/-- The response of a request, as a message of the module (R50, R51). -/
def State.responseTo (s : State) (c : Command) (r : Req) (status : Nat) (payload : List Byte) : List Byte :=
  message r.lane.toNat 1 r.seq.toNat c.opcode status s.link.floor payload

/-- The message has been handed to the port: the ring sends it at once, the UART in its frame (R44), and the host link holds it for its
host. -/
def State.delivers (s : State) (dst : Source) (bytes : List Byte) : Prop :=
  match dst with
  | .host => bytes ∈ s.hl.rsp ∨ bytes ∈ s.hl.waiting
  | .uart => ∃ express, Out.message dst express (cobsFrame bytes) ∈ s.out
  | .ring _ _ _ _ => ∃ express, Out.message dst express bytes ∈ s.out

/-- The request is answered with OK and `payload`, and but for that answer and for reports the command leaves `u`. -/
def Answers (i : Instr) (r : Req) (s : State) (payload : List Byte) (u : State) : Prop :=
  Leads i s (u.answered r stOk payload)

/-- The command's plan items `cs` are issued on `b` (R224): where none of them waits for room the command answers OK with `payload`;
where some wait, the command has begun, and the last item that waits carries its answer. -/
def PlanAnswers (i : Instr) (r : Req) (s : State) (cs : List DriveCmd) (payload : List Byte) (b : State) : Prop :=
  let v := b.planChange cs none
  ((cs = [] ∨ ∀ it rest, v.plan.held ≠ rest ++ [(it, none)]) → Answers i r s payload v) ∧
  ∀ it rest, cs ≠ [] → v.plan.held = rest ++ [(it, none)] →
    let u := { v with plan.held := rest ++ [(it, some (r.src.endpoint, r.lane.toNat, payload))] }
    Leads i s (u.setLane r.src.endpoint r.lane.toNat { u.lane r.src.endpoint r.lane.toNat with phase := .begun })

/-- The same for a change of points that is launched lp.override_lead after the command's admission (R157). -/
def RelaunchAnswers (i : Instr) (r : Req) (s : State) (ps : List Pid) (payload : List Byte) (b : State) : Prop :=
  PlanAnswers i r s (b.relaunchCmds ps (b.admittedTb r + b.num 0x3023 * ms) 0) payload b

/-! ## Good states -/

/-- The life-cycle states are BLANK 0, PROVISIONED 1, IN_SERVICE 2 and RETIRED 3 (Table 14.4). -/
def lifecycleLegal (n : Nat) : Prop := n ≤ 3

/-- The life cycle stays, or moves as Table 14.5 says. -/
def lifecycleMoves (a b : Nat) : Prop := b = a ∨ (a = 0 ∧ b = 1) ∨ (a = 1 ∧ b = 2) ∨ (a = 2 ∧ b = 1) ∨ (a < 3 ∧ b = 3)

end Sys2Proof.Machine
end

