-- ==== Sys2Proof/Certificates/Slice0/Obligations.lean ====
section
/-!
DEFINITION. The statements for the provers: what the commands of the block do, family by family, and what every step keeps.
-/

open Sys2Proof Sys2Proof.Machine

/-! ## The step -/

/-- A step runs the command at the front of the queue. For every command c and every state s with c at the front of its
queue, step of s is exec of c on s with the queue's rest; on an empty queue the block idles (log entry 14: the model's
choice). (00_scope, 95_what_each_step_holds) -/
def Obligations.StepRunsFrontCommand : Prop :=
  ∀ (s : State) (c : Instr) (rest : List Instr),
    (s.pending = c :: rest → step s = exec c { s with pending := rest }) ∧ (s.pending = [] → step s = .next s)

/-! ## Requests: checks, answers, resends -/

/-- A request that its command takes up runs its body and its final response is handed to its port. For every command of the
Shotas link and every request it takes up: where the command's body ends with a status kept for a resend, the next state is
the body's, but for the answer and reports; the lane holds the answer; and the response, with the request's lane, sequence
and opcode, DIR set, and the module's claim F, is handed to the port the request came from. (R50, R51, R61, R79,
02_shotas_link) -/
def Obligations.RequestTakenUpIsAnswered : Prop :=
  ∀ (c : Command) (r : Req) (s u : State) (status : Nat) (payload : List Byte),
    Ready c r s → statusCached status = true → c.body r (s.taken c r) = .done status payload u →
    ∃ t, shotas c r s = .next t ∧ Reports (u.answered r status payload) t ∧
      t.delivers r.src (u.responseTo c r status payload)

/-- A resend of a lane's current command is answered from the cache and executes nothing. A request with the header and
payload of its lane's current command, RETRY and SYNC apart, whose final response is kept: the next state is the state
before it with its session heard and its retry counted, but for reports, and the kept response is handed to the port again.
No body runs. (R60, R61, 02_shotas_link) -/
def Obligations.ResendIsAnsweredFromTheCache : Prop :=
  ∀ (c : Command) (r : Req) (s : State) (status : Nat) (payload : List Byte),
    let a := ((s.begin r.dt).countRetry r).sessionHears r
    let l := a.lane r.src.endpoint r.lane.toNat
    (s.begin r.dt).hears r.src = true → r.flags.getLsbD 0 = false → c.headerOk r = true →
    (s.begin r.dt).noRoom r.src.endpoint = false →
    l.synced = true → (l.cmd.map (sameContent c.opcode r)).getD false = true → l.phase = .idle →
    l.cached = some (status, payload) →
    ∃ t, shotas c r s = .next t ∧ Reports a t ∧ t.delivers r.src (a.responseTo c r status payload)

/-- A request the module does not hear is neither answered nor executed. While the main domain does not run, and for ring
frames not addressed to the module, a request leaves the state as the passing of time left it; a frame sent to a group
address is counted while the module runs. (R45, R52, R112, 02_shotas_link) -/
def Obligations.UnheardRequestsChangeNothing : Prop :=
  ∀ (c : Command) (r : Req) (s : State), (s.begin r.dt).hears r.src = false →
    ∃ t, shotas c r s = .next t ∧
      (Reports (s.begin r.dt) t ∨
        Reports { s.begin r.dt with
          link.counts.groupFrames := (s.begin r.dt).link.counts.groupFrames + 1 } t) ∧
      ((s.begin r.dt).running = false → t = s.begin r.dt)

/-- The Holder check passes for the bound Holder's endpoint and claim alone, and fails with SUPERSEDED or NOT_HOLDER. A
Holder command that meets every other condition of Ready is refused exactly where it does not come from the bound Holder's
endpoint with lead_claim F; it is answered SUPERSEDED if its claim is non-zero and lower than F, and NOT_HOLDER in every
other case, and but for that answer it changes nothing. (R73, R74) -/
def Obligations.HolderCheckStatuses : Prop :=
  ∀ (c : Command) (r : Req) (s : State), c.access = .holder →
    let a := s.taken c r
    (a.accessCheck c r = none ↔
      a.link.bound = true ∧ a.link.floorEp = some r.src.endpoint ∧ r.claim = a.link.floor) ∧
    ((s.begin r.dt).hears r.src = true → r.flags.getLsbD 0 = false → c.headerOk r = true →
      (s.begin r.dt).noRoom r.src.endpoint = false →
      ((((s.begin r.dt).countRetry r).sessionHears r).lane r.src.endpoint r.lane.toNat).verdict c.opcode r = .accept →
      c.layout r.payload = true → a.accessCheck c r ≠ none →
      ∃ t, shotas c r s = .next t ∧
        Reports (a.answered r
          (if r.claim ≠ 0#64 ∧ r.claim.toNat < a.link.floor.toNat then stSuperseded else stNotHolder) []) t)

/-! ## Groups 0x10 and 0x20 -/

/-- IDENTIFY answers the module's identity, HEALTH the health of every unit at one instant. IDENTIFY, taken up, answers OK
with Table 2.9 and leaves the state as it was. HEALTH, taken up, answers OK with Table 2.10 read after every change that the
passing of time has brought is reported. The order code, the serial number and the present Stamp64 stand where Table 2.9
places them. (R6, R14, R41, R81, 02_shotas_link) -/
def Obligations.IdentifyAndHealthAnswer : Prop :=
  ∀ (r : Req) (s : State),
    (Ready identifyCommand r s →
      Answers (.identify r) r s (s.taken identifyCommand r).identity (s.taken identifyCommand r)) ∧
    (Ready healthCommand r s →
      Answers (.health r) r s (s.taken healthCommand r).settle.healthReport (s.taken healthCommand r)) ∧
    fld s.identity 0 1 = (if s.is16C then 2 else 1) ∧ fld s.identity 1 1 = 3 ∧ fld s.identity 2 1 = 1 ∧
    fld s.identity 8 8 = s.id.serial % 2 ^ 64 ∧ fld s.identity 36 8 = s.now % 2 ^ 64 ∧ s.identity.length = 44

/-- HEALTH lists every fitted unit in ascending order of unit ID. On the VKM-48F the payload is 368 bytes with the 22 units
of Table 1.3 in ascending order, on the VKM-16C 320 bytes with 19 units, radios 1 to 3 omitted; the entry of the n-th unit
stands at 16 + 16 n and carries its reported state. (R81) -/
def Obligations.HealthListsEveryUnit : Prop :=
  ∀ s : State,
    s.units.Pairwise (· < ·) ∧
    (s.is16C = false → s.units.length = 22 ∧ s.healthReport.length = 368) ∧
    (s.is16C = true → s.units.length = 19 ∧ s.healthReport.length = 320 ∧ 9 ∉ s.units ∧ 10 ∉ s.units ∧ 11 ∉ s.units) ∧
    fld s.healthReport 12 1 = s.units.length ∧
    ∀ (n u : Nat), s.units[n]? = some u →
      fld s.healthReport (16 + 16 * n) 1 = u ∧ fld s.healthReport (16 + 16 * n + 1) 1 = (s.unitHealth u).state.code

/-- BIND, RELEASE and FORCE_RELEASE move the floor and the binding as Table 2.5 says. A BIND taken up with a claim c above
F, or with c = F from the recorded endpoint of an unbound module where c is not 0, answers OK with the old and the new F,
and leaves F = c bound to its endpoint, pending commands overtaken, the staging area empty, and an output-chain cycle due if
F changed. A bound Holder's BIND with c = F answers OK and changes nothing. A BIND of claim 0 while unbound is answered
RANGE, every other one CLAIM_LOW, with nothing changed. F never falls. RELEASE from the bound Holder with its claim, and
FORCE_RELEASE from the Custodian's port, answer OK and leave the module unbound with F and its endpoint kept, pending
commands overtaken and the staging area empty; FORCE_RELEASE returns F. RELEASE while unbound is answered NOT_HOLDER,
FORCE_RELEASE while unbound OK with claim 0; neither changes anything. (R75, R76, R77, R78, R98, R406, 02_shotas_link) -/
def Obligations.HolderTransitions : Prop :=
  (∀ (r : Req) (s : State), Ready bindCommand r s →
    let a := s.taken bindCommand r
    let f := a.link.floor
    let ep := r.src.endpoint
    (f.toNat < r.claim.toNat ∨ (a.link.bound = false ∧ r.claim = f ∧ a.link.floorEp = some ep ∧ r.claim ≠ 0#64) →
      Answers (.bind r) r s (floors f r.claim)
        { a.supersede with link.staged := [], link.floor := r.claim, link.floorEp := some ep, link.bound := true,
                           oc.due := a.oc.due || decide (r.claim ≠ f) }) ∧
    (a.link.bound = true → r.claim = f → a.link.floorEp = some ep → Answers (.bind r) r s (floors f f) a) ∧
    (a.link.bound = false → r.claim = 0#64 → Leads (.bind r) s (a.answered r stRange [])) ∧
    (r.claim.toNat ≤ f.toNat → ¬ (r.claim = f ∧ a.link.floorEp = some ep) → (a.link.bound = true ∨ r.claim ≠ 0#64) →
      Leads (.bind r) s (a.answered r stClaimLow [])) ∧
    ∀ t, exec (.bind r) s = .next t → f.toNat ≤ t.link.floor.toNat) ∧
  (∀ (r : Req) (s : State),
    (Ready releaseCommand r s →
      let a := s.taken releaseCommand r
      (a.link.bound = true → a.holderCheck r.src.endpoint r.claim = none →
        Answers (.release r) r s [] { a.supersede with link.staged := [], link.bound := false }) ∧
      (a.link.bound = false → Leads (.release r) s (a.answered r stNotHolder []))) ∧
    (Ready forceReleaseCommand r s →
      let a := s.taken forceReleaseCommand r
      (a.link.bound = true →
        Answers (.forceRelease r) r s (u64 a.link.floor.toNat) { a.supersede with link.staged := [], link.bound := false }) ∧
      (a.link.bound = false → Answers (.forceRelease r) r s (u64 0) a)))

/-- SUBSCRIBE replaces a session's groups, SESSION_CLOSE and 120 s of silence end the session, NOTICE_ACK drops what it
acknowledges. SUBSCRIBE of a session that is not the Holder's answers and stores the asked mask cut to group 0x10.
SESSION_CLOSE leaves no session of its endpoint after its response, SESSION_LAPSE the same once 120 s have passed since the
last message; the Holder binding stays. A NOTICE_ACK of a sent notice drops that notice and all before it, and is answered
by no response of its own. (R58, R68, R69, R72, 02_shotas_link) -/
def Obligations.SessionsOpenSubscribeAndClose : Prop :=
  (∀ (r : Req) (s : State), Ready subscribeCommand r s →
    let a := s.taken subscribeCommand r
    let mask : BitVec 256 := BitVec.ofNat 256 (fromLe r.payload) &&& BitVec.ofNat 256 (2 ^ 16)
    a.holderSession r.src.endpoint = false →
    Answers (.subscribe r) r s (le 32 mask.toNat) (a.onSession r.src.endpoint (fun x => { x with mask := mask }))) ∧
  (∀ (r : Req) (s : State), Ready sessionCloseCommand r s →
    Leads (.sessionClose r) s ((s.taken sessionCloseCommand r).lapse r.src.endpoint) ∧
    ∀ t, exec (.sessionClose r) s = .next t → t.session? r.src.endpoint = none ∧
      t.link.bound = (s.taken sessionCloseCommand r).link.bound) ∧
  (∀ (dt : Ns) (ep : Endpoint) (s : State) (x : Session), (s.begin dt).running = true →
    (s.begin dt).session? ep = some x → x.lastRx + 120 * sec ≤ (s.begin dt).clk.mono →
    Leads (.sessionLapse dt ep) s ((s.begin dt).lapse ep)) ∧
  (∀ (r : Req) (s : State), (s.begin r.dt).hears r.src = true → r.flags.getLsbD 0 = false → r.lane = 0#8 →
    r.payload.length = 4 → ((s.begin r.dt).session? r.src.endpoint).isSome = true →
    exec (.noticeAck r) s = .next (((s.begin r.dt).touch r.src).acked r.src.endpoint (fld r.payload 0 4)).settle) ∧
  (∀ (n : Nat) (before after : List Notice) (m : Notice), m.seq = n → m.sentAt.isSome = true →
    (∀ x ∈ before, x.seq ≠ n) → acknowledge n (before ++ m :: after) = after)

/-- The later WARM_RESET replaces the pending one, and its reset comes at its admission plus its delay. A WARM_RESET of at
most 60,000 ms answers OK and sets the one pending reset to its own admission plus its delay, whatever was pending.
WARM_RESET_DUE at or after that instant enters the reset of kind 4; before it, and with nothing pending, it leaves the state
as time left it. (R622) -/
def Obligations.WarmResetComesAfterItsDelay : Prop :=
  (∀ (r : Req) (s : State), Ready warmResetCommand r s → fld r.payload 0 4 ≤ 60000 →
    Answers (.warmReset r) r s []
      { s.taken warmResetCommand r with
        link.warmDue := some ((s.taken warmResetCommand r).admittedAt r + fld r.payload 0 4 * ms) }) ∧
  (∀ (r : Req) (s : State), Ready warmResetCommand r s → (s.begin r.dt).session? r.src.endpoint ≠ none →
    1 ≤ r.lane.toNat → (∀ x ∈ (s.begin r.dt).link.sessions, x.lanes.length = 7) →
    (s.taken warmResetCommand r).admittedAt r = (s.begin r.dt).clk.mono) ∧
  (∀ (r : Req) (s : State), Ready warmResetCommand r s → 60000 < fld r.payload 0 4 →
    Leads (.warmReset r) s ((s.taken warmResetCommand r).answered r stRange [])) ∧
  (∀ (dt : Ns) (s : State) (due : Ns), (s.begin dt).running = true → (s.begin dt).link.warmDue = some due →
    (due ≤ (s.begin dt).clk.mono → Leads (.warmResetDue dt) s ((s.begin dt).enterReset 4)) ∧
    ((s.begin dt).clk.mono < due → Leads (.warmResetDue dt) s (s.begin dt))) ∧
  ∀ s : State, s.pwr.pendingStart = none → (s.enterReset 4).pwr.pendingStart = some 4

/-- The link's timers: interim responses, incomplete UART frames, notice resends, staging, snapshots and cursors. In a
running module: an INTERIM_RESPONSE of a lane whose command has no final answer marks it sent; a UART frame 100 ms old or
older is discarded and counted; NOTICE_RESEND keeps the session's notices in order and leaves everything but reports as it
was; the staging area is emptied 600 s after the last PARAM_SET; a snapshot is dropped 60 s after it was taken; a cursor is
dropped hs.cursor_idle_s after its last use. (R49, R63, R68, R98, R377, R470, 02_shotas_link) -/
def Obligations.LinkTimersAct : Prop :=
  (∀ (dt : Ns) (ep : Endpoint) (lane : Byte) (s : State) (op : Nat) (r : Req), (s.begin dt).running = true →
    ((s.begin dt).lane ep lane.toNat).cmd = some (op, r) → ((s.begin dt).lane ep lane.toNat).phase ≠ .idle →
    ((s.begin dt).lane ep lane.toNat).interimSent = false →
    Leads (.interimResponse dt ep lane) s
      ((s.begin dt).setLane ep lane.toNat { (s.begin dt).lane ep lane.toNat with interimSent := true })) ∧
  (∀ (dt age : Ns) (frame : List Byte) (s : State), (s.begin dt).running = true → 100 * ms ≤ age →
    Leads (.uartFrameTimeout dt frame age) s
      { s.begin dt with link.counts.uartDiscards := (s.begin dt).link.counts.uartDiscards + 1 }) ∧
  (∀ (dt : Ns) (ep : Endpoint) (s : State) (x : Session), (s.begin dt).running = true →
    (s.begin dt).session? ep = some x →
    Leads (.noticeResend dt ep) s (s.begin dt) ∧
    ∀ m ∈ x.notices, (∃ t, m.sentAt = some t ∧ t + sec ≤ (s.begin dt).clk.mono) →
      ((s.begin dt).resendNotices ep).delivers x.noticeTo ((s.begin dt).noticeMessage m)) ∧
  (∀ (dt : Ns) (s : State), (s.begin dt).running = true → (s.begin dt).link.stagedAt + 600 * sec ≤ (s.begin dt).clk.mono →
    Leads (.stagingTimeout dt) s { s.begin dt with link.staged := [] }) ∧
  (∀ (dt : Ns) (ep : Endpoint) (s : State), (s.begin dt).running = true →
    Leads (.snapshotLapse dt ep) s ((s.begin dt).onSession ep (fun x =>
      { x with snapshot := x.snapshot.filter (fun p => decide ((s.begin dt).clk.mono < p.takenAt + 60 * sec)) }))) ∧
  (∀ (dt : Ns) (cursor : Nat) (s : State), (s.begin dt).running = true →
    (∀ c ∈ (s.begin dt).hs.cursors, c.id = cursor → c.lastUse + (s.begin dt).num 0x7806 * sec ≤ (s.begin dt).clk.mono) →
    Leads (.cursorIdle dt cursor) s
      { s.begin dt with hs.cursors := (s.begin dt).hs.cursors.filter (fun c => c.id != cursor) })

/-! ## The host link -/

/-- Aperture writes fill the command buffer, RING hands it over, CLEAR empties it. In a running module whose window takes
the write: bytes written to the command aperture while no buffer is handed over are appended up to 1,500 bytes, the rest
dropped, counted and marked as overrun; while one is handed over they are all dropped and counted. RING hands a buffer of 28
bytes or more that is not overrun to the firmware, discards and counts a short or overrun one, and is dropped and counted
while one is handed over. CLEAR empties the buffer and clears the overrun mark; it acts after a RING in the same write.
(R113, R114, 03_parameters_and_registers) -/
def Obligations.CommandBufferFollowsTheDoorbell : Prop :=
  ∀ (dt : Ns) (tx : HlTx) (bytes : List Byte) (s : State), (s.begin dt).running = true → (s.begin dt).hlWrites tx = true →
    let a := s.begin dt
    (0x100 ≤ tx.addr.toNat → tx.addr.toNat < 0x200 → a.hl.handed = none →
      Leads (.hlCmdApertureWrite dt tx bytes) s
        { a with hl.cmd := a.hl.cmd ++ bytes.take (1500 - a.hl.cmd.length)
                 hl.overrun := a.hl.overrun || decide (1500 - a.hl.cmd.length < bytes.length)
                 hl.dropped := a.hl.dropped + BitVec.ofNat 16 (bytes.length - (1500 - a.hl.cmd.length)) }) ∧
    (0x100 ≤ tx.addr.toNat → tx.addr.toNat < 0x200 → a.hl.handed.isSome = true →
      Leads (.hlCmdApertureWrite dt tx bytes) s { a with hl.dropped := a.hl.dropped + BitVec.ofNat 16 bytes.length }) ∧
    (tx.addr = 0x084#16 →
      (a.hl.handed = none → a.hl.overrun = false → 28 ≤ a.hl.cmd.length →
        Leads (.ring dt tx false) s { a with hl.handed := some a.hl.cmd, hl.cmd := [] }) ∧
      (a.hl.handed = none → a.hl.overrun = true ∨ a.hl.cmd.length < 28 →
        Leads (.ring dt tx false) s { a with hl.cmd := [], hl.overrun := false, hl.crcShort := a.hl.crcShort + 1#16 }) ∧
      (a.hl.handed.isSome = true →
        Leads (.ring dt tx false) s { a with hl.dropped := a.hl.dropped + 1#16 }) ∧
      (a.hl.handed.isSome = true →
        Leads (.ring dt tx true) s { a with hl.dropped := a.hl.dropped + 1#16, hl.cmd := [], hl.overrun := false }) ∧
      Leads (.clear dt tx) s { a with hl.cmd := [], hl.overrun := false })

/-- Reads of the response aperture give the head message, zeros past its end, and POP releases it. In a running module: a
valid read of n bytes returns the next bytes of the head message, filled with zeros past its end, advances the read position
over the message's bytes and counts the bytes past the end. POP releases the head message and returns the position to 0;
what stood behind it stays first. (R115, R111, 03_parameters_and_registers) -/
def Obligations.ResponseBufferIsReadAndPopped : Prop :=
  (∀ (dt : Ns) (tx : HlTx) (count : Nat) (s : State), (s.begin dt).running = true → (s.begin dt).hlReads tx = true →
    0x200 ≤ tx.addr.toNat → tx.addr.toNat < 0x300 → (s.begin dt).hlBadRead tx = false →
    let a := s.begin dt
    let got := ((a.hl.rsp.headD []).drop a.hl.readPos).take count
    ∃ t, exec (.hlRspApertureRead dt tx count) s = .next t ∧
      Out.hostData (got ++ zeros (count - got.length)) ∈ t.out ∧
      Reports { a with hl.readPos := a.hl.readPos + got.length
                       hl.pastEnd := a.hl.pastEnd + BitVec.ofNat 16 (count - got.length) } t) ∧
  (∀ (dt : Ns) (tx : HlTx) (s : State), (s.begin dt).running = true → (s.begin dt).hlWrites tx = true → tx.addr = 0x090#16 →
    ∃ t, exec (.pop dt tx) s = .next t ∧ Reports { s.begin dt with hl.readPos := 0 } t ∧
      (s.begin dt).hl.rsp.drop 1 <+: t.hl.rsp)

/-- LINK_RESET resets the window and ends its session; MODULE_RESET resets the module only for the Holder's host or an
unbound module. In a running module whose window takes the write to HL_RESET: LINK_RESET gives every window register its
reset value and ends the host-link session, the Holder binding kept. MODULE_RESET outside LAST-GASP enters the reset of kind
5 where nobody is bound or the host link is the Holder's endpoint; otherwise it changes nothing but its count of ignored
resets. (R117, R118, R120, 03_parameters_and_registers) -/
def Obligations.HostLinkResetsAct : Prop :=
  ∀ (dt : Ns) (tx : HlTx) (s : State), (s.begin dt).running = true → (s.begin dt).hlWrites tx = true → tx.addr = 0x01C#16 →
    let a := s.begin dt
    Leads (.linkReset dt tx false) s { a.lapse .host with hl := HostLink.reset } ∧
    (a.pwr.state ≠ .lastGasp → (a.link.bound = false ∨ a.link.floorEp = some .host) →
      Leads (.moduleReset dt tx) s (a.enterReset 5) ∧
      Leads (.linkReset dt tx true) s ({ a.lapse .host with hl := HostLink.reset }.enterReset 5)) ∧
    ((a.pwr.state = .lastGasp ∨ (a.link.bound = true ∧ a.link.floorEp ≠ some .host)) →
      Leads (.moduleReset dt tx) s { a with hl.resetIgnored := a.hl.resetIgnored + 1#16 })

/-- Latched reads, register writes and parity failures of the window. A valid read of SD_TIME returns it and latches SD_DATE
and SD_SUB; a valid read of HL_NOW_LO returns the low half of the present Stamp64 and latches the high half; a read of fewer
than 32 bits of either latches nothing. A completed 32-bit write sets HL_SCRATCH; to HL_CTRL and HL_ATTN_MASK it changes
reserved bits only while the life cycle is BLANK; a write of fewer than 32 bits changes nothing. A parity failure of HL_CTRL
is counted; the register keeps its value if its duplicate is good and else takes its reset value 0x80 with CFG_PARITY set,
and the third failure in 60 s marks it failed. A parity failure of a firmware-written register is counted in
sys.parity_count and leaves nothing restoring. (R104, R111, R119, R107, R108, 03_parameters_and_registers) -/
def Obligations.WindowReadsAndWrites : Prop :=
  (∀ (dt : Ns) (tx : HlTx) (s : State), (s.begin dt).running = true → (s.begin dt).hlReads tx = true →
    (s.begin dt).hlBadRead tx = false →
    let a := s.begin dt
    (tx.addr = 0x380#16 →
      (∃ t, exec (.sdTimeRead dt ⟨tx, 32⟩) s = .next t ∧ Out.hostData (u32 a.sdTime) ∈ t.out ∧
        Reports { a with hl.sdDate := BitVec.ofNat 32 a.sdDate, hl.sdSub := BitVec.ofNat 32 a.sdSub } t) ∧
      ∀ bits, bits < 32 → Leads (.sdTimeRead dt ⟨tx, bits⟩) s a) ∧
    (tx.addr = 0x3C8#16 →
      (∃ t, exec (.hlNowLoRead dt ⟨tx, 32⟩) s = .next t ∧ Out.hostData (u32 a.now) ∈ t.out ∧
        Reports { a with hl.nowHi := BitVec.ofNat 32 (a.now / 2 ^ 32) } t) ∧
      ∀ bits, bits < 32 → Leads (.hlNowLoRead dt ⟨tx, bits⟩) s a)) ∧
  (∀ (dt : Ns) (tx : HlTx) (v : Word) (s : State), (s.begin dt).running = true → (s.begin dt).hlWrites tx = true →
    let a := s.begin dt
    (tx.addr = 0x014#16 → Leads (.registerWrite dt tx [v] 32) s { a with hl.scratch := v }) ∧
    (tx.addr = 0x018#16 → a.ks.lifecycle ≠ 0 → (a.hl.ctrl ^^^ v) &&& 0xFFFFFF00#32 = 0#32 →
      Leads (.registerWrite dt tx [v] 32) s
        { a with hl.ctrl := (v &&& 0xFF#32) ||| (a.hl.ctrl &&& 0xFFFFFF00#32), hl.ctrlBadParity := false }) ∧
    (tx.addr = 0x044#16 → a.ks.lifecycle = 0 → (a.hl.attnMask ^^^ v) &&& 0xFFFFFFF0#32 = 0#32 →
      Leads (.registerWrite dt tx [v] 32) s { a with hl.attnMask := v, hl.maskBadParity := false }) ∧
    ∀ bits : Nat, bits < 32 → Leads (.registerWrite dt tx [v] bits) s a) ∧
  (∀ (dt : Ns) (dup : Bool) (s : State), (s.begin dt).running = true →
    let a := s.begin dt
    let times := a.hl.ctrlTimes.filter (fun t => decide (a.clk.mono < t + 60 * sec)) ++ [a.clk.mono]
    Leads (.parityScan dt [.hlCtrl dup]) s
      { a with hl.parityFails := a.hl.parityFails + 1#16, hl.ctrlTimes := times,
               hl.ctrl := if dup then 0x80#32 else a.hl.ctrl, hl.ctrlBadParity := a.hl.ctrlBadParity || dup,
               hl.ctrlFailed := a.hl.ctrlFailed || decide (3 ≤ times.length), par.restoring := [] }) ∧
  (∀ (dt : Ns) (id index : Nat) (s : State), (s.begin dt).running = true →
    ∃ t, exec (.parityScan dt [.parameter id index]) s = .next t ∧ t.par.restoring = [] ∧ t.par.vals = (s.begin dt).par.vals ∧
      t.counter 0x10F0 = ((s.begin dt).counter 0x10F0 + 1) % counterMod 0x10F0)

/-- A message with a bad CRC is discarded and counted; an opcode the release does not implement is answered UNSUPPORTED and
changes nothing. While the module hears the port: a UART frame whose message fails its CRC-32C, or is longer than 1,500
bytes, leaves the state but for its count. A message with a valid CRC and header whose opcode is not in the catalogue is a
request of the command of no effect; taken up on its lane, that is answered UNSUPPORTED before every other check. The host's
buffer that a RING handed over is received as a message of the host link, and none is handed over after it. (R8, R52, R53,
R114, 02_shotas_link) -/
def Obligations.MessagesThatNoRowNames : Prop :=
  (∀ (dt : Ns) (f m : List Byte) (s : State), (s.begin dt).hears .uart = true → framed .uart f = some m →
    (m.length ≤ 1500 → crcValid m = false → Leads (.unsupportedOpcode dt .uart f) s
      { s.begin dt with link.counts.crcDiscards := (s.begin dt).link.counts.crcDiscards + 1 }) ∧
    (1500 < m.length → Leads (.unsupportedOpcode dt .uart f) s
      { s.begin dt with link.counts.uartDiscards := (s.begin dt).link.counts.uartDiscards + 1 })) ∧
  (∀ (dt : Ns) (m : List Byte) (s : State), (s.begin dt).hears .host = true → crcValid m = true → headerOk m = true →
    (requestOf .host m).flags.getLsbD 0 = false → fld m 8 2 ≠ 0x9807 → fld m 8 2 ≠ 0x2006 →
    catalogue.find? (fun c => c.opcode == fld m 8 2) = none →
    Leads (.unsupportedOpcode dt .host m) s ((s.begin dt).request (unsupportedCommand (fld m 8 2)) (requestOf .host m))) ∧
  (∀ (op : Nat) (r : Req) (s : State), (s.begin r.dt).hears r.src = true → r.flags.getLsbD 0 = false →
    (unsupportedCommand op).headerOk r = true → (s.begin r.dt).noRoom r.src.endpoint = false →
    ((((s.begin r.dt).countRetry r).sessionHears r).lane r.src.endpoint r.lane.toNat).verdict op r = .accept →
    ∃ t, shotas (unsupportedCommand op) r s = .next t ∧
      Reports ((s.taken (unsupportedCommand op) r).answered r stUnsupported []) t) ∧
  (∀ (dt : Ns) (b : List Byte) (s : State), (s.begin dt).running = true → (s.begin dt).hl.handed = some b →
    Leads (.hlBufferTaken dt) s ({ s.begin dt with hl.handed := none }.receive .host b))

/-- A command that waited on its unit runs when its final response comes, or ends SUPERSEDED where a Holder transition
overtook it. In a running module: FINAL_RESPONSE of a lane whose command waits runs that command's body and concludes the
lane with its result; of a lane whose command a Holder transition overtook it answers SUPERSEDED, and but for that answer
changes nothing; a transition overtakes every waiting command that was admitted under the Holder check, and no other. (R62,
R63, R77, 02_shotas_link) -/
def Obligations.WaitingCommandsFinish : Prop :=
  (∀ (dt : Ns) (ep : Endpoint) (lane : Byte) (s u : State) (op st : Nat) (p : List Byte) (r : Req) (c : Command),
    (s.begin dt).running = true → ((s.begin dt).lane ep lane.toNat).cmd = some (op, r) →
    ((s.begin dt).lane ep lane.toNat).phase = .waiting → (s.begin dt).commandOf op = some c → statusCached st = true →
    c.body r (s.begin dt) = .done st p u →
    Leads (.finalResponse dt ep lane) s (u.answered r st p)) ∧
  (∀ (dt : Ns) (ep : Endpoint) (lane : Byte) (s : State) (op : Nat) (r : Req),
    (s.begin dt).running = true → ((s.begin dt).lane ep lane.toNat).cmd = some (op, r) →
    ((s.begin dt).lane ep lane.toNat).phase = .superseded →
    Leads (.finalResponse dt ep lane) s ((s.begin dt).setLane ep lane.toNat
      { (s.begin dt).lane ep lane.toNat with phase := .idle, cached := some (stSuperseded, []) })) ∧
  ∀ (s : State) (x : Session) (l : Lane), x ∈ s.supersede.link.sessions → l ∈ x.lanes →
    ∃ y ∈ s.link.sessions, y.ep = x.ep ∧ ∃ m ∈ y.lanes,
      l = (if overtaken x.ep m then { m with phase := .superseded } else m)

/-! ## Parameters -/

/-- PARAM_SET stages all its entries or none, PARAM_COMMIT applies them at one instant, PARAM_ABORT drops them. PARAM_SET
whose entries all pass their checks, within 256 parameters and 8,192 value bytes, answers OK and leaves the staging area
with them merged in; one whose entry fails answers that entry's status and changes nothing. PARAM_COMMIT with nothing staged
answers OK with 0; with staged values that break no rule it leaves the committed state, the staging area empty, and answers
OK with their number, at once where no plan item of it waits for room, else with its last item; with values that break a
rule it answers that rule's status and changes nothing. PARAM_ABORT answers OK and leaves the staging area empty. The
applied state reads every staged value back. (R88, R91, R92, R93, R94, R95, R98, 03_parameters_and_registers) -/
def Obligations.ParametersAreStagedThenCommitted : Prop :=
  (∀ (r : Req) (s : State) (es : List (Nat × List Byte)), Ready paramSetCommand r s → setEntries r.payload = some es →
    es ≠ [] → es.length ≤ 64 →
    let a := s.taken paramSetCommand r
    let x := a.stage (r.src = .uart) a.link.staged es
    (x.1 = stOk → stagedIds x.2 ≤ 256 → stagedBytes x.2 ≤ 8192 →
      Answers (.paramSet r) r s [] { a with link.staged := x.2, link.stagedAt := a.clk.mono }) ∧
    (x.1 ≠ stOk → statusCached x.1 = true → Leads (.paramSet r) s (a.answered r x.1 []))) ∧
  (∀ (r : Req) (s : State), Ready paramCommitCommand r s →
    let a := s.taken paramCommitCommand r
    (a.link.staged = [] → Answers (.paramCommit r) r s (u16 0) a) ∧
    (a.link.staged ≠ [] → a.applied.rulesStatus = stOk →
      let u := a.commit (classCode r.src)
      let p := u16 (stagedIds a.link.staged)
      (u.plan.held.length ≤ a.plan.held.length → Answers (.paramCommit r) r s p { u with link.uartRate := u.num 0x2001 }) ∧
      ∀ it rest, a.plan.held.length < u.plan.held.length → u.plan.held = rest ++ [(it, none)] →
        let v := { u with plan.held := rest ++ [(it, some (r.src.endpoint, r.lane.toNat, p))] }
        Leads (.paramCommit r) s
          (v.setLane r.src.endpoint r.lane.toNat { v.lane r.src.endpoint r.lane.toNat with phase := .begun })) ∧
    (a.link.staged ≠ [] → a.applied.rulesStatus ≠ stOk → statusCached a.applied.rulesStatus = true →
      Leads (.paramCommit r) s (a.answered r a.applied.rulesStatus []))) ∧
  (∀ (r : Req) (s : State), Ready paramAbortCommand r s →
    Answers (.paramAbort r) r s [] { s.taken paramAbortCommand r with link.staged := [] }) ∧
  ∀ (s : State) (k : Nat) (v : PVal), twf s.link.staged = true → tget s.link.staged k = some v →
    s.applied.value (k / 65536) (k % 65536) = v

/-- PARAM_GET of one known parameter answers its ID, length and value. PARAM_GET naming one parameter of the release, whose
entry fits the response, answers OK with the count 1 and that parameter's entry; an ID that the release does not implement
is answered UNSUPPORTED with nothing changed, and a list of none or of more than 64 IDs RANGE. (R87, R89, R90,
03_parameters_and_registers) -/
def Obligations.ParamGetShowsItsParameters : Prop :=
  (∀ (r : Req) (s : State) (id : Nat) (row : ParamRow), Ready paramGetCommand r s →
    (entries 2 r.payload).map fromLe = [id] → paramRow id = some row →
    let a := s.taken paramGetCommand r
    4 + (a.paramEntry row).1.length ≤ 1472 →
    Answers (.paramGet r) r s (u16 1 ++ u16 0 ++ (a.paramEntry row).1) (a.paramEntry row).2) ∧
  (∀ (r : Req) (s : State) (id : Nat), Ready paramGetCommand r s →
    (entries 2 r.payload).map fromLe = [id] → paramRow id = none →
    Leads (.paramGet r) s ((s.taken paramGetCommand r).answered r stUnsupported [])) ∧
  (∀ (r : Req) (s : State), Ready paramGetCommand r s →
    (fld r.payload 0 2 = 0 ∨ 64 < fld r.payload 0 2) →
    Leads (.paramGet r) s ((s.taken paramGetCommand r).answered r stRange []))

/-! ## Group 0x30: the light plan -/

/-- OVERRIDE_SET stores its override from its effective start, OVERRIDE_CLEAR ends the named ones, starts and ends take
effect when due. An OVERRIDE_SET that passes the checks of R140 answers with the effective start, not earlier than
lp.override_lead from its admission, and the number of points covered; the override stands on its handle and an earlier one
of the handle ends where it starts. It answers once its plan items are in the queue. One that ends by its admission is
answered TOO_LATE and changes nothing. OVERRIDE_CLEAR answers with the number of handles and ends every named override
lp.override_lead from its admission. OVERRIDE_START marks the override begun, OVERRIDE_END removes it once its end has come;
each issues what was not issued before. (R140, R141, R142, R145, R146, R224, 04_light_plan) -/
def Obligations.OverridesStartEndAndReplace : Prop :=
  (∀ (r : Req) (s : State), Ready overrideSetCommand r s →
    let a := s.taken overrideSetCommand r
    let p := r.payload
    let admitted := a.admittedTb r
    let eff := max (fld p 16 8) (admitted + a.num 0x3023 * ms)
    let o := { overrideAt p eff with startSent := a.near eff }
    let earlier := a.endedBy (fun x => x.handle == o.handle) eff
    let stored := insertBy (fun x => x.handle) o (replaceHandle o.handle eff (a.near eff) a.plan.overrides)
    let b := ({ a with plan.overrides := stored } : State).demandAll
    let cs := (if eff < fld p 24 8 then b.overrideCmds o eff o.fade else []) ++
      earlier.flatMap (fun x => b.overrideCmds x eff x.endFade)
    a.overrideRefused p = none →
    (admitted < fld p 24 8 → (fld p 32 4 = 0xFFFFFFFF ∨ admitted ≤ fld p 16 8 + fld p 32 4 * ms) →
      ¬ (hasBit (fld p 11 1) 0 = true ∧ eff + day24 < fld p 24 8) →
      PlanAnswers (.overrideSet r) r s (if a.near eff then onePerPoint cs else [])
        (u64 eff ++ u16 (b.covered o).length ++ u16 0) b) ∧
    (fld p 24 8 ≤ admitted → Leads (.overrideSet r) s (a.answered r stTooLate []))) ∧
  (∀ (r : Req) (s : State), Ready overrideClearCommand r s →
    let a := s.taken overrideClearCommand r
    let h := fld r.payload 0 2
    let fade := fld r.payload 2 2
    let t := a.admittedTb r + a.num 0x3023 * ms
    let named (o : Override) : Bool := h == 0xFFFF || o.handle == h
    let b := { a with plan.overrides := a.plan.overrides.filterMap (fun o =>
      if named o then endOverride t fade o else some o) }.demandAll
    h ≤ 255 ∨ h = 0xFFFF → fade ≤ 60000 →
    PlanAnswers (.overrideClear r) r s (onePerPoint ((a.endedBy named t).flatMap (fun o => a.overrideCmds o t fade)))
      (u16 (((a.plan.overrides.filter named).map (fun o => o.handle)).dedup).length ++ u16 0) b) ∧
  (∀ (dt : Ns) (h : Nat) (s : State) (o : Override), (s.begin dt).running = true →
    (s.begin dt).plan.overrides.find? (fun o => o.handle == h && !o.begun && decide (o.start ≤ (s.begin dt).tb)) = some o →
    let b := ((s.begin dt).onOverride h o.start (fun o => { o with begun := true, startSent := true })).floorExempt o 1
    Leads (.overrideStart dt h) s
      (if o.startSent then b else b.planChange (b.overrideCmds o (b.tb + b.num 0x3023 * ms) o.fade) none).demandAll) ∧
  (∀ (dt : Ns) (h : Nat) (s : State) (o : Override), (s.begin dt).running = true →
    (s.begin dt).plan.overrides.find? (fun o => o.handle == h && decide (o.finish ≤ (s.begin dt).tb)) = some o →
    let b := { s.begin dt with plan.overrides := (s.begin dt).plan.overrides.filter (fun x => x != o) }
    let c := if o.begun then b.floorExempt o 2 else b
    Leads (.overrideEnd dt h) s
      (if o.endSent then c else c.planChange (c.overrideCmds o (c.tb + c.num 0x3023 * ms) o.endFade) none).demandAll) ∧
  (∀ (h : Nat) (start : Ns) (sent : Bool) (l : List Override) (o : Override),
    (o ∈ replaceHandle h start sent l → o.handle = h → o.finish ≤ start) ∧
    (o ∈ l → o.handle ≠ h → o ∈ replaceHandle h start sent l)) ∧
  ∀ (o : Override) (t : Ns) (fade : Nat), (endOverride t fade o = none ↔ t ≤ o.start) ∧
    ∀ o', endOverride t fade o = some o' → o'.finish ≤ t ∧ o'.handle = o.handle

/-- TYPE_SET, LAMP_SET and LAMP_REMOVE change the stored types and records as their payload says. TYPE_SET of 1 to 16 valid
types, none of which changes the channels of a type in use, answers OK and leaves each type stored, its users' nodes marked
for reconfiguration and their points relaunched lp.override_lead after the admission; with a type in use whose channels
change it is answered STATE and changes nothing. LAMP_SET of valid records within the table's capacity stores each and
relaunches its points likewise. LAMP_REMOVE answers the number of records removed and leaves none of them. (R168, R169,
R173, 04_light_plan) -/
def Obligations.LampTypesAndRecordsAreStored : Prop :=
  (∀ (r : Req) (s : State), Ready typeSetCommand r s →
    let a := s.taken typeSetCommand r
    let ts := (entries 12 r.payload).map typeAt
    let used (t : LampType) : List Pid := (a.plan.lamps.filter (fun e => e.2.type == t.type)).map (fun e => e.2.point)
    ts ≠ [] → ts.length ≤ 16 → ts.all typeOk = true →
    let clash := ts.any (fun (t : LampType) => match tget a.plan.types t.type with
      | some o => o.channels != t.channels && !(used t).isEmpty
      | none => false)
    (clash = false → RelaunchAnswers (.typeSet r) r s (ts.flatMap used) []
      ({ a with plan.types := ts.foldl (fun x (t : LampType) => tput x t.type t) a.plan.types }.reconfigure
        (ts.flatMap used))) ∧
    (clash = true → Leads (.typeSet r) s (a.answered r stState []))) ∧
  (∀ (r : Req) (s : State), Ready lampSetCommand r s →
    let a := s.taken lampSetCommand r
    let ls := (entries 16 r.payload).map lampAt
    let moved := ls.filter (fun l => ((a.lampOf l.point).map (fun o => o.type)) != some l.type)
    ls ≠ [] → firstRefusal (ls.map a.lampRefused) = none →
    (a.tablePoints (ls.foldl (fun t l => tput t (pointKey l.point) l) a.plan.lamps)).length ≤ min 4096 a.pointsFitted →
    RelaunchAnswers (.lampSet r) r s (ls.map (fun l => l.point)) []
      ((ls.foldl State.storeLamp a).reconfigure (moved.map (fun l => l.point))).demandAll) ∧
  (∀ (s : State) (l : Lamp), tget (s.storeLamp l).plan.lamps (pointKey l.point) = some l ∧
    ∀ k, k ≠ pointKey l.point → tget (s.storeLamp l).plan.lamps k = tget s.plan.lamps k) ∧
  (∀ (r : Req) (s : State), Ready lampRemoveCommand r s →
    let a := s.taken lampRemoveCommand r
    let ps := ((entries 6 r.payload).map (fun b => pidAt b 0)).dedup
    let gone := ps.filter (fun p => (a.lampOf p).isSome)
    ps ≠ [] → firstRefusal (ps.map a.pointRefused) = none →
    Answers (.lampRemove r) r s (u16 gone.length ++ u16 0) (gone.foldl State.removeLamp a).demandAll)

/-- The queries of the light plan answer what stands stored and change nothing. OVERRIDE_LIST, TYPE_GET, LAMP_GET,
TARGET_QUERY, NIGHT_QUERY and DIAG_LIST, taken up, answer OK with the overrides, all 16 types, the lamp records, a point's
target, the night of an existing date and the channels' diagnostics, and but for that answer leave the state as it was;
NIGHT_QUERY of a date that does not exist is answered RANGE. (R168, R626, 04_light_plan) -/
def Obligations.LightPlanQueriesChangeNothing : Prop :=
  ∀ (r : Req) (s : State),
    (Ready overrideListCommand r s → Answers (.overrideList r) r s
      (page ((s.taken overrideListCommand r).plan.overrides.map (fun o => (o.handle, o.entry))) (fld r.payload 0 2) 36)
      (s.taken overrideListCommand r)) ∧
    (Ready typeGetCommand r s → ∃ p, p.length = 196 ∧ fld p 0 2 = 16 ∧
      (∀ i t, tget (s.taken typeGetCommand r).plan.types i = some t → i < 16 → slice p (4 + 12 * i) 12 = t.bytes) ∧
      Answers (.typeGet r) r s p (s.taken typeGetCommand r)) ∧
    (Ready lampGetCommand r s → Answers (.lampGet r) r s
      (page (ordinal (s.taken lampGetCommand r).plan.lamps (fun e => e.2.bytes)) (fld r.payload 0 2) 91)
      (s.taken lampGetCommand r)) ∧
    (Ready diagListCommand r s → Answers (.diagList r) r s
      (page (ordinal (s.taken diagListCommand r).plan.diag (s.taken diagListCommand r).diagEntry) (fld r.payload 0 2) 91)
      (s.taken diagListCommand r)) ∧
    (∀ (l : Lamp) (ty : LampType), Ready targetQueryCommand r s →
      (s.taken targetQueryCommand r).pointRefused (pidAt r.payload 0) = none →
      (s.taken targetQueryCommand r).lampOf (pidAt r.payload 0) = some l →
      tget (s.taken targetQueryCommand r).plan.types l.type = some ty →
      Answers (.targetQuery r) r s ((s.taken targetQueryCommand r).target (pidAt r.payload 0) l ty)
        (s.taken targetQueryCommand r)) ∧
    (Ready nightQueryCommand r s →
      let d : Date := { year := fld r.payload 0 2, month := fld r.payload 2 1, day := fld r.payload 3 1 }
      (d.exists_ = true → 2020 ≤ d.year → d.year ≤ 2603 →
        Answers (.nightQuery r) r s (nightBytes ((s.taken nightQueryCommand r).night (dayNumber d))) (s.taken nightQueryCommand r)) ∧
      (d.exists_ = false → Leads (.nightQuery r) s ((s.taken nightQueryCommand r).answered r stRange [])))

/-- The light plan's timers: nights, plan commands, photocell, diagnostics, late discards and circuit demand. In a running
module: at or after 12:00 civil time NIGHT_RESOLVE adds the night of that date and drops those over; PLAN_COMMAND_DUE issues
what is due; a photocell reading that has held for lp.photo_debounce counts, a younger one changes nothing;
PHOTO_WINDOW_EXPIRY releases a held switch-off lp.plan_lead ahead; DIAG_DUE of a due channel of a clear point launches its
pulse, and with it that of a channel due within the same lit period; a channel without a result for lp.diag_floor of lit
time becomes UNDIAGNOSED; a command still in queue 0x03 past its launch plus tolerance is taken out, counted, and recovered
where R161 says so; CIRCUIT_DEMAND_DUE applies the circuit's present demand. (R129, R134, R160, R161, R165, R167, R416,
04_light_plan, 10_output_chain) -/
def Obligations.LightPlanTimersAct : Prop :=
  ∀ (dt : Ns) (s : State), (s.begin dt).running = true →
    let a := s.begin dt
    (a.civilKnown = true → 43200 ≤ a.civilOfTb a.tb % 86400 → (a.plan.nights.any (fun n => (n.day : Int) = a.dayAt a.tb)) = false →
      let x := a.resolved (a.dayAt a.tb)
      Leads (.nightResolve dt) s
        { x.2 with plan.nights := x.2.plan.nights.filter (fun n => n.lit && x.2.nightStays n) ++ [x.1] }) ∧
    Leads (.planCommandDue dt) s a.planDue ∧
    (a.plan.photo.since + a.num 0x3006 * sec ≤ a.clk.mono →
      Leads (.photoDebounce dt) s (a.photoCounts a.plan.photo.dark)) ∧
    (a.clk.mono < a.plan.photo.since + a.num 0x3006 * sec → Leads (.photoDebounce dt) s a) ∧
    (∀ n, a.heldNight = some n →
      (n.finish ≤ a.tb + a.num 0x3020 * sec → Leads (.photoWindowExpiry dt) s (a.issuePlan n.finish)) ∧
      (a.tb + a.num 0x3020 * sec < n.finish → Leads (.photoWindowExpiry dt) s a)) ∧
    (∀ (point : Pid) (l : Lamp) (ty : LampType) (ch : Nat), a.lampOf point = some l → tget a.plan.types l.type = some ty →
      let w := a.tb + a.num 0x3023 * ms
      let ahead := match a.plan.nights.find? (fun n => n.lit && n.start ≤ a.tb && a.tb < n.finish) with
        | some n => n.finish - a.tb
        | none => 0
      a.served 0x07 = true → a.baseLit = true → a.channelDue (pointKey point) ch 0 = true → a.inPulse (pointKey point) ch = false →
      a.clearOf l.section_ (w - a.num 0x3032 * ms) (w + ty.diagMs * ms + a.num 0x3032 * ms) = true →
      Leads (.diagDue dt point ch) s
        (a.pulse point ty (ch :: (if a.channelDue (pointKey point) (1 - ch) ahead then [1 - ch] else [])) w)) ∧
    (∀ (point : Pid) (ch : Nat) (d : ChannelDiag), tget a.plan.diag (pointKey point * 2 + ch) = some d → ch < 2 →
      a.num 0x3030 * sec ≤ a.litCount d →
      Leads (.undiagnosed dt point ch) s
        { a with plan.diag := if d.state = 2 then a.plan.diag
                              else tput a.plan.diag (pointKey point * 2 + ch) { d with state := 2 } }) ∧
    (∀ (point : Pid) (launch : Ns) (c : DriveCmd),
      let here (it : Item) : Option DriveCmd := match it.body with
        | .drive c => if c.point = point ∧ c.launch = launch then some c else none
        | _ => none
      (a.queue 0x03).items.findSome? here = some c → c.tol ≠ 0xFFFF → launch + c.tol * ms < a.tb →
      Leads (.lateDiscard dt point launch) s (((a.purge 0x03 (fun it => (here it).isSome)).bump 0x30F0).discarded c)) ∧
    ∀ circuit, circuit < a.circuitsFitted → Leads (.circuitDemandDue dt circuit) s (a.demandNow circuit).followAll

/-! ## Group 0x68: the output chain -/

/-- CIRCUIT_FORCE takes effect from its start and ends when due; a force decides its circuit's demand; the status queries
change nothing. A CIRCUIT_FORCE of a fitted circuit, or of every circuit in use, that passes its checks answers OK with its
effective start: begun at once where that has come, kept for CIRCUIT_FORCE_START otherwise. CIRCUIT_FORCE_START begins a
force whose start has come, CIRCUIT_FORCE_END ends one whose end has come. While a force ON or OFF stands, a circuit of the
chain in use is demanded ON or OFF whatever the plan says; without one its demand is the plan's. CIRCUIT_STATUS and
LATCH_STATUS answer every fitted circuit and every latch of the chain and change nothing. (R413, R415, R416,
10_output_chain) -/
def Obligations.ForcesAndChainStatus : Prop :=
  (∀ (r : Req) (s : State), Ready circuitForceCommand r s →
    let a := s.taken circuitForceCommand r
    let c := fld r.payload 0 1
    let start := fld r.payload 8 8
    let eff := max start a.tb
    let f : Force := { mode := fld r.payload 1 1, start := eff, finish := fld r.payload 16 8, begun := false }
    start ≠ 0 → start < fld r.payload 16 8 → (c < a.circuitsFitted ∧ c < 48) ∨ c = 0xFF → fld r.payload 1 1 ≤ 2 →
    a.tb < fld r.payload 16 8 → (fld r.payload 4 4 = 0xFFFFFFFF ∨ a.tb ≤ start + fld r.payload 4 4 * ms) →
    (a.tb < start → Answers (.circuitForce r) r s (u64 start)
      ((a.forceTargets c).foldl (fun s c => { s with oc.forces := tput s.oc.forces c f }) a).followAll) ∧
    (start ≤ a.tb → Answers (.circuitForce r) r s (u64 a.tb) ((a.forceTargets c).foldl (fun s c => s.startForce c f) a).followAll)) ∧
  (∀ (s : State) (c : Nat), (c ≠ 0xFF → s.forceTargets c = [c]) ∧
    (c = 0xFF → ∀ d, d ∈ s.forceTargets c ↔ d < s.circuitsFitted ∧ s.circuitUsed d = true)) ∧
  (∀ (dt : Ns) (c : Nat) (s : State) (f : Force), (s.begin dt).running = true →
    (tget (s.begin dt).oc.forces c = some f → f.start ≤ (s.begin dt).tb →
      Leads (.circuitForceStart dt c) s ((s.begin dt).startForce c f).followAll) ∧
    (tget (s.begin dt).oc.current c = some f → f.finish ≤ (s.begin dt).tb →
      Leads (.circuitForceEnd dt c) s { s.begin dt with oc.current := tdel (s.begin dt).oc.current c }.followAll)) ∧
  (∀ (s : State) (c : Nat) (f : Force), s.switchable c = true →
    (tget (s.startForce c f).oc.current c = if f.mode = 0 then none else some { f with begun := true }) ∧
    (tget s.oc.current c = some f → f.mode = 1 → s.demanded c = true) ∧
    (tget s.oc.current c = some f → f.mode = 2 → s.demanded c = false) ∧
    (tget s.oc.current c = none → s.demanded c = (s.circuitOf c).plan)) ∧
  (∀ (r : Req) (s : State),
    (Ready circuitStatusCommand r s → ∃ p, fld p 0 2 = (s.taken circuitStatusCommand r).circuitsFitted ∧
      p.length = 4 + 16 * (s.taken circuitStatusCommand r).circuitsFitted ∧
      Answers (.circuitStatus r) r s p (s.taken circuitStatusCommand r)) ∧
    (Ready latchStatusCommand r s → ∃ p, fld p 0 2 = (s.taken latchStatusCommand r).num 0x6801 % 65536 ∧
      p.length = 4 + 24 * (s.taken latchStatusCommand r).num 0x6801 ∧
      Answers (.latchStatus r) r s p (s.taken latchStatusCommand r)))

/-- A due chain cycle shifts out one frame per latch with F and the next sequence; the first after a reset is NOP and its
sensed levels are adopted. In a running module, a due CHAIN_CYCLE hands out the frames of every latch of the chain, first
latch first, and advances the sequence and the instant of the last cycle; a cycle that is not due changes nothing. Each
frame carries F in its top 64 bits; in the first cycle after a reset its command is NOP with no outputs, and its sensed
levels become the commanded states, the next cycle due at once. DWELL_EXPIRY and INRUSH_EXPIRY let every circuit follow its
demand, and a circuit whose dwell and the inrush interval have passed is switched to it. (R401, R406, R408, R414,
10_output_chain) -/
def Obligations.ChainCyclesSendTheCommandedStates : Prop :=
  (∀ (dt : Ns) (words : List (BitVec 128)) (s : State), (s.begin dt).running = true →
    let a := s.begin dt
    (a.cycleDue = true → ∃ t, exec (.chainCycle dt words) s = .next t ∧ Out.latchFrames a.chainFrames ∈ t.out ∧
      t.oc.seq = a.oc.seq + 1#8 ∧ t.oc.lastCycle = a.clk.mono ∧ t.link.floor = a.link.floor ∧ t.plan.overrides = a.plan.overrides ∧
      (a.oc.phase = 0 → t.oc.phase = 1 ∧ t.oc.due = true) ∧ (a.oc.phase ≠ 0 → t.oc.phase = 2)) ∧
    (a.cycleDue = false → Leads (.chainCycle dt words) s a)) ∧
  (∀ (s : State), s.chainFrames.length = s.num 0x6801) ∧
  (∀ (claim : Claim) (outputs command seq position : Nat),
    (latchFrame claim outputs command seq position).toNat / 2 ^ 64 = claim.toNat ∧
    (latchFrame claim outputs command seq position).toNat / 2 ^ 56 % 256 = outputs % 256 ∧
    (latchFrame claim outputs command seq position).toNat / 2 ^ 48 % 256 = command % 256 ∧
    (latchFrame claim outputs command seq position).toNat / 2 ^ 40 % 256 = seq % 256 ∧
    (latchFrame claim outputs command seq position).toNat / 2 ^ 32 % 256 = position % 256) ∧
  (∀ (dt : Ns) (c : Nat) (s : State), (s.begin dt).running = true →
    let a := s.begin dt
    ((a.circuitOf c).dwellWait = true → Leads (.dwellExpiry dt c) s a.followAll) ∧
    ((a.circuitOf c).dwellWait = false → Leads (.dwellExpiry dt c) s a) ∧
    (c < a.circuitsFitted → (a.circuitOf c).inrushWait = true → Leads (.inrushExpiry dt) s a.followAll)) ∧
  ∀ (s : State) (c : Nat) (on : Bool),
    ((s.switch c on).circuitOf c).commanded = on ∧
    ∀ t, (s.circuitOf c).lastChange = some t → t + s.num 0x6804 * sec ≤ s.clk.mono → s.wanted c ≠ (s.circuitOf c).commanded →
      (s.wanted c = false ∨ ∀ u, s.oc.lastOn = some u → u + s.num 0x6803 * ms ≤ s.clk.mono) →
      s.follow c = s.switch c (s.wanted c)

/-! ## Group 0x40: Promenade -/

/-- SECTION_SET, JUNCTION_SET and PLACE_SET store valid records, GRAPH_REMOVE removes unused ones, GRAPH_GET and TRACK_LIST
read. Valid section, junction and place records are stored, after what ran on the changed roads has ended; invalid ones are
answered RANGE and change nothing; PLACE_SET relaunches its points lp.override_lead after its admission. GRAPH_REMOVE of
sections with Promenade off, or of junctions where no section ends, answers the number removed and leaves none of them; of a
section with Promenade on, or of a junction in use, it is answered STATE and changes nothing. GRAPH_GET of kinds 0 to 2
answers the sections, the junctions or the places, TRACK_LIST the tracks, and both change nothing; GRAPH_GET of another kind
is answered RANGE. (R171, R172, R173, 05_promenade) -/
def Obligations.RoadGraphIsSetReadAndRemoved : Prop :=
  ∀ (r : Req) (s : State),
    (Ready sectionSetCommand r s →
      let a := s.taken sectionSetCommand r
      let xs := (entries 16 r.payload).map sectionAt
      let t := xs.foldl (fun t x => tput t x.number { x with flags := x.flags % 16 }) a.prom.sections
      (xs ≠ [] → xs.all a.sectionOk = true → a.endsOk t = true →
        Answers (.sectionSet r) r s [] { a.graphChange (xs.map (fun x => x.number)) [] [] [] with prom.sections := t }) ∧
      (xs = [] ∨ xs.all a.sectionOk = false ∨ a.endsOk t = false → Leads (.sectionSet r) s (a.answered r stRange []))) ∧
    (Ready junctionSetCommand r s →
      let a := s.taken junctionSetCommand r
      let xs := (entries 8 r.payload).map junctionAt
      let b := a.graphChange [] (xs.map (fun x => x.number)) [] []
      (xs ≠ [] → xs.all junctionOk = true →
        Answers (.junctionSet r) r s []
          { b with prom.junctions := xs.foldl (fun t x => tput t x.number x) b.prom.junctions }) ∧
      (xs = [] ∨ xs.all junctionOk = false → Leads (.junctionSet r) s (a.answered r stRange []))) ∧
    (Ready placeSetCommand r s →
      let a := s.taken placeSetCommand r
      let es := entries 12 r.payload
      let ps := es.map (fun b => pidAt b 0)
      let b := a.graphChange [] [] ps (es.filterMap a.spotOf)
      es ≠ [] → firstRefusal (es.map a.placeRefused) = none →
      let t := es.foldl (fun t b =>
        if fld b 8 4 = 0xFFFFFFFF then tdel t (pointKey (pidAt b 0)) else tput t (pointKey (pidAt b 0)) (fld b 8 4)) b.prom.places
      RelaunchAnswers (.placeSet r) r s ps [] { b with prom.places := t }) ∧
    (Ready graphRemoveCommand r s →
      let a := s.taken graphRemoveCommand r
      let ns := ((List.range (fld r.payload 2 2)).map (fun i => fld r.payload (4 + 2 * i) 2)).dedup
      (fld r.payload 0 1 = 0 → ns ≠ [] → (∀ n ∈ ns, n < 256) →
        let gone := ns.filter (fun n => (a.sectionOf n).isSome)
        let b := a.graphChange gone [] [] []
        ((∀ n ∈ ns, (a.sectionOf n).isSome = true → a.flag 0x4080 n = false) →
          Answers (.graphRemove r) r s (u16 gone.length ++ u16 0)
            { b with prom.sections := tkeep b.prom.sections (fun n _ => !gone.contains n) }) ∧
        ((∃ n ∈ ns, (a.sectionOf n).isSome = true ∧ a.flag 0x4080 n = true) →
          Leads (.graphRemove r) s (a.answered r stState []))) ∧
      (fld r.payload 0 1 = 1 → ns ≠ [] → (∀ n ∈ ns, n < 512) →
        let gone := ns.filter (fun n => (a.junctionOf n).isSome)
        ((∀ n ∈ ns, endsAt a.prom.sections n = 0) →
          Answers (.graphRemove r) r s (u16 gone.length ++ u16 0)
            { a with prom.junctions := tkeep a.prom.junctions (fun n _ => !gone.contains n) }) ∧
        ((∃ n ∈ ns, 0 < endsAt a.prom.sections n) → Leads (.graphRemove r) s (a.answered r stState [])))) ∧
    (Ready graphGetCommand r s →
      let a := s.taken graphGetCommand r
      let first := fld r.payload 2 2
      (fld r.payload 0 1 = 0 →
        Answers (.graphGet r) r s (page (a.prom.sections.map (fun e => (e.1, e.2.bytes))) first 91) a) ∧
      (fld r.payload 0 1 = 1 →
        Answers (.graphGet r) r s (page (a.prom.junctions.map (fun e => (e.1, e.2.bytes))) first 183) a) ∧
      (fld r.payload 0 1 = 2 →
        Answers (.graphGet r) r s (page (ordinal a.prom.places (fun e => a.placeBytes e.1 e.2)) first 122) a) ∧
      (2 < fld r.payload 0 1 → Leads (.graphGet r) s (a.answered r stRange []))) ∧
    (Ready trackListCommand r s →
      Answers (.trackList r) r s (page ((s.taken trackListCommand r).prom.tracks.map (fun e =>
        (e.1, (s.taken trackListCommand r).trackEntry e.2))) (fld r.payload 0 2) 45) (s.taken trackListCommand r))

/-- The flow of a track serves its instants, and the points' holds run out when due. In a running module with a graph on
queue 0x00: TRACK_TICK serves a CONFIRMED track at its last batch plus pm.tick_ms or where it comes to the end of the road,
TRACK_COAST_TIMEOUT, TENTATIVE_TIMEOUT and SHADOW_TIMEOUT serve a track of their state at the end of its coast time or of
pm.confirm_ms; before that instant, and for a track of another state, they change nothing. Served so, a track unheard for
its coast time, or TENTATIVE for pm.confirm_ms, ends and is no track; a CONFIRMED one with road ahead makes its batch. Where
the flow stands free and its instant is not earlier than what it has served, the event leaves the track so.
UNTRACKED_COVER_EXPIRY closes the coverage of no track that has run out. HOLD_EXPIRY ends the hold of a point, and sends a
fall deferred in it where there is room, FLAP_HOLD_EXPIRY ends a flap hold and lets an uncovered point fall,
FALL_DEFER_EXPIRY counts a deferred fall and sends it. (R182, R184, R185, R189, R190, R191, R197, R202, 05_promenade) -/
def Obligations.TracksTickCoastAndEnd : Prop :=
  (∀ (dt : Ns) (s : State) (n : Nat) (t : Track), (s.begin dt).running = true →
    let a := s.begin dt
    let tick := t.lastBatch + a.num 0x4003 * ms
    let due := min tick ((a.endedAt t a.tb).getD tick)
    let free (at_ : Ns) := ∃ g, a.consumer 0x00 = some g ∧ isTrackFlow n = true ∧ a.inService (g * 65536 + n) = false ∧
      a.holdOf (g * 65536 + n) = [] ∧ a.newest (g * 65536 + n) ≤ at_ ∧ 0 < at_ ∧ a.bs.waiting = [] ∧ a.bs.replays = []
    a.trackOf n = some t → a.served 0x00 = true →
    (t.state = .confirmed →
      (due ≤ a.tb → Leads (.trackTick dt n) s (a.serveTick n due)) ∧
      (a.tb < due → Leads (.trackTick dt n) s a) ∧
      (a.endedAt t a.tb = none → a.endedAt t tick = none → tick ≤ a.tb → tick < t.heard + a.coastTime t → free tick →
        ∃ u x, Leads (.trackTick dt n) s u ∧ u.trackOf n = some x ∧ x.lastBatch = tick ∧ x.state = .confirmed) ∧
      (t.heard + a.coastTime t ≤ a.tb →
        Leads (.trackCoastTimeout dt n) s (a.serveTick n (t.heard + a.coastTime t)) ∧
        (free (t.heard + a.coastTime t) → ∃ u, Leads (.trackCoastTimeout dt n) s u ∧ u.trackOf n = none))) ∧
    (t.state = .tentative → t.since + a.num 0x4022 * ms ≤ a.tb →
      Leads (.tentativeTimeout dt n) s (a.serveTick n (t.since + a.num 0x4022 * ms)) ∧
      (free (t.since + a.num 0x4022 * ms) → ∃ u, Leads (.tentativeTimeout dt n) s u ∧ u.trackOf n = none)) ∧
    (t.state = .shadow → t.heard + a.coastTime t ≤ a.tb →
      Leads (.shadowTimeout dt n) s (a.serveTick n (t.heard + a.coastTime t)) ∧
      (free (t.heard + a.coastTime t) → ∃ u, Leads (.shadowTimeout dt n) s u ∧ u.trackOf n = none)) ∧
    (t.state ≠ .confirmed → Leads (.trackTick dt n) s a ∧ Leads (.trackCoastTimeout dt n) s a) ∧
    (t.state ≠ .tentative → Leads (.tentativeTimeout dt n) s a) ∧
    (t.state ≠ .shadow → Leads (.shadowTimeout dt n) s a)) ∧
  (∀ (a : State) (n : Nat) (at_ : Ns) (t : Track), a.trackOf n = some t →
    (t.state = .confirmed → t.heard + a.coastTime t ≤ at_ → a.tick n at_ = a.endTrack n at_ (t.heard + a.coastTime t) 3 2) ∧
    (t.state = .tentative → t.since + a.num 0x4022 * ms ≤ at_ →
      a.tick n at_ = a.endTrack n at_ (t.since + a.num 0x4022 * ms) 3 0) ∧
    (t.state = .shadow → t.heard + a.coastTime t ≤ at_ → a.tick n at_ = a.endTrack n at_ (t.heard + a.coastTime t) 3 0)) ∧
  (∀ (a : State) (origin at_ : Ns) (n event reason : Nat), (a.endTrack n origin at_ event reason).1.trackOf n = none) ∧
  ∀ (dt : Ns) (s : State), (s.begin dt).running = true →
    let a := s.begin dt
    Leads (.untrackedCoverExpiry dt) s ((a.prom.loose.filter (fun l => l.until_ ≤ a.tb)).foldl
      (fun s l => (s.pushCovers l.until_ l.points l.number false l.until_).1)
      { a with prom.loose := a.prom.loose.filter (fun l => a.tb < l.until_) }) ∧
    (∀ (p : Pid) (t : Ns), (a.coverOf p).closedAt = some t → t + a.num 0x4008 * sec ≤ a.tb →
      ((a.coverOf p).deferredAt = none → Leads (.holdExpiry dt p) s (a.onCover p (fun c => { c with closedAt := none }))) ∧
      ((a.coverOf p).deferredAt.isSome = true → a.room 0x03 1 = true →
        Leads (.holdExpiry dt p) s ((a.sendFall p).onCover p (fun c => { c with closedAt := none })))) ∧
    (∀ (p : Pid) (t : Ns), (a.coverOf p).flapUntil = some t → t ≤ a.tb →
      let b := a.onCover p (fun c => { c with flapUntil := none })
      let launch := b.tb + b.num 0x4002 * ms
      (b.promActive p launch = true → Leads (.flapHoldExpiry dt p) s b) ∧
      (b.promActive p launch = false →
        Leads (.flapHoldExpiry dt p) s ((b.onCover p (fun c => { c with active := true })).fall 0xFF 0 b.tb p launch).1)) ∧
    (∀ (p : Pid) (t : Ns), (a.coverOf p).deferredAt = some t → t + a.num 0x4028 * sec ≤ a.clk.mono →
      Leads (.fallDeferExpiry dt p) s ((a.bump 0x40F3).sendFall p))

/-- Handovers between neighbours: taken by a shadow track or covered, refused, ended and withdrawn; the module's own
answered, resent and lost. A HANDOVER of valid fields for a portal of this module answers with the launch, not earlier than
pm.lead_ms from now: with result 0 where the graph on queue 0x05 has a place for its shadow, to whose flow it goes; with
result 1 where it has none, its points being covered for pm.confirm_ms; with result 2, and nothing changed, while no graph
serves queue 0x05 or Promenade is off for the section. In the flow the shadow track stands, and a HANDOVER_CANCEL or
HANDOVER_TAKEN ends its track. HANDOVER_TAKEN of a handover this module sent goes to its track's flow, of an unknown one it
changes nothing; HANDOVER_CANCEL goes to the shadow's flow, or closes the coverage without a track. A final OK response to a
handover message marks it answered; a response that matches no message is discarded and counted. A peer message unanswered
for 30 ms is sent again, with the SYNC of its first sending, twice at most; then its lane is free and the next carries SYNC.
A handover not answered by its crossing is counted as lost, once. (R206, R207, R208, R209, R210, R54, 05_promenade) -/
def Obligations.HandoversAreTakenRenewedAndWithdrawn : Prop :=
  (∀ (r : Req) (s : State) (jn : Junction), Ready handoverCommand r s →
    let a := s.taken handoverCommand r
    let p := r.payload
    let mac := sourceMac r.src
    let launch := max (fld p 16 8) (a.tb + a.num 0x4002 * ms)
    let b := if fld p 16 8 < launch then (a.bump 0x40F2).promLoad 0 1 0 else a
    let place := match b.shadowPlace mac (fld p 0 4) with
      | some n => some n
      | none => if b.handoversOpen < 64 then b.freeTrack else none
    a.portalJunction (fld p 11 1) = some jn → a.moduleOfRing (pidAt p 4) = true → jn.neighbour = pidSegment (pidAt p 4) →
    jn.peerPortal = fld p 10 1 → handoverOk p = true →
    (a.served 0x05 = false → Answers (.handover r) r s (u64 launch ++ u8 2 ++ zeros 3) a) ∧
    ∀ sect x fwd, a.entryOf jn.number = some (sect, x, fwd) → a.served 0x05 = true → a.room 0x05 1 = true →
      (a.flag 0x4080 sect = false → Answers (.handover r) r s (u64 launch ++ u8 2 ++ zeros 3) a) ∧
      (a.flag 0x4080 sect = true →
        (∀ n, place = some n → Answers (.handover r) r s (u64 launch ++ u8 0 ++ zeros 3)
          (b.peerItem n (fld p 32 8) mac 0x40C0 (p.take 16 ++ u64 launch ++ p.drop 24))) ∧
        (place = none →
          let ps := b.beyondPortal (fld p 12 1) sect x fwd ((fld p 40 4 : Int) * cm)
          Answers (.handover r) r s (u64 launch ++ u8 1 ++ zeros 3)
            (((b.bump 0x40FA 0 ps.2).promLoad 1 0 0).renewLoose mac (fld p 0 4) ps.1 launch)))) ∧
  (∀ (a : State) (n : Nat) (origin : Ns) (mac : Mac) (p : List Byte) (jn : Junction) (e : Nat × Int × Bool),
    a.portalJunction (fld p 11 1) = some jn → a.entryOf jn.number = some e → a.trackOf n = none →
    ∃ t, (a.shadowUpdate n origin mac p).1.trackOf n = some t ∧ t.state = .shadow ∧ t.received = some (handoverOf mac p)) ∧
  (∀ (a : State) (n id : Nat) (origin : Ns) (mac : Mac) (p : List Byte) (t : Track), a.trackOf n = some t →
    (t.sent.any (fun h => h.peer == mac && h.id == id) = true → (a.handedOver n origin mac id).1.trackOf n = none) ∧
    (t.state = .shadow → t.received.any (fun h => h.peer == mac && h.id == fld p 0 4) = true →
      (a.shadowCancel n mac p).1.trackOf n = none)) ∧
  (∀ (r : Req) (s : State), Ready handoverTakenCommand r s →
    let a := s.taken handoverTakenCommand r
    let p := r.payload
    a.moduleOfRing (pidAt p 4) = true → fld p 12 8 ≠ 0 →
    (∀ t, a.senderOf (sourceMac r.src) (fld p 0 4) = some t → a.served 0x05 = false ∨ a.room 0x05 1 = true →
      Answers (.handoverTaken r) r s [] (a.peerItem t.number (fld p 12 8) (sourceMac r.src) 0x40C1 p)) ∧
    (a.senderOf (sourceMac r.src) (fld p 0 4) = none → Answers (.handoverTaken r) r s [] a)) ∧
  (∀ (r : Req) (s : State), Ready handoverCancelCommand r s →
    let a := s.taken handoverCancelCommand r
    let p := r.payload
    a.moduleOfRing (pidAt p 4) = true → 1 ≤ fld p 10 1 → fld p 10 1 ≤ 3 → fld p 12 8 ≠ 0 →
    (∀ n, a.shadowPlace (sourceMac r.src) (fld p 0 4) = some n → a.served 0x05 = false ∨ a.room 0x05 1 = true →
      Answers (.handoverCancel r) r s [] (a.peerItem n (fld p 12 8) (sourceMac r.src) 0x40C2 p)) ∧
    (a.shadowPlace (sourceMac r.src) (fld p 0 4) = none →
      Answers (.handoverCancel r) r s [] (a.cancelLoose (sourceMac r.src) (fld p 0 4) (fld p 12 8)))) ∧
  (∀ (r : Req) (op st : Nat) (s : State), (s.begin r.dt).hears r.src = true →
    let a := s.begin r.dt
    (a.peerLane (reqMac r) r.lane.toNat).outstanding = none →
    Leads (.peerResponse r op st) s { a with link.counts.dirDiscards := a.link.counts.dirDiscards + 1 }) ∧
  (∀ (r : Req) (st : Nat) (s : State) (msg : PeerMsg), (s.begin r.dt).hears r.src = true →
    let a := s.begin r.dt
    let l := a.peerLane (reqMac r) r.lane.toNat
    l.outstanding = some msg → l.seq = r.seq → isRing r.src.endpoint = true → r.flags.getLsbD 1 = false →
    st ≠ stBusy → st ≠ stSequence →
    Leads (.peerResponse r msg.opcode st) s
      (((a.touch r.src).setPeerLane { l with outstanding := none }).peerAnswered (reqMac r) msg st r.payload).peerGoOn) ∧
  (∀ (dt : Ns) (m : Mac) (lane : Byte) (s : State) (msg : PeerMsg), (s.begin dt).running = true →
    let a := s.begin dt
    let l := a.peerLane m lane.toNat
    l.outstanding = some msg → msg.opcode / 256 = 0x40 →
    (msg.sentAt + 30 * ms ≤ a.clk.mono → msg.resends < 2 →
      ∃ t, exec (.peerResend dt m lane) s = .next t ∧
        Reports (a.setPeerLane { l with outstanding := some { msg with sentAt := a.clk.mono, resends := msg.resends + 1 } }) t ∧
        t.delivers (peerSource m) (message lane.toNat (if msg.sync then 12 else 8) l.seq.toNat msg.opcode 0 0#64 msg.payload)) ∧
    (msg.sentAt + 30 * ms ≤ a.clk.mono → 2 ≤ msg.resends →
      Leads (.peerResend dt m lane) s (a.setPeerLane { l with outstanding := none, synced := false }).peerGoOn) ∧
    (a.clk.mono < msg.sentAt + 30 * ms → Leads (.peerResend dt m lane) s a)) ∧
  (∀ (dt : Ns) (id n : Nat) (s : State) (t : Track), (s.begin dt).running = true →
    let a := s.begin dt
    let lost (h : Handover) : Bool := h.id == id && decide (h.crossing ≤ a.tb) && !h.answered && !h.lost
    (a.prom.tracks.find? (fun e => e.2.sent.any lost) = some (n, t) →
      Leads (.handoverCrossing dt id) s ((a.bump 0x40F5).onTrack n (fun t =>
        { t with sent := t.sent.map (fun h => if lost h then { h with lost := true } else h) }))) ∧
    ((a.prom.tracks.all (fun e => !e.2.sent.any lost)) = true → Leads (.handoverCrossing dt id) s a))

/-! ## Groups 0x48 and 0x4C: graphs, engines, queues, Backstep -/

/-- Graph slots are loaded, started, stopped, swapped and unloaded as Table 6.4 says. GRAPH_LOAD into an empty slot of a
held, verified, fitting graph image answers its size and queues and leaves the slot LOADED; into a slot in use it is
answered STATE. GRAPH_START and GRAPH_STOP for a future instant answer that instant and leave the slot ARMED, or RUNNING
with the change waiting; with IMMEDIATE_IF_PAST for a past one they act at once, without it they are answered TOO_LATE;
GRAPH_STOP of an ARMED graph leaves it LOADED. GRAPH_SWAP does the same: a future one leaves the change waiting on the
running slot. GRAPH_UNLOAD of a LOADED or SUSPENDED graph, whose queues lie from 0x20 on as every graph's do, leaves its
slot EMPTY and its queues gone. At a boundary that has come, DISPATCH_BOUNDARY starts an ARMED graph and carries out a
waiting stop or swap; a swap that can no longer be made is dropped (log entry 92). (R240, R241, R242, R244, R245,
06_flow_engines) -/
def Obligations.GraphSlotsFollowTheirTable : Prop :=
  (∀ (r : Req) (s : State) (i : Image) (x : GraphInfo), Ready graphLoadCommand r s →
    let a := s.taken graphLoadCommand r
    let g := fld r.payload 0 1
    (g < 8 → (a.slotOf g).state = .empty → a.imageOf (fld r.payload 4 4) = some i → i.kind = 5 → sha256 i.payload = i.digest →
      graphInfo g i = some x → a.graphFits g x = true →
      Answers (.graphLoad r) r s (u32 x.codeBytes ++ u8 (0x20 + 28 * g) ++ u8 x.queues.length ++ u16 0)
        ((a.loadGraph g x (Config.graphCode i.payload)).graphState g .empty .loaded 1)) ∧
    (g < 8 → (a.slotOf g).state ≠ .empty → Leads (.graphLoad r) s (a.answered r stState []))) ∧
  (∀ (r : Req) (s : State), Ready graphStartCommand r s →
    let a := s.taken graphStartCommand r
    let g := fld r.payload 0 1
    let t := fld r.payload 4 8
    let x := a.slotOf g
    g < 8 → t ≠ 0 → (x.state = .loaded ∨ x.state = .suspended) → a.consumesTaken g g x.info = false →
    (a.tb < t → Answers (.graphStart r) r s (u64 t) ((a.setSlot g { x with instant := t }).enterSlot g .armed 1)) ∧
    (t ≤ a.tb → hasBit (fld r.payload 1 1) 0 = true → Answers (.graphStart r) r s (u64 a.tb) (a.startGraph g a.tb)) ∧
    (t ≤ a.tb → hasBit (fld r.payload 1 1) 0 = false → Leads (.graphStart r) s (a.answered r stTooLate []))) ∧
  (∀ (r : Req) (s : State), Ready graphStopCommand r s →
    let a := s.taken graphStopCommand r
    let g := fld r.payload 0 1
    let t := fld r.payload 4 8
    let x := a.slotOf g
    g < 8 → t ≠ 0 →
    (x.state = .armed → Answers (.graphStop r) r s (u64 a.tb) (a.enterSlot g .loaded 1)) ∧
    (x.state = .running →
    (a.tb < t → Answers (.graphStop r) r s (u64 t) (a.setSlot g { x with change := some (t, none) })) ∧
    (t ≤ a.tb → hasBit (fld r.payload 1 1) 0 = true → Answers (.graphStop r) r s (u64 a.tb) (a.stopGraph g .loaded 1)) ∧
    (t ≤ a.tb → hasBit (fld r.payload 1 1) 0 = false → Leads (.graphStop r) s (a.answered r stTooLate [])))) ∧
  (∀ (r : Req) (s : State), Ready graphSwapCommand r s →
    let a := s.taken graphSwapCommand r
    let g := fld r.payload 0 1
    let h := fld r.payload 1 1
    let t := fld r.payload 4 8
    let same := (a.slotOf g).info.layout = (a.slotOf h).info.layout
    let report (at_ : Ns) := u64 at_ ++ u32 (if same then a.liveFlows g else 0) ++ u32 0
    g < 8 → h < 8 → (a.slotOf g).state = .running → (a.slotOf h).state = .loaded → t ≠ 0 →
    a.consumesTaken h g (a.slotOf h).info = false → (same → (a.slotOf g).info.flows ≤ (a.slotOf h).info.flows) →
    (a.tb < t → Answers (.graphSwap r) r s (report t) (a.setSlot g { a.slotOf g with change := some (t, some h) })) ∧
    (t ≤ a.tb → hasBit (fld r.payload 2 1) 0 = true → Answers (.graphSwap r) r s (report a.tb) (a.swapGraphs g h a.tb)) ∧
    (t ≤ a.tb → hasBit (fld r.payload 2 1) 0 = false → Leads (.graphSwap r) s (a.answered r stTooLate []))) ∧
  (∀ (r : Req) (s : State), Ready graphUnloadCommand r s →
    let a := s.taken graphUnloadCommand r
    let g := fld r.payload 0 1
    let x := a.slotOf g
    g < 8 → (x.state = .loaded ∨ x.state = .suspended) → g < a.fe.slots.length → 0x20 ≤ x.firstQueue →
    ∃ t, exec (.graphUnload r) s = .next t ∧ t.slotOf g = .empty ∧
      ∀ q, x.firstQueue ≤ q → q < x.firstQueue + x.info.queues.length → tget t.qm.specs q = none ∧ (t.queue q).items = []) ∧
  (∀ (dt : Ns) (g h : Nat) (t : Ns) (s : State), (s.begin dt).running = true →
    let a := s.begin dt
    ((a.slotOf g).state = .armed → (a.slotOf g).instant ≤ a.tb →
      Leads (.dispatchBoundary dt g) s (a.startGraph g (a.slotOf g).instant)) ∧
    ((a.slotOf g).state = .running → (a.slotOf g).change = some (t, none) → t ≤ a.tb →
      Leads (.dispatchBoundary dt g) s (a.stopGraph g .loaded 1)) ∧
    ((a.slotOf g).state = .running → (a.slotOf g).change = some (t, some h) → t ≤ a.tb →
      (a.swapRefused g h = none → Leads (.dispatchBoundary dt g) s (a.swapGraphs g h t)) ∧
      ((a.swapRefused g h).isSome = true →
        Leads (.dispatchBoundary dt g) s (a.setSlot g { a.slotOf g with change := none }))) ∧
    ((a.slotOf g).state = .loaded → Leads (.dispatchBoundary dt g) s a))

/-- GRAPH_LIST, ENGINE_STATUS, QUEUE_STATUS and BACKSTEP_STATUS answer what stands. GRAPH_LIST answers 8 slots,
ENGINE_STATUS 16 engines, QUEUE_STATUS the 1 to 64 queues named, none beyond 255, and change nothing; QUEUE_STATUS of a
range that goes beyond is answered RANGE. BACKSTEP_STATUS trims the store to the present horizon and answers it. (R255,
R293, 06_flow_engines, 07_backstep) -/
def Obligations.GraphEngineAndQueueQueries : Prop :=
  ∀ (r : Req) (s : State),
    (Ready graphListCommand r s → Answers (.graphList r) r s
      (u16 8 ++ u16 0 ++ ((List.range 8).map (s.taken graphListCommand r).graphEntry).flatten) (s.taken graphListCommand r)) ∧
    (Ready engineStatusCommand r s → ∃ p, fld p 0 2 = 16 ∧ p.length = 4 + 16 * 16 ∧
      Answers (.engineStatus r) r s p (s.taken engineStatusCommand r)) ∧
    (Ready queueStatusCommand r s →
      let q := fld r.payload 0 1
      let n := fld r.payload 1 1
      (1 ≤ n → n ≤ 64 → q + n ≤ 256 → ∃ p, fld p 0 2 = n ∧ p.length = 4 + 20 * n ∧
        (∀ i, i < n → fld p (4 + 20 * i) 1 = (q + i) % 256 ∧
          fld p (4 + 20 * i + 2) 2 = (s.taken queueStatusCommand r).depth (q + i) % 65536) ∧
        Answers (.queueStatus r) r s p (s.taken queueStatusCommand r)) ∧
      (n = 0 ∨ 64 < n ∨ 256 < q + n → Leads (.queueStatus r) s ((s.taken queueStatusCommand r).answered r stRange []))) ∧
    (Ready backstepStatusCommand r s →
      Answers (.backstepStatus r) r s (s.taken backstepStatusCommand r).trim.backstepReport (s.taken backstepStatusCommand r).trim)

/-- A pop of an empty queue returns a copy of the item last popped with UNDERRUN set, and a push to a full queue is refused.
A pop of an empty queue returns the item most recently popped from it, or zeros if none has been popped, with UNDERRUN set;
the queue stays empty and the pop is counted in qm.underruns. The EMPTY status of its entry is set just while it is empty. A
pop of a queue that is not empty returns its head and leaves the rest. A push to a queue without room changes nothing but
its count in qm.refused; to one that has room it adds the item at the end. (R251) -/
def Obligations.FullQueuesRefuseAndEmptyOnesUnderrun : Prop :=
  ∀ (s : State) (q : Nat),
    (fld (s.queueEntry q) 1 1 % 2 = 1 ↔ (s.queue q).items = []) ∧
    ((s.queue q).items = [] →
      (s.pop q).1 = { (s.queue q).last.getD .zero with flags := ((s.queue q).last.getD .zero).flags ||| 4 } ∧
      ((s.pop q).2.queue q).items = [] ∧ (s.pop q).2.counter 0x4C87 q = (s.counter 0x4C87 q + 1) % counterMod 0x4C87) ∧
    (∀ it rest, (s.queue q).items = it :: rest →
      (s.pop q).1 = it ∧ ((s.pop q).2.queue q).items = rest ∧ ((s.pop q).2.queue q).last = some it) ∧
    (∀ it, s.room q 1 = false → s.offer q it = s.bump 0x4C88 q) ∧
    (∀ it, s.room q 1 = true → q ≠ 0x0A → ∃ x, ((s.offer q it).queue q).items = (s.queue q).items ++ [x] ∧
      x.body = it.body ∧ x.flow = it.flow ∧ x.origin = it.origin) ∧
    ∀ q' it, q' ≠ q → q' ≠ 0x0A → ((s.offer q it).queue q').items = (s.queue q').items

/-- Engines take, complete and stop items; stalled and failing ones retire and return after a retest. In a running module:
ITEM_DISPATCH handles the memory errors met and lets the scheduler give the engine its next item, and to a retired engine
gives none. ITEM_COMPLETE of an outcome without fault completes the item in service, one that shows a program fault leaves
the item without effect, as ITEM_OPS_LIMIT does with cause 2; with nothing in service both change nothing. ENGINE_STALL and
ENGINE_MEMORY_ERROR retire a live engine, and one whose item stalls a second engine returns at once where it passes its
retest; ENGINE_RETEST returns one that passes, 60 s after its retirement while fe.retest is 1, and leaves one that fails. An
uncorrectable flow-state error resets that state to zeros and counts, and where the state was that of a standard graph's
track, the track ends (log entry 91); one in the Backstep store frees the checkpoint or log entry; a corrected one only
counts. (R219, R220, R222, R223, R228, R230, R232, R235, R285, 06_flow_engines, 07_backstep) -/
def Obligations.EnginesServeRetireAndReturn : Prop :=
  ∀ (dt : Ns) (e : Nat) (s : State), (s.begin dt).running = true →
    let a := s.begin dt
    (∀ errors, Leads (.itemDispatch dt e errors) s ((errors.foldl State.cellError a).dispatch e)) ∧
    ((a.engine e).state ≠ 0 → Leads (.itemDispatch dt e []) s a) ∧
    (∀ (o : ItemOutcome) (w : Work), (a.engine e).cur = some w →
      (∀ cause, a.outcomeFault w o = some cause → Leads (.itemComplete dt e o) s (a.programFault e w cause o.node)) ∧
      (a.outcomeFault w o = none → Leads (.itemComplete dt e o) s (a.complete e o))) ∧
    (∀ (o : ItemOutcome) (node : Nat), (a.engine e).cur = none →
      Leads (.itemComplete dt e o) s a ∧ Leads (.itemOpsLimit dt e node) s a) ∧
    (∀ (w : Work) (node : Nat), (a.engine e).cur = some w → Leads (.itemOpsLimit dt e node) s (a.programFault e w 2 node)) ∧
    (e < 16 → (a.engine e).state = 0 →
      Leads (.engineMemoryError dt e) s (a.retire e 2).1.afterRetire ∧
      ((a.retire e 1).2 = false → ∀ pass, Leads (.engineStall dt e pass) s (a.retire e 1).1.afterRetire) ∧
      ((a.retire e 1).2 = true → ((a.retire e 1).1.engine e).state ≠ 4 →
        Leads (.engineStall dt e true) s ((a.retire e 1).1.settle.reinstate e).afterRetire)) ∧
    ((a.engine e).state ≠ 0 → ∀ pass, Leads (.engineStall dt e pass) s a ∧ Leads (.engineMemoryError dt e) s a) ∧
    (a.flag 0x4803 = true → ((a.engine e).state = 1 ∨ (a.engine e).state = 2) →
      maxOf (a.engine e).times + 60 * sec ≤ a.clk.mono → Leads (.engineRetest dt e true) s (a.reinstate e)) ∧
    Leads (.engineRetest dt e false) s a ∧
    (∀ g f m, Leads (.flowStateError dt g f ⟨m, true⟩) s (a.bump 0x48F3)) ∧
    (∀ g f x, tget a.fe.flows (g * 65536 + f) = some x → a.consumer 0x00 ≠ some ((g * 65536 + f) / 65536) →
      Leads (.flowStateError dt g f ⟨.state, false⟩) s
        ((a.onFlow (g * 65536 + f) (fun y => { y with bytes := zeros 64, lost := true })).bump 0x48F2)) ∧
    (∀ g f x, tget a.fe.flows (g * 65536 + f) = some x → a.consumer 0x00 = some g → isTrackFlow f = true →
      ∃ u, Leads (.flowStateError dt g f ⟨.state, false⟩) s u ∧ u.trackOf f = none) ∧
    (∀ g f n, n < (a.ckptsOf (g * 65536 + f)).length → Leads (.flowStateError dt g f ⟨.checkpoint n, false⟩) s
      (a.setCkpts (g * 65536 + f) (lmod (a.ckptsOf (g * 65536 + f)) n (fun c => { c with lost := true })))) ∧
    ∀ g f n, n < (a.logOf (g * 65536 + f)).length → Leads (.flowStateError dt g f ⟨.logEntry n, false⟩) s
      (a.setLog (g * 65536 + f) (lmod (a.logOf (g * 65536 + f)) n (fun x => { x with lost := true })))

/-- Alarms push their tick, level crossings are told once more at the second's end, the pace governor lowers by one step, a
missed revision is corrected. In a running module: ALARM_DUE of a running graph's flow whose alarm has come pushes one tick
item where queue 0x08 has room and no tick of the flow waits, and changes nothing before; QUEUE_LEVEL_SECOND_END clears the
mark of later crossings and tells the level; PACE_LOWER_STEP lowers the supply by 10 mV where a millisecond has passed since
the last and no deadline is then missed, and never below 0.50 V, and the governor leaves the supply between 0.50 V and 0.90
V where every deadline is met, or at 0.90 V; REVISE_MISSED of a revision past its launch plus tolerance drops it, counts it
and issues a corrective command. (R31, R224, R227, R238, R250, R282, 06_flow_engines, 07_backstep) -/
def Obligations.AlarmsLevelsPaceAndRevisions : Prop :=
  ∀ (dt : Ns) (s : State), (s.begin dt).running = true →
    let a := s.begin dt
    (∀ (g f : Nat) (t : Ns), (a.flowState (g * 65536 + f)).alarm = some t →
      (t ≤ a.tb → a.room 0x08 1 = true → (a.queue 0x08).items.any (fun it => flowKey it == g * 65536 + f) = false →
        (a.slotOf g).state = .running →
        Leads (.alarmDue dt g f) s ((a.onFlow (g * 65536 + f) (fun x => { x with alarm := none })).put 0x08
          (tickWork (g * 65536 + f) t).item)) ∧
      (a.tb < t → Leads (.alarmDue dt g f) s a)) ∧
    (∀ q, (a.queue q).later = true → (a.queue q).second ≤ a.second →
      Leads (.queueLevelSecondEnd dt q) s (a.setQueue q { a.queue q with later := false })) ∧
    (510 ≤ a.fe.fabricMv → a.fe.lastLower + ms ≤ a.clk.mono → a.meets (a.fe.fabricMv - 10) = true →
      a.fe.fabricMv ≤ 900 → a.fe.fabricMv % 10 = 0 →
      ∃ t, exec (.paceLowerStep dt) s = .next t ∧ Reports { a with fe.lastLower := a.clk.mono } t ∧
        t.fe.fabricMv = a.fe.fabricMv - 10) ∧
    (a.fe.fabricMv < 510 ∨ a.clk.mono < a.fe.lastLower + ms → Leads (.paceLowerStep dt) s a) ∧
    (500 ≤ a.govern.fe.fabricMv ∧ a.govern.fe.fabricMv ≤ 900 ∧
      (a.govern.fe.fabricMv = 900 ∨ a.meets a.govern.fe.fabricMv = true)) ∧
    (∀ (p : Pid) (launch : Ns) (r : Revision),
      a.bs.revisions.find? (fun r => r.point == p && r.launch == launch) = some r → r.tol ≠ 0xFFFF → launch + r.tol * ms < a.tb →
      Leads (.reviseMissed dt p launch) s
        ({ a.bump 0x48FF with bs.revisions := a.bs.revisions.filter (fun x => x != r) }.corrective 0xFF 0 p r.late r.level))

/-! ## Group 0x50: the mesh -/

/-- NODE_MAP_SET maps one to one, NODE_MAP_REMOVE unmaps, and the map, the nodes and the radios are shown. NODE_MAP_SET of a
non-empty list of points that exist answers OK and maps each EUI-64 in turn; of an empty list it is answered RANGE. A
mapping stands afterwards, takes its point from every other EUI-64, and leaves every other mapping. NODE_MAP_REMOVE answers
the number of mappings removed and removes exactly those. NODE_MAP_GET, NODE_LIST and RADIO_STATUS change nothing;
RADIO_STATUS shows each radio fitted. (R325, R354, 08_light_point_mesh) -/
def Obligations.NodeMapIsOneToOneAndIsShown : Prop :=
  (∀ (r : Req) (s : State), Ready nodeMapSetCommand r s →
    let a := s.taken nodeMapSetCommand r
    let es := (entries 16 r.payload).map (fun b => (euiAt b 0, pidAt b 8))
    (es ≠ [] → firstRefusal (es.map (fun e => a.pointRefused e.2)) = none →
      Answers (.nodeMapSet r) r s [] (es.foldl (fun s e => s.mapNode e.1 e.2) a)) ∧
    (es = [] → Leads (.nodeMapSet r) s (a.answered r stRange []))) ∧
  (∀ (s : State) (e : Eui) (p : Pid), tget (s.mapNode e p).mesh.map e.toNat = some p ∧
    ∀ k, k ≠ e.toNat → tget (s.mapNode e p).mesh.map k ≠ some p ∧
      ∀ q, q ≠ p → tget s.mesh.map k = some q → tget (s.mapNode e p).mesh.map k = some q) ∧
  (∀ (r : Req) (s : State), Ready nodeMapRemoveCommand r s →
    let a := s.taken nodeMapRemoveCommand r
    let es := ((entries 8 r.payload).map (fun b => (euiAt b 0).toNat)).dedup
    let gone := es.filter (fun e => (tget a.mesh.map e).isSome)
    let kept := tkeep a.mesh.map (fun k _ => !gone.contains k)
    (es ≠ [] → Answers (.nodeMapRemove r) r s (u16 gone.length ++ u16 0) (a.setMap kept)) ∧
    ∀ k, tget kept k = if k ∈ es then none else tget a.mesh.map k) ∧
  ∀ (r : Req) (s : State),
    (Ready nodeMapGetCommand r s → Answers (.nodeMapGet r) r s
      (page (ordinal (s.taken nodeMapGetCommand r).mesh.map (fun e => u64 e.1 ++ pidBytes e.2 ++ u16 0)) (fld r.payload 0 2) 91)
      (s.taken nodeMapGetCommand r)) ∧
    (Ready nodeListCommand r s → Answers (.nodeList r) r s
      (page (ordinal (tvals (s.taken nodeListCommand r).mesh.nodes) (s.taken nodeListCommand r).nodeEntry) (fld r.payload 0 2) 45)
      (s.taken nodeListCommand r)) ∧
    (Ready radioStatusCommand r s →
      let a := s.taken radioStatusCommand r
      ∃ p, Answers (.radioStatus r) r s p a ∧ p.length = 4 + 24 * a.radiosFitted)

/-- NODE_PROBE puts a PROBE on its way and waits, NODE_LEAVE marks the node to leave, a point without a joined node does not
reply. NODE_PROBE of a point whose node has joined queues a PROBE with the next tag and leaves the command begun; the
matching PROBE_REPLY ends it. Of a point that exists and has no joined node it is answered OK with result 1. NODE_LEAVE with
reason 2 or 3 marks the joined node; without one it is answered STATE (log entry 26). A LEAVE with reason 1 that waits is
not weakened. (R325, R328, R329, R352, R354, R355, 08_light_point_mesh) -/
def Obligations.ProbesAndLeavesReachTheirNode : Prop :=
  (∀ (r : Req) (s : State), Ready nodeProbeCommand r s →
    let a := s.taken nodeProbeCommand r
    let p := pidAt r.payload 0
    let kind := fld r.payload 6 1
    a.pointRefused p = none → kind ≤ 3 →
    (∀ n, a.nodeAt p = some n →
      let probe : Probe := { point := p, kind := kind, tag := a.mesh.nextTag, sentAt := a.clk.mono,
                             waiter := some (r.src.endpoint, r.lane.toNat) }
      let pdu : OtherPdu := { node := n.short, eui := n.eui, radio := n.radio, enc := false,
                              element := element 0x85 (u8 kind ++ u8 a.mesh.nextTag) }
      let v := { a with mesh.nextTag := (a.mesh.nextTag + 1) % 256, mesh.probes := a.mesh.probes ++ [probe] }.pushOther pdu
      Leads (.nodeProbe r) s
        (v.setLane r.src.endpoint r.lane.toNat { v.lane r.src.endpoint r.lane.toNat with phase := .begun })) ∧
    (a.nodeAt p = none → Answers (.nodeProbe r) r s (probeAnswer 1 0 []) a)) ∧
  (∀ (s : State) (n : Node) (b : List Byte) (q : Probe),
    s.mesh.probes.find? (fun p => p.point == n.point && p.kind == fld b 0 1 && p.tag == fld b 1 1) = some q →
    (s.onProbeReply n b).mesh.probes = s.mesh.probes.filter (fun p => p != q) ∧
    ∀ w, q.waiter = some w → (s.lane w.1 w.2).cmd.isSome = true → (s.lane w.1 w.2).phase ≠ .idle →
      ((s.onProbeReply n b).lane w.1 w.2).cached = some (stOk, probeAnswer 0 ((s.clk.mono - q.sentAt) / us) (b.drop 2))) ∧
  (∀ (r : Req) (s : State), Ready nodeLeaveCommand r s →
    let a := s.taken nodeLeaveCommand r
    let p := pidAt r.payload 0
    let reason := fld r.payload 6 1
    a.pointRefused p = none → (reason = 2 ∨ reason = 3) →
    (∀ n, a.nodeAt p = some n → Answers (.nodeLeave r) r s []
      (a.putNode { n with leave := if n.leave = 1 then 1 else reason, leaveSent := false })) ∧
    (a.nodeAt p = none → Leads (.nodeLeave r) s (a.answered r stState [])))

/-- An uplink frame is delivered and acknowledged once, a counter once accepted is never accepted again. In a running
module, a frame that a radio which may send, listening, receives whole and supported: a new one at level 5 or 6 from a
joined neighbour under a key in force, with room for its elements, is acknowledged, its counter kept, and its PDUs handled
with the room reserved; without room, or while a switch-over is near, its ack is withheld and counted; a repeat of the
newest is acknowledged again and counted; an older one is counted as a replay and not acknowledged. A frame of JOIN_REQ PDUs
at level 0 is acknowledged and handled likewise; an unsupported one is counted. One with a bad FCS, or outside the guard, or
under an unknown key changes nothing or only the receive count. An origin counter that a node's window has accepted, or
refuses, is never accepted later. (R225, R312, R313, R314, R317, R318, R320, R323, 08_light_point_mesh) -/
def Obligations.UplinkFramesAreAcknowledgedOnce : Prop :=
  (∀ (dt : Ns) (r : Nat) (f : UplinkFrame) (s : State), (s.begin dt).running = true →
    let a := s.begin dt
    let b := ((a.onRadio r (fun x => { x with rx := (x.rx + 1) % pow32 })).perfEdge 0x0040 r 1).meterBytes (3 + r) 0 (uplinkOctets f)
    let claims := b.claimsOf (b.needs f.pdus)
    let withheld := ((b.onRadio r (fun x => { x with acksWithheld := (x.acksWithheld + 1) % pow32 })).bump 0x50F8).meshLoad 1 0 0
    let handled (c : State) : State :=
      ({ f.pdus.foldl (fun (s : State) p => s.onPdu r f p) { c.sendAck r f with qm.claims := claims } with qm.claims := [] }).meshLoad 0 0 0
    (¬ (a.mayTransmit r = true ∧ a.listening r f = true ∧ f.fcsOk = true) → Leads (.uplinkFrame dt r f) s a) ∧
    (a.mayTransmit r = true → a.listening r f = true → f.fcsOk = true →
      (f.supported = false → Leads (.uplinkFrame dt r f) s (b.bump 0x50FC)) ∧
      (f.supported = true → f.level = 0 → joinFrame f = true →
        (b.switchQuiet = true ∨ b.rooms claims = false → Leads (.uplinkFrame dt r f) s withheld) ∧
        (b.switchQuiet = false → b.rooms claims = true → Leads (.uplinkFrame dt r f) s (handled b))) ∧
      (f.supported = true → f.level = 5 ∨ f.level = 6 →
        ((b.linkKey f.keyIndex = false ∨ f.ccmOk = false ∨ b.byShort f.neighbour = none) → Leads (.uplinkFrame dt r f) s b) ∧
        ∀ n, b.linkKey f.keyIndex = true → f.ccmOk = true → b.byShort f.neighbour = some n →
          (n.judgeLink f.keyIndex f.counter f.mic = .new →
            (b.switchQuiet = true ∨ b.rooms claims = false → Leads (.uplinkFrame dt r f) s withheld) ∧
            (b.switchQuiet = false → b.rooms claims = true →
              let links := n.links.filter (fun (l : Nat × Nat × Word) => l.1 != f.keyIndex) ++ [(f.keyIndex, f.counter, f.mic)]
              let n' := { n with
                links := links, lastContact := if f.offset.natAbs ≤ a.num 0x500A * us then a.clk.mono else n.lastContact }
              Leads (.uplinkFrame dt r f) s (handled (b.putNode n')))) ∧
          (n.judgeLink f.keyIndex f.counter f.mic = .repeated → Leads (.uplinkFrame dt r f) s
            ((((b.putNode (b.contact f n)).sendAck r f).bump 0x50F4).meshLoad 0 1 0)) ∧
          (n.judgeLink f.keyIndex f.counter f.mic = .replay → Leads (.uplinkFrame dt r f) s
            ((b.bump 0x50F5).meshLoad 0 0 1))))) ∧
  (∀ (s : State) (r : Nat) (f : UplinkFrame), ∃ ack, ack ∈ (s.sendAck r f).out ∧
    ack = Out.enhancedAck r f.neighbour (-f.offset) (if s.holdMask = 0 then none else some (s.holdMask, s.num 0x5010))) ∧
  (∀ (n : Node) (c d : Nat), (n.accepts c = true → (n.seen c).accepts c = false) ∧
    (n.accepts c = false → n.accepts d = true → (n.seen d).accepts c = false)) ∧
  ∀ (n : Node) (i c c' : Nat) (mic mic' : Word), c' ≤ c → (c', mic') ≠ (c, mic) →
    { n with links := n.links.filter (fun (l : Nat × Nat × Word) => l.1 != i) ++ [(i, c, mic)] }.judgeLink i c' mic' = .replay

/-- A cell carries a beacon, the most urgent drive PDU, another PDU or an image block, as its slot says. In a running module
whose radio may send: in timeslot 0 BEACON_CELL sends a beacon, or counts it missed where the duty cap or a busy channel
stops it. In an odd timeslot DRIVE_CELL, and in timeslot 2, and 12 of a slotframe of 20, OTHER_DOWNLINK_CELL, handles the
memory errors met and sends the next frame of its own kind, else of the other, else an image block. Sending counts an
attempt, marks the flight sent and puts its frame on the air; a busy channel counts as an attempt without acknowledgement, a
duty skip as none. In any other slot the cell does nothing. (R299, R300, R307, R308, R315, R333, 08_light_point_mesh) -/
def Obligations.RadioCellsSendWhatWaits : Prop :=
  (∀ (dt : Ns) (r : Nat) (use : CellUse) (s : State), (s.begin dt).running = true → (s.begin dt).mayTransmit r = true →
    let a := s.begin dt
    let c := a.cellErrors use.errors
    let air := a.airtime (a.mpdu 60) false
    let b := a.onRadio r (fun x => { x with skipping := min x.skipping 3 })
    (a.timeslot = 0 → a.overDuty r air 3 = false → (b.flag 0x5082 r && use.busy) = false →
      exec (.beaconCell dt r use) s =
        .next (({ b.transmit r (a.mpdu 60) false with out := (b.transmit r (a.mpdu 60) false).out ++ [Out.beacon r] } : State).settle)) ∧
    (a.timeslot = 0 → a.overDuty r air 3 = false → (b.flag 0x5082 r && use.busy) = true → Leads (.beaconCell dt r use) s
      (((b.onRadio r (fun x => { x with ccaBusy := (x.ccaBusy + 1) % pow32 })).bump 0x50F9).bump 0x50FA)) ∧
    (a.timeslot = 0 → a.overDuty r air 3 = true → Leads (.beaconCell dt r use) s
      ((a.onRadio r (fun x => { x with skipping := max x.skipping 4 })).bump 0x50FA)) ∧
    (a.timeslot ≠ 0 → Leads (.beaconCell dt r use) s a) ∧
    (a.switchQuiet = false →
      (a.timeslot % 2 = 1 →
        (∀ f x, c.driveNext r false = (some f, x) → Leads (.driveCell dt r use) s (x.fly r use.busy false f).coreDrain) ∧
        (∀ f x y, c.driveNext r false = (none, x) → x.otherNext r false = (some f, y) →
          Leads (.driveCell dt r use) s (y.fly r use.busy false f).coreDrain) ∧
        (∀ x y, c.driveNext r false = (none, x) → x.otherNext r false = (none, y) →
          Leads (.driveCell dt r use) s (y.imageCell r use.busy).coreDrain)) ∧
      (a.timeslot % 2 = 0 → Leads (.driveCell dt r use) s a) ∧
      (a.timeslot = 2 ∨ (a.timeslot = 12 ∧ a.slotsPer = 20) →
        (∀ f x, c.otherNext r true = (some f, x) → Leads (.otherDownlinkCell dt r use) s (x.fly r use.busy true f).coreDrain) ∧
        (∀ f x y, c.otherNext r true = (none, x) → x.driveNext r true = (some f, y) →
          Leads (.otherDownlinkCell dt r use) s (y.fly r use.busy true f).coreDrain) ∧
        (∀ x y, c.otherNext r true = (none, x) → x.driveNext r true = (none, y) →
          Leads (.otherDownlinkCell dt r use) s (y.imageCell r use.busy).coreDrain)) ∧
      (a.timeslot ≠ 2 → a.timeslot ≠ 12 → Leads (.otherDownlinkCell dt r use) s a))) ∧
  ∀ (s : State) (r : Nat) (busy other : Bool) (f : Flight), s.mesh.flights.find? (fun g => g.id == f.id) = some f →
    s.overDuty r (s.airtime (s.mpdu f.pdu.length) false) (if f.entries.isEmpty then 1 else 2) = false →
    (s.fly r busy other f).mesh.flights.find? (fun g => g.id == f.id) =
      some { f with attempts := f.attempts + 1, sentAt := s.clk.mono, inOther := other } ∧
    (busy = false → Out.radioFrame r f.neighbour [f.pdu] ∈ (s.fly r busy other f).out)

/-- Acks end flights, late drive PDUs are sent anew, silent nodes are told, the network key rolls, activates and ages. In a
running module: NODE_ACK_RECEIVE of a frame in flight records it; E2E_RESEND of a drive PDU unconfirmed for
mesh.e2e_resend_ms makes it a new PDU, and before then does nothing. NODE_SILENT makes a joined node silent once
mesh.silent_s have passed since its last PDU. KEY_ROLL, when due with a usable key and no roll under way, writes the new key
to the other role slot. NETKEY_ACTIVATION at its instant makes the next index current with every link counter at 0 and keeps
the old index for 60 s, after which OLD_KEY_DISCARD drops it. RADIO_SELF_TEST_FAIL is kept on the radio.
ACTIVATION_BROADCAST gives every radio the activation every 10 s before the arm's instant, and at the instant retires the
arm. (R315, R317, R333, R334, R353, R510, R546, 08_light_point_mesh) -/
def Obligations.MeshTimersAndKeysAct : Prop :=
  ∀ (dt : Ns) (s : State), (s.begin dt).running = true →
    let a := s.begin dt
    (∀ (radio frame : Nat) (f : Flight),
      a.mesh.flights.find? (fun f => f.id == frame && f.radio == radio && !f.acked && decide (0 < f.attempts)) = some f →
      Leads (.nodeAckReceive dt radio frame) s ((a.meterBytes (3 + radio) 0 ackOctets).linkAck f)) ∧
    (∀ (frame : Nat) (f : Flight), a.mesh.flights.find? (fun f => f.id == frame && !f.entries.isEmpty && decide (0 < f.attempts)) = some f →
      (f.sentAt + a.num 0x5018 * ms ≤ a.clk.mono → Leads (.e2eResend dt frame) s (a.e2e f)) ∧
      (a.clk.mono < f.sentAt + a.num 0x5018 * ms → Leads (.e2eResend dt frame) s a)) ∧
    (∀ (p : Pid) (n : Node), a.nodeAt p = some n → n.state = 1 →
      (n.lastPdu + a.num 0x5011 * sec ≤ a.clk.mono → Leads (.nodeSilent dt p) s (a.nodeState n.eui 2)) ∧
      (a.clk.mono < n.lastPdu + a.num 0x5011 * sec → Leads (.nodeSilent dt p) s a)) ∧
    (∀ key, a.mesh.nextKey = none → a.keyUsable a.netkeySlot 1 = true →
      (a.mesh.keyMadeAt + a.num 0x5017 * 86400 * sec ≤ a.clk.mono → Leads (.keyRoll dt key) s (a.rollKey key)) ∧
      (a.clk.mono < a.mesh.keyMadeAt + a.num 0x5017 * 86400 * sec → a.counterHigh = false → Leads (.keyRoll dt key) s a)) ∧
    (∀ index instant, a.mesh.nextKey = some (index, instant) →
      (a.meshTime < instant → Leads (.netkeyActivation dt) s a) ∧
      (instant ≤ a.meshTime → ∃ t, exec (.netkeyActivation dt) s = .next t ∧ t.mesh.keyIndex = index ∧
        t.mesh.nextKey = none ∧ t.mesh.oldKey = some (a.mesh.keyIndex, a.clk.mono) ∧ t.ks.netkeyTurn = 1 - a.ks.netkeyTurn ∧
        (∀ x ∈ t.mesh.radios, x.counter = 0) ∧ t.mesh.flights = a.mesh.flights ∧ t.mesh.map = a.mesh.map ∧ t.par.vals = a.par.vals)) ∧
    (∀ index t, a.mesh.oldKey = some (index, t) →
      (a.clk.mono < t + 60 * sec → Leads (.oldKeyDiscard dt) s a) ∧
      (t + 60 * sec ≤ a.clk.mono → Leads (.oldKeyDiscard dt) s
        { a with mesh.oldKey := none
                 mesh.nodes := a.mesh.nodes.map (fun e =>
                   (e.1, { e.2 with links := e.2.links.filter (fun l => l.1 != index) })) })) ∧
    (∀ radio, Leads (.radioSelfTestFail dt radio) s (a.onRadio radio (fun x => { x with selfTestFailed := true }))) ∧
    (∀ kind x, tget a.up.arms kind = some x → 1 ≤ kind → kind ≤ 4 → x.pending = false →
      (x.instant ≤ a.tb → Leads (.activationBroadcast dt kind) s
        { a with up.activated := a.up.activated ++ [(kind, x.imageId, x.instant)], up.arms := tdel a.up.arms kind
                 up.lastActivation := tdel a.up.lastActivation kind }) ∧
      (a.tb < x.instant → (∀ t, tget a.up.lastActivation kind = some t → t + 10 * sec ≤ a.clk.mono) →
        Leads (.activationBroadcast dt kind) s
          { a with up.lastActivation := tput a.up.lastActivation kind a.clk.mono
                   mesh.activations := a.mesh.activations.filter (fun y => y.2.1 != x.imageId) ++
                     (List.range a.radiosFitted).map (fun r => (r, x.imageId, x.instant)) }))

/-! ## Group 0x60: metering -/

/-- METER_TAKE freezes every fitted circuit for its session, METER_READ answers the rows asked for, PQ_LIST, SPAN_GET and
RECON_QUERY change nothing. METER_TAKE answers the snapshot's ID and stamp and keeps, in place of an earlier one, a row for
each fitted circuit as it stands. METER_READ of 1 to 22 fitted circuits, with the ID of the session's snapshot, answers one
row of 64 octets for each and changes nothing; a range beyond circuit 47 is answered RANGE, beyond those fitted ABSENT, a
stale ID STATE, in that order. A snapshot lapses 60 s after it was taken. PQ_LIST and SPAN_GET answer their page,
RECON_QUERY the circuit's last result, or ABSENT where the circuit is not fitted. (R377, R385, R397, R623, 09_metering) -/
def Obligations.SnapshotsAreTakenAndRead : Prop :=
  (∀ (r : Req) (s : State), Ready meterTakeCommand r s →
    let a := s.taken meterTakeCommand r
    let x : Snapshot := { id := a.mt.nextSnapshot, stamp := a.now, takenAt := a.clk.mono,
                          rows := (List.range a.circuitsFitted).map a.meterRow }
    Answers (.meterTake r) r s (u32 a.mt.nextSnapshot ++ u32 0 ++ u64 a.now)
      ({ a with mt.nextSnapshot := (a.mt.nextSnapshot + 1) % pow32 }.onSession r.src.endpoint
        (fun y => { y with snapshot := some x }))) ∧
  (∀ (r : Req) (s : State), Ready meterReadCommand r s →
    let a := s.taken meterReadCommand r
    let first := fld r.payload 4 1
    let n := fld r.payload 5 1
    (∀ x, 1 ≤ n → n ≤ 22 → first + n ≤ 48 → first + n ≤ a.circuitsFitted → a.snapshot? r.src.endpoint = some x →
      (x.id = fld r.payload 0 4 → x.rows.length = a.circuitsFitted →
        ∃ p, Answers (.meterRead r) r s p a ∧ p.length = 4 + 64 * n ∧ fld p 0 2 = n) ∧
      (x.id ≠ fld r.payload 0 4 → Leads (.meterRead r) s (a.answered r stState []))) ∧
    (n = 0 ∨ 22 < n ∨ 48 < first + n → Leads (.meterRead r) s (a.answered r stRange [])) ∧
    (1 ≤ n → n ≤ 22 → first + n ≤ 48 → a.circuitsFitted < first + n → Leads (.meterRead r) s (a.answered r stAbsent []))) ∧
  (∀ (s : State) (ep : Endpoint) (x : Snapshot), s.snapshot? ep = some x → s.clk.mono < x.takenAt + 60 * sec) ∧
  ∀ (r : Req) (s : State),
    (Ready pqListCommand r s → Answers (.pqList r) r s
      (page (ordinal (s.taken pqListCommand r).mt.ended PqEvent.bytes) (fld r.payload 0 2) 32) (s.taken pqListCommand r)) ∧
    (Ready spanGetCommand r s → Answers (.spanGet r) r s
      (page (ordinal (s.taken spanGetCommand r).mt.spans (fun e => e.2.bytes)) (fld r.payload 0 2) 91) (s.taken spanGetCommand r)) ∧
    (Ready reconQueryCommand r s →
      let a := s.taken reconQueryCommand r
      let c := fld r.payload 0 1
      (c < 48 → c < a.circuitsFitted → Answers (.reconQuery r) r s ((a.metered c).recon.bytes c) a) ∧
      (c < 48 → a.circuitsFitted ≤ c → Leads (.reconQuery r) s (a.answered r stAbsent [])))

/-- SPAN_SET applies all its records or none, and a record that changes returns its point's learned offset to 0. SPAN_SET of
1 to 91 records, each of a point with a lamp record and within its bounds, after which every span leads to the cabinet,
answers OK and stores or removes each; where one record is refused, or a span would no longer lead there, the refusal is
answered and nothing changes. A stored record stands, a removed one does not; the offset of a point whose record changes is
0 again. (R391, R392, R395, 09_metering) -/
def Obligations.SpansAreSetWholeOrNotAtAll : Prop :=
  (∀ (r : Req) (s : State), Ready spanSetCommand r s →
    let a := s.taken spanSetCommand r
    let xs := (entries 16 r.payload).map spanAt
    let m := xs.foldl Meter.putSpan a.mt
    let rooted := m.spans.all (fun e => reachesCabinet m.spans 257 e.2.point)
    (xs ≠ [] → xs.length ≤ 91 → firstRefusal (xs.map a.spanRefused) = none →
      (rooted = true → Answers (.spanSet r) r s [] { a with mt := m }) ∧
      (rooted = false → Leads (.spanSet r) s (a.answered r stRange []))) ∧
    ∀ st, xs ≠ [] → xs.length ≤ 91 → firstRefusal (xs.map a.spanRefused) = some st → statusCached st = true →
      Leads (.spanSet r) s (a.answered r st [])) ∧
  ∀ (m : Meter) (x : Span),
    (x.rLoop ≠ 0xFFFFFFFF → (m.putSpan x).span x.point = some x) ∧
    (x.rLoop = 0xFFFFFFFF → (m.putSpan x).span x.point = none) ∧
    (m.span x.point ≠ some x → (m.putSpan x).offset x.point = 0) ∧
    ∀ q, pointKey q ≠ pointKey x.point → (m.putSpan x).span q = m.span q ∧ (m.putSpan x).offset q = m.offset q

/-- A cycle's energy goes to exactly one active and one reactive register with its residue, and the newest checkpoint
restores them. A cycle with power p and reactive power q adds its energy, in units of one 2^-32 part of a microwatt-hour, to
registers keep their value, residues stay below one unit, and no register decreases. A value between the two ends of a cycle
lies between the registers there. A checkpoint written now is the one a restore resumes from, with the registers of every
circuit, and tells of no restart where it was the final one. (R361, R371, R372, R374, R376, 09_metering) -/
def Obligations.EnergyLandsOnceAndWhole : Prop :=
  (∀ (r : Registers) (p q : Int) (t : Ns),
    let x := r.add p q t
    (0 ≤ p → x.imp * pow32 + x.impRes = r.imp * pow32 + r.impRes + energyOf p t ∧ x.exp = r.exp ∧ x.expRes = r.expRes) ∧
    (p < 0 → x.exp * pow32 + x.expRes = r.exp * pow32 + r.expRes + energyOf p t ∧ x.imp = r.imp ∧ x.impRes = r.impRes) ∧
    (0 ≤ q → x.lag * pow32 + x.lagRes = r.lag * pow32 + r.lagRes + energyOf q t ∧ x.lead = r.lead ∧ x.leadRes = r.leadRes) ∧
    (q < 0 → x.lead * pow32 + x.leadRes = r.lead * pow32 + r.leadRes + energyOf q t ∧ x.lag = r.lag ∧ x.lagRes = r.lagRes) ∧
    r.imp ≤ x.imp ∧ r.exp ≤ x.exp ∧ r.lag ≤ x.lag ∧ r.lead ≤ x.lead ∧
    (r.impRes < pow32 → r.expRes < pow32 → r.lagRes < pow32 → r.leadRes < pow32 →
      x.impRes < pow32 ∧ x.expRes < pow32 ∧ x.lagRes < pow32 ∧ x.leadRes < pow32)) ∧
  (∀ (m : MeterCircuit) (v : CycleVals) (t : Ns) (flags : Nat), m.gapCycles = 0 →
    (m.gather v t flags).regs = m.regs.add v.p v.q1 t ∧ (m.gather v t flags).prev = m.regs) ∧
  (∀ a aRes b bRes part whole : Nat, aRes < pow32 → bRes < pow32 → a * pow32 + aRes ≤ b * pow32 + bRes → part ≤ whole →
    a ≤ between a aRes b bRes part whole ∧ between a aRes b bRes part whole ≤ b ∧
    between a aRes b bRes 0 whole = a ∧ (0 < whole → between a aRes b bRes whole whole = b)) ∧
  (∀ (s : State) (final : Bool),
    (((s.meterCheckpoint final).meterRestore []).mt.circuits.map (fun e => (e.1, e.2.regs)) =
      s.mt.circuits.map (fun e => (e.1, e.2.regs))) ∧
    (((s.meterCheckpoint true).meterRestore []).mt.restart = none)) ∧
  ∀ (dt : Ns) (s : State), (s.begin dt).powered = true → (s.begin dt).mt.working = true →
    let a := s.begin dt
    (∀ input x, input < 3 → Leads (.meterCycleEnd dt input x) s ((a.meterCycle input x).minuteRecords input)) ∧
    (a.mt.lastCheckpoint + sec ≤ a.clk.mono → Leads (.meterCheckpoint dt) s (a.meterCheckpoint false)) ∧
    (a.clk.mono < a.mt.lastCheckpoint + sec → Leads (.meterCheckpoint dt) s a) ∧
    (a.mt.ledgerDone < a.ledgerInstant → Leads (.ledgerBoundary dt) s a.ledgerHand) ∧
    (a.ledgerInstant ≤ a.mt.ledgerDone → Leads (.ledgerBoundary dt) s a)

/-- Voltage events start, run and end with their half-cycle windows, calibrations start when due and free, the frequency is
told every 10 s. While the island works: HALF_CYCLE_WINDOW refreshes each input and judges the three kinds; a kind with no
event open and its start condition met opens one, one whose end condition is met goes to the 64 ended events.
PQ_EVENT_OPEN_TIMEOUT raises an event open for 60 s once. FREQUENCY_INTERVAL tells an input's mean frequency once each 10 s.
CALIBRATION_START starts a calibration that is due, ready and not held back, CALIBRATION_FORCED one 23 h after the last, and
counts it. REC_WAIT_EXPIRY judges the circuit's window. The island stops and starts with its supply. (R369, R382, R383,
R384, R385, R386, R387, R389, R393, 09_metering) -/
def Obligations.VoltageEventsAndCalibrations : Prop :=
  (∀ (dt : Ns) (s : State), (s.begin dt).powered = true → (s.begin dt).mt.working = true →
    let a := s.begin dt
    (∀ windows, Leads (.halfCycleWindow dt windows) s (a.halfCycle windows)) ∧
    (∀ kind e, a.mt.opened.find? (fun e => e.kind == kind && !e.raised && decide (e.since + 60 * sec ≤ a.clk.mono)) = some e →
      Leads (.pqEventOpenTimeout dt kind) s
        { a with mt.opened := a.mt.opened.map (fun o => if o.kind = kind then { o with raised := true } else o) }) ∧
    (∀ input (x : MeterInput), a.mt.inputs[input]? = some x →
      ∃ t, exec (.frequencyInterval dt input) s = .next t ∧ ∃ y, t.mt.inputs[input]? = some y ∧
        (a.tb / (10 * sec) * (10 * sec) ≤ x.freqDone → y = x) ∧
        (x.freqDone < a.tb / (10 * sec) * (10 * sec) → 0 < x.freqCount →
          y = { x with freqDone := a.tb / (10 * sec) * (10 * sec), freqSum := 0, freqCount := 0,
                       freq := min 65535 (nearDiv x.freqSum (1000 * x.freqCount)).toNat })) ∧
    (∀ k, a.calReady k = true → (a.converter k).lastCal + a.num 0x6008 * sec ≤ a.clk.mono →
      (a.calHeld k = false → Leads (.calibrationStart dt k) s (a.startCal k false)) ∧
      (a.calHeld k = true → Leads (.calibrationStart dt k) s a)) ∧
    (∀ k, (a.converter k).lastCal + 82800 * sec ≤ a.clk.mono → (a.converter k).forced = false →
      ((a.converter k).step ≠ none → Leads (.calibrationForced dt k) s
        ((a.setConverter k { a.converter k with forced := true }).bump 0x60F2)) ∧
      (a.calReady k = true → Leads (.calibrationForced dt k) s ((a.startCal k true).bump 0x60F2))) ∧
    (∀ k, a.clk.mono < (a.converter k).lastCal + 82800 * sec → Leads (.calibrationForced dt k) s a)) ∧
  (∀ (s : State) (kind : Nat), 1 ≤ kind → kind ≤ 3 →
    (s.mt.opened.find? (fun e => e.kind == kind) = none → s.pqStarts kind = false → s.pqKind kind = s) ∧
    (s.mt.opened.find? (fun e => e.kind == kind) = none → s.pqStarts kind = true →
      ∃ e, e ∈ (s.pqKind kind).mt.opened ∧ e.kind = kind ∧ e.start = s.now ∧ e.since = s.clk.mono ∧ e.seq = s.mt.pqSeq ∧
        e.extreme = s.pqExtreme kind ∧ (s.pqKind kind).mt.pqSeq = (s.mt.pqSeq + 1) % pow32) ∧
    (∀ e, s.mt.opened.find? (fun e => e.kind == kind) = some e → s.pqEnds kind = true →
      (∀ o ∈ (s.pqKind kind).mt.opened, o.kind ≠ kind) ∧ (s.pqKind kind).mt.ended.length ≤ 64 ∧
      ∃ x, x ∈ (s.pqKind kind).mt.ended ∧ x.kind = kind ∧ x.start = e.start ∧ x.seq = e.seq ∧
        x.duration = min (pow32 - 1) ((s.clk.mono - e.since) / ms))) ∧
  (∀ (dt : Ns) (c : Nat) (s : State), (s.begin dt).running = true →
    Leads (.recWaitExpiry dt c) s ((s.begin dt).judgeReady c true)) ∧
  (∀ (s : State) (c : Nat) (w : WindowEnd × WindowEnd), s.reconciles c = true → s.openWindow c = some w →
    (w.2.mesh + s.num 0x6011 * sec ≤ s.meshTime → s.judgeReady c true = s.judgeWindow c w.1 w.2) ∧
    ((s.circuitNodes c).all (fun n => n.hasWindow w.2.mesh (w.2.mesh - w.1.mesh)) = true →
      s.judgeReady c false = s.judgeWindow c w.1 w.2)) ∧
  ∀ (dt : Ns) (working : Bool) (s : State),
    Leads (.islandSupplyOrLinkChange dt working) s { s.begin dt with mt.working := working }

/-! ## Group 0x70: ring and network time -/

/-- A ring frame is delivered once and forwarded once, a waiting second copy ends, queued frames leave at their launch,
pauses hold. In a running module: a frame that repeats one noted within ring.forget_ms is not delivered; the module's own
frame is taken off the ring. RING_FRAME_RECEIVE of a Shotas frame to the module that is new receives its message, of any
other frame only forwards and notes. SECOND_COPY_TIMEOUT counts a first copy alone. LAUNCH_QUEUE_FRAME sends the head of its
queue at its launch instant, drops and counts it where its tolerance has passed, and keeps it before. SUPERVISION_SEND, when
due, queues a supervision frame on both ports. PAUSE holds the preemptable frames for its quanta, or ends the pause;
PAUSE_EXPIRY lets them go. (R425, R427, R428, R429, R430, R435, R437, 11_ring_and_time) -/
def Obligations.RingFramesAreDeliveredAndForwardedOnce : Prop :=
  (∀ (s : State) (p : Port) (f : RingFrame), s.linkUp p = true →
    (hasDup (freshDups s.ring.delivered s.clk.mono s.forget) f = true → (s.ringFrame p f).2 = false) ∧
    (f.src = s.id.mac → (s.ringFrame p f).2 = false ∧ (s.ringFrame p f).1.ring.delivered = s.ring.delivered) ∧
    (f.src ≠ s.id.mac → forModule f = true → hasDup (freshDups s.ring.delivered s.clk.mono s.forget) f = false →
      (s.ringFrame p f).2 = true ∧ hasDup (s.ringFrame p f).1.ring.delivered f = true) ∧
    ((∃ m, f.dst = .other m) → (s.ringFrame p f).2 = false)) ∧
  (∀ (s : State) (p : Port) (f : RingFrame), s.linkUp p = true →
    hasDup (freshDups (s.port p).left s.clk.mono s.forget) f = true →
    s.forwardOnce p f = s.onPort p (fun r => { r with left := freshDups (s.port p).left s.clk.mono s.forget })) ∧
  ∀ (dt : Ns) (s : State), (s.begin dt).running = true →
    let a := s.begin dt
    (∀ p f, (a.ringFrame p f).2 = true → f.etherType = 0x88B5#16 → f.supervision = false →
      Leads (.ringFrameReceive dt p f) s ((a.ringFrame p f).1.receive (.ring f.src f.vlan f.dst p) f.lsdu)) ∧
    (∀ p f, (a.ringFrame p f).2 = false ∨ f.etherType ≠ 0x88B5#16 ∨ f.supervision = true →
      Leads (.ringFrameReceive dt p f) s (a.ringFrame p f).1) ∧
    (∀ src seq c, a.ring.copies.find? (fun c => c.src == src && c.seq == seq && decide (c.at_ + a.forget ≤ a.clk.mono)) = some c →
      Leads (.secondCopyTimeout dt src seq) s
        ({ a with ring.copies := a.ring.copies.filter (fun x => !(x.src == c.src && x.seq == c.seq)) }.onPort c.port (fun r =>
          { r with lone := (r.lone + 1) % pow32 }))) ∧
    (∀ p c x rest, (a.port p).launchQ c = x :: rest → a.linkUp p = true → c = .express ∨ (a.port p).paused a.clk.mono = false →
      (a.tb < x.launch → Leads (.launchQueueFrame dt p c) s a) ∧
      (x.launch ≤ a.tb → a.tb ≤ x.launch + x.tol → exec (.launchQueueFrame dt p c) s =
        .next ((a.setPort p ((a.port p).setLaunchQ c rest)).frameOut p x.frame).settle) ∧
      (x.launch + x.tol < a.tb → Leads (.launchQueueFrame dt p c) s
        ((a.setPort p ((a.port p).setLaunchQ c rest)).bump 0x70F4))) ∧
    (∀ p c, (a.port p).launchQ c = [] → Leads (.launchQueueFrame dt p c) s a) ∧
    (a.ring.lastSup + a.num 0x7001 * ms ≤ a.clk.mono → Leads (.supervisionSend dt) s
      ({ a with ring.lastSup := a.clk.mono, ring.supSeq := (a.ring.supSeq + 1) % 65536 }.launch true a.tb (a.num 0x7001 * ms)
        .group 0x88FB#16 true (u16 a.ring.supSeq ++ macBytes a.id.mac))) ∧
    (a.clk.mono < a.ring.lastSup + a.num 0x7001 * ms → Leads (.supervisionSend dt) s a) ∧
    (a.ringReturns = a.ring.closed → Leads (.supervisionTimeout dt) s a) ∧
    (a.ringReturns ≠ a.ring.closed → Leads (.supervisionTimeout dt) s { a with ring.closed := !a.ring.closed }) ∧
    (∀ p (q : BitVec 16), a.linkUp p = true →
      let b := (a.portHears p 64).bump 0x70F3
      (b.flag 0x7003 = false → Leads (.pause dt p q) s b) ∧
      (b.flag 0x7003 = true → q ≠ 0#16 → Leads (.pause dt p q) s (b.onPort p (fun r =>
        { r with pausedUntil := some (b.clk.mono + q.toNat * quantumNs r.link.speed) }))) ∧
      (b.flag 0x7003 = true → q = 0#16 → Leads (.pause dt p q) s (b.endPause p))) ∧
    (∀ p t, (a.port p).pausedUntil = some t →
      (t ≤ a.clk.mono → Leads (.pauseExpiry dt p) s (a.endPause p)) ∧ (a.clk.mono < t → Leads (.pauseExpiry dt p) s a))

/-- Links come up only where they may, verify preemption, enter LPI when idle, and change speed in their turn. In a running
module: LINK_CHANGE of a disabled or half-duplex port leaves its speed 0, a change of speed makes what rests on the link
start over. MAC_MERGE_VERIFY verifies the link where it is answered and gives up after the third attempt without. LPI_ENTRY
of an idle energy-efficient copper port that has sent nothing for ring.lpi_idle_us puts it in low power. SPEED_LOWER_EVAL
chooses the target speed from the loads; RENEGOTIATION takes the link down only in the module's own 4 s turn with the ring
closed and time valid, and counts it; otherwise nothing changes. (R419, R420, R421, R422, R423, R424, R434,
11_ring_and_time) -/
def Obligations.LinksRiseFallAndSaveEnergy : Prop :=
  ∀ (dt : Ns) (p : Port) (s : State), (s.begin dt).running = true →
    let a := s.begin dt
    let x := a.port p
    (∀ info : LinkInfo, (x.mode = 3 ∨ a.flag 0x7080 (portIx p) = false ∨ info.halfDuplexOnly = true) →
      ∃ t, exec (.linkChange dt p info) s = .next t ∧ (t.port p).link.speed = 0) ∧
    (∀ info : LinkInfo, x.mode ≠ 3 → a.flag 0x7080 (portIx p) = true → info.halfDuplexOnly = false →
      info.speed % 4 ≠ x.link.speed → info.speed % 4 ≠ 0 →
      Leads (.linkChange dt p info) s (a.setPort p
        { x.relink a.clk.mono with link := { info with speed := info.speed % 4 }, renegotiating := false
                                   eee := a.flag 0x700A && info.partnerEee
                                   target := info.speed % 4, lastSpeedChange := some a.clk.mono })) ∧
    (∀ answered, a.linkUp p = true → x.verified = false → x.verifyFailed = false → x.verifyTries = 0 ∨ x.verifyAt + 10 * ms ≤ a.clk.mono →
      let b := ({ a.setPort p
        { x with verifyTries := x.verifyTries + 1, verifyAt := a.clk.mono, verified := answered
                 verifyFailed := !answered && decide (3 ≤ x.verifyTries + 1) } with out := a.out ++ [Out.macMergeVerify p] } : State).portSends
                   p 64
      Leads (.macMergeVerify dt p answered) s (if answered then b.portHears p 64 else b)) ∧
    (∀ answered, x.verified = true ∨ x.verifyFailed = true → Leads (.macMergeVerify dt p answered) s a) ∧
    ((x.eee && x.mode == 0 && 2 ≤ x.link.speed && x.expressQ.isEmpty && x.preemptQ.isEmpty &&
        x.fwdQ.isEmpty && decide (x.txEmptySince + a.num 0x700B * us ≤ a.clk.mono)) = true →
      exec (.lpiEntry dt p) s = .next (a.setPort p { x with lpi := true }).settle) ∧
    (∀ load : LinkLoad, a.autoSpeed p = true →
      let raise_ := load.waited = true ∨ 100 * a.num 0x7008 < load.inNow ∨ 100 * a.num 0x7008 < load.outNow
      let lower := load.inLower < 100 * a.num 0x7007 ∧ load.outLower < 100 * a.num 0x7007
      (raise_ → Leads (.speedLowerEval dt p load) s (a.setPort p { x with target := a.nextSpeed p x.link.speed true })) ∧
      (¬ raise_ → lower → Leads (.speedLowerEval dt p load) s (a.setPort p { x with target := a.nextSpeed p x.link.speed false })) ∧
      (¬ raise_ → ¬ lower → Leads (.speedLowerEval dt p load) s (a.setPort p { x with target := x.link.speed }))) ∧
    (∀ load, a.autoSpeed p = false → Leads (.speedLowerEval dt p load) s a) ∧
    (a.mayRenegotiate p = true → Leads (.renegotiation dt p) s ((a.setPort p
      { x.relink a.clk.mono with renegotiating := true, lastSpeedChange := some a.clk.mono
                                 link := { (x.relink a.clk.mono).link with speed := 0 } }).bump 0x70F5)) ∧
    (a.mayRenegotiate p = false → Leads (.renegotiation dt p) s a) ∧
    (a.mayRenegotiate p = true → p = .B ∧ a.timeValid = true ∧ a.ring.closed = true ∧
      a.tb / (4 * sec) % 64 = pidSegment a.ownPid)

/-- RING_PEER_SET stores the peer table, TIME_SEED seeds the time base of a free module, the other four only answer.
RING_PEER_SET of 1 to 63 entries of other segments answers OK, stores each address, removes an entry whose address is 0, and
forgets what was heard from addresses no longer in the table; any other is answered RANGE. TIME_SEED of a whole non-zero
second answers it and steps the time base to it where the module is FREE without PPS_IN in use, waits for the next edge with
PPS_IN, and is answered STATE where the module follows a master, RANGE where the stamp is not a whole second. RING_HEALTH,
RING_PEER_GET and TIME_STATUS change nothing and answer 112, 4 + 16 n and 56 octets. (R432, R450, R451, 11_ring_and_time) -/
def Obligations.RingAndTimeCommandsAnswer : Prop :=
  (∀ (r : Req) (s : State), Ready ringPeerSetCommand r s →
    let a := s.taken ringPeerSetCommand r
    let es := (entries 8 r.payload).map (fun b => (fld b 0 1, macAt b 2))
    let t := es.foldl (fun t e => if e.2 = 0 then tdel t e.1 else tput t e.1 e.2) a.ring.peers
    let known (e : Mac × Ns) : Bool := t.any (fun x => x.2 == e.1)
    let good := es ≠ [] ∧ es.length ≤ 63 ∧ ∀ e ∈ es, e.1 ≤ 63 ∧ e.1 ≠ pidSegment a.ownPid
    (good → Answers (.ringPeerSet r) r s []
      { a with ring.peers := t, ring.heardA := a.ring.heardA.filter known, ring.heardB := a.ring.heardB.filter known }) ∧
    (¬ good → Leads (.ringPeerSet r) s (a.answered r stRange []))) ∧
  (∀ (r : Req) (s : State), Ready timeSeedCommand r s →
    let a := s.taken timeSeedCommand r
    let t := fld r.payload 0 8
    let seedable := a.ptp.state = .free ∨ (a.ptp.state = .grandmaster ∧ a.ptp.secondsSet = false)
    let edges := a.num 0x7022 = 1 ∧ a.ptp.ppsEdge.isSome ∧ a.ptp.ppsMissing = false
    (t = 0 ∨ t % sec ≠ 0 → Leads (.timeSeed r) s (a.answered r stRange [])) ∧
    (t ≠ 0 → t % sec = 0 → ¬ seedable → Leads (.timeSeed r) s (a.answered r stState [])) ∧
    (t ≠ 0 → t % sec = 0 → seedable → ¬ edges →
      Answers (.timeSeed r) r s (u64 t) (a.seedTime t) ∧ (a.seedTime t).tb = t) ∧
    (t ≠ 0 → t % sec = 0 → seedable → edges →
      let v := { a with ptp.seed := some t, ptp.seedWaiters := a.ptp.seedWaiters ++ [(r.src.endpoint, r.lane.toNat)] }
      Leads (.timeSeed r) s
        (v.setLane r.src.endpoint r.lane.toNat { v.lane r.src.endpoint r.lane.toNat with phase := .begun }))) ∧
  ∀ (r : Req) (s : State),
    (Ready ringHealthCommand r s → ∃ p, p.length = 112 ∧ Answers (.ringHealth r) r s p (s.taken ringHealthCommand r)) ∧
    (Ready ringPeerGetCommand r s →
      let a := s.taken ringPeerGetCommand r
      ∃ p, p.length = 4 + 16 * a.ring.peers.length ∧ Answers (.ringPeerGet r) r s p a) ∧
    (Ready timeStatusCommand r s → ∃ p, p.length = 56 ∧ Answers (.timeStatus r) r s p (s.taken timeStatusCommand r))

/-- Syncs, Follow_Ups, Announces, peer delays and PPS_IN steer the time base, and mesh time never steps with it. In a
running module: SYNC of the domain on a port with valid peer delay goes on by the other port and is held for its Follow_Up
(two-step) or used (one-step), the module's own is removed; FOLLOW_UP goes on with the held sum and takes its held Sync, or
is counted and goes on unchanged where there was none; FOLLOW_UP_HOLD_EXPIRY drops those held for 1 s. ANNOUNCE of another
clock is kept, passed on, and the best master chosen anew. A LOCKED module without Sync for three intervals, and a
grandmaster without PPS_IN for 3 s, go to HOLDOVER, and HOLDOVER ends FREE after ptp.holdover_s. PEER_DELAY_EXCHANGE asks
once a second and counts an unanswered request as failed, PEER_DELAY_MESSAGE takes an asked response and answers a request.
STAMP_EXTEND_READ refreshes a VKM-16C's pair. A step leaves mesh time as it was. (R305, R440, R441, R444, R445, R446, R450,
R610, 11_ring_and_time) -/
def Obligations.TheTimeBaseFollowsItsMaster : Prop :=
  (∀ (s : State) (t : Ns), (s.setTimeBase t).meshTime = s.meshTime ∧ (s.stepTime t).tb = t) ∧
  ∀ (dt : Ns) (s : State), (s.begin dt).running = true →
    let a := s.begin dt
    (∀ p (m : SyncMsg), a.linkUp p = true →
      let b := a.portHears p (frameBytes none 44)
      (m.master.toNat = b.clockId → Leads (.sync dt p m) s (b.ownReturns p)) ∧
      (m.master.toNat ≠ b.clockId → m.domain = b.num 0x7020 →
        (∀ raw, b.macStamp m.age = some raw →
          let ingress := raw - (b.latency p).2
          let residence := (b.tb : Int) + (b.latency (Port.other p)).1 - ingress
          ((b.port p).delayValid = false → Leads (.sync dt p m) s (b.bump 0x70FB)) ∧
          ((b.port p).delayValid = true → m.twoStep = true →
            let h : HeldSync :=
              { port := p, master := m.master, seq := m.sequence, sum := residence + (b.port p).delay, corr := m.correction
                ingress := ingress, at_ := b.clk.mono }
            Leads (.sync dt p m) s (({ b with ptp.held := lastN 16 (b.ptp.held ++ [h]), ptp.interval := m.interval } : State).ptpOut
              (Port.other p) 0 m.correction m.sequence)) ∧
          ((b.port p).delayValid = true → m.twoStep = false →
            Leads (.sync dt p m) s ((b.ptpOut (Port.other p) 0 (m.correction + residence + (b.port p).delay) m.sequence).takeOffset p
              m.master m.sequence (ptpStamp m.seconds m.nanos) m.correction ingress m.interval))) ∧
        (b.macStamp m.age = none → Leads (.sync dt p m) s (b.bump 0x70FC)))) ∧
    (∀ p (m : FollowUpMsg), a.linkUp p = true →
      let b := a.portHears p (frameBytes none 44)
      let here (h : HeldSync) : Bool := h.port == p && h.master == m.master && h.seq == m.sequence
      m.master.toNat ≠ b.clockId → m.domain = b.num 0x7020 →
      (b.ptp.held.find? here = none →
        Leads (.followUp dt p m) s ((b.bump 0x70FA).ptpOut (Port.other p) 8 m.correction m.sequence)) ∧
      (∀ h, b.ptp.held.find? here = some h →
        let c := ({ b with ptp.held := b.ptp.held.filter (fun x => !here x) } : State).ptpOut (Port.other p) 8
          (m.correction + h.sum) m.sequence
        Leads (.followUp dt p m) s (c.takeOffset p m.master m.sequence
          (ptpStamp m.seconds m.nanos) (h.corr + m.correction) h.ingress b.ptp.interval))) ∧
    Leads (.followUpHoldExpiry dt) s { a with ptp.held := a.ptp.held.filter (fun h => decide (a.clk.mono < h.at_ + sec)) } ∧
    (∀ p (m : AnnounceMsg), a.linkUp p = true →
      let b := a.portHears p (frameBytes none 64)
      let kept := b.ptp.heard.filter (fun e => !(e.1 == p && e.2.1.source == m.source) && decide (b.clk.mono < e.2.2 + 3 * sec))
      m.source.toNat ≠ b.clockId → m.domain = b.num 0x7020 →
      Leads (.announce dt p m) s (({ b with ptp.heard := kept ++ [(p, m, b.clk.mono)] } : State).ptpOut (Port.other p) 11 0 0#16).selectMaster) ∧
    (∀ t, a.selectMaster.ptp.state = .locked → a.selectMaster.ptp.lastSync = some t →
      (t + 3 * a.selectMaster.ptp.interval ≤ a.selectMaster.clk.mono →
        Leads (.syncMissTimeout dt) s (a.selectMaster.timeTo .holdover)) ∧
      (a.selectMaster.clk.mono < t + 3 * a.selectMaster.ptp.interval → Leads (.syncMissTimeout dt) s a.selectMaster)) ∧
    (a.ptp.state = .holdover →
      (a.ptp.holdoverSince + a.num 0x7029 * sec ≤ a.clk.mono → Leads (.holdoverTimeout dt) s (a.timeTo .free)) ∧
      (a.clk.mono < a.ptp.holdoverSince + a.num 0x7029 * sec → Leads (.holdoverTimeout dt) s a)) ∧
    (∀ high, 1000 ≤ high → a.ppsAccepts = true →
      let b := { a with ptp.ppsEdge := some a.clk.mono, ptp.ppsMissing := false
                        ptp.ppsSteady := if a.ptp.ppsEdge.isNone || a.ptp.ppsMissing then some a.clk.mono else a.ptp.ppsSteady }
      let v := b.ppsSeed.selectMaster.noteValidity
      Leads (.ppsInEdge dt high) s (if v.ptp.state = .grandmaster then v.announceSelf else v)) ∧
    (∀ high, high < 1000 ∨ a.ppsAccepts = false → Leads (.ppsInEdge dt high) s a) ∧
    (∀ t, a.ptp.ppsEdge = some t → a.ptp.ppsMissing = false →
      let b := { a with ptp.ppsMissing := true, ptp.ppsSteady := none }
      (t + 3 * sec ≤ a.clk.mono → a.ptp.state = .grandmaster → Leads (.ppsInMissing dt) s (b.timeTo .holdover)) ∧
      (t + 3 * sec ≤ a.clk.mono → a.ptp.state ≠ .grandmaster → Leads (.ppsInMissing dt) s b) ∧
      (a.clk.mono < t + 3 * sec → Leads (.ppsInMissing dt) s a)) ∧
    (a.is16C = true → Leads (.stampExtendRead dt) s
      { a with ptp.rawRef := a.tb % pow32, ptp.extRef := a.tb, ptp.refAt := a.clk.mono }) ∧
    (∀ p, a.linkUp p = true → ((a.port p).askedAt = 0 ∨ (a.port p).askedAt + sec ≤ a.clk.mono) →
      ∃ t, exec (.peerDelayExchange dt p) s = .next t ∧ (t.port p).asked = true ∧ (t.port p).askedAt = a.clk.mono ∧
        ((a.port p).asked = true → (t.port p).failRun = (a.port p).failRun + 1 ∧
          (2 ≤ (a.port p).failRun → (t.port p).delayValid = false))) ∧
    ∀ p seq d ratio, a.linkUp p = true →
      let b := a.portHears p (frameBytes none 54)
      ((b.port p).asked = true →
        Leads (.peerDelayMessage dt p (.response seq d ratio)) s (b.setPort p ((b.port p).delayGiven b.clk.mono d ratio))) ∧
      Leads (.peerDelayMessage dt p (.request seq)) s
        (({ b with out := b.out ++ [Out.peerDelayResponse p seq] } : State).portSends p (frameBytes none 54))

/-! ## Group 0x78: the History Store -/

/-- HIST_QUERY opens a cursor, HIST_NEXT answers its next entries whole and in index order, HIST_CLOSE ends it. HIST_QUERY
that passes the field checks, with fewer than 16 cursors open and fewer than 4 of its session, answers the cursor's ID and
cut-off instant and keeps the cursor; with no place left it is answered BUSY. HIST_NEXT of the session's cursor for 32 to
1,468 octets answers as many of its next entries as fit whole and moves the cursor past them; of another's it is answered
STATE. What a cursor still returns it selects, lies beyond what it returned last, and stands in index order. HIST_CLOSE
removes exactly the cursor; of none it is answered STATE. HIST_STATUS answers the store's account. (R466, R467, R470,
12_history_store) -/
def Obligations.CursorsReturnWhatTheySelect : Prop :=
  (∀ (r : Req) (s : State), Ready histQueryCommand r s →
    let a := s.taken histQueryCommand r
    let b := r.payload
    let c : Cursor :=
      { id := a.hs.nextCursor, ep := r.src.endpoint, tier := fld b 0 1, hide := hasBit (fld b 1 1) 0, mode := fld b 2 1
        place := pidAt b 4, types := fld b 12 8, from_ := fld b 20 8, to_ := fld b 28 8, cutoff := a.now
        appended := a.hs.appendSeq, after := none, lastUse := a.clk.mono, agedTold := false
        oldest := a.histOldest (fld b 0 1), gone := [] }
    a.queryRefused b = none →
    (a.hs.cursors.length < 16 → (a.hs.cursors.filter (fun c => c.ep == r.src.endpoint)).length < 4 →
      Answers (.histQuery r) r s (u32 c.id ++ u32 0 ++ u64 c.cutoff)
        { a with hs.cursors := a.hs.cursors ++ [c], hs.nextCursor := (a.hs.nextCursor + 1) % pow32 }) ∧
    (16 ≤ a.hs.cursors.length → ∃ t, exec (.histQuery r) s = .next t ∧ t.hs.cursors = a.hs.cursors)) ∧
  (∀ (r : Req) (s : State), Ready histNextCommand r s →
    let a := s.taken histNextCommand r
    let n := fld r.payload 4 2
    32 ≤ n → n ≤ 1468 →
    (∀ c, a.cursor? r.src.endpoint (fld r.payload 0 4) = some c →
      let all := a.cursorEntries c
      let es := takeFitting c n all
      let b := { a.onCursor c.id (fun (x : Cursor) => { x with lastUse := a.clk.mono }) with hs.forced := 0 }
      let v := es.foldl (fun (s : State) e => s.returned c.id c.tier e) (b.countReads c.tier es)
      Answers (.histNext r) r s
        (u16 es.length ++ u8 (bit (es.length == all.length)) ++ u8 0 ++ (es.map (fun e => e.bytes c)).flatten) v ∧
      es <+: all ∧ ((es.map (fun e => e.bytes c)).flatten).length ≤ n) ∧
    (a.cursor? r.src.endpoint (fld r.payload 0 4) = none → Leads (.histNext r) s (a.answered r stState []))) ∧
  (∀ (s : State) (c : Cursor), ((s.cursorRecs c).Pairwise (fun x y => x.1.index ≤ y.1.index)) ∧
    ∀ e ∈ s.cursorRecs c, e.1 ∈ s.tierRecs c.tier ∧ s.selects c e.1 = true ∧
      ∀ i k, c.after = some (i, k) → i < e.1.index ∨ (i = e.1.index ∧ k < e.1.append)) ∧
  (∀ (r : Req) (s : State), Ready histCloseCommand r s →
    let a := s.taken histCloseCommand r
    (∀ c, a.cursor? r.src.endpoint (fld r.payload 0 4) = some c →
      Answers (.histClose r) r s [] { a with hs.cursors := a.hs.cursors.filter (fun x => x.id != c.id) }) ∧
    (a.cursor? r.src.endpoint (fld r.payload 0 4) = none → Leads (.histClose r) s (a.answered r stState []))) ∧
  ∀ (r : Req) (s : State), Ready histStatusCommand r s →
    let a := s.taken histStatusCommand r
    let x := a.tierStatus 0
    let y := x.2.tierStatus 1
    let z := y.2.tierStatus 2
    ∃ p, Answers (.histStatus r) r s p z.2 ∧ p.length = 128 ∧ ∃ k, z.2 = { a with free := k }

/-- Waiting records are appended in order, a stalled store discards after 2 s, blocks are scrubbed and move, a lost package
leaves its GAPs. In a running module: HIST_PROGRAM with the store open and the medium good programs what waits in queue 0x0A
and the staged Ledger records; otherwise, with records waiting, it notes the stall. An appended record is the last of its
tier under the next append number. WRITE_STALL_TIMEOUT discards what waits once the store has been stalled for 2 s, and
nothing before. SCRUB_STEP reads, refreshes or relocates a part of the block it names, gives way to a query or an append
that waits but for a scrub forced after 10 s, counts a missed floor while no package works, and does nothing in LAST-GASP or
to a block not held. PACKAGE_FAILURE of a working package loses it, of another changes nothing. (R33, R454, R455, R458,
R460, R463, R472, R474, R476, R477, 12_history_store) -/
def Obligations.RecordsAreProgrammedAndKept : Prop :=
  (∀ (dt : Ns) (s : State) (o : MediumOutcome) (errors : List CellError), (s.begin dt).running = true →
    let a := ({ s.begin dt with hs.forced := 0 } : State).cellErrors errors
    (a.histOpen = true → o.ok = true → o.blockFailed = false →
      let b := (({ a with hs.stallSince := none }.mediumCounts o).stallGaps).programQueue
      Leads (.histProgram dt ⟨o, errors⟩) s (b.hs.staged.foldl State.append { b with hs.staged := [] })) ∧
    (a.histOpen = false ∨ o.ok = false → (a.queue 0x0A).items ≠ [] →
      Leads (.histProgram dt ⟨o, errors⟩) s { a with hs.stallSince := some (a.hs.stallSince.getD a.clk.mono) }) ∧
    (a.histOpen = false ∨ o.ok = false → (a.queue 0x0A).items = [] → Leads (.histProgram dt ⟨o, errors⟩) s a)) ∧
  (∀ (s : State) (t : Nat) (r : HistRec), t < s.hs.tiers.length →
    (s.appendTo t r).hs.appendSeq = s.hs.appendSeq + 1 ∧
    ∃ b x, ((s.appendTo t r).tier t).blocks.getLast? = some b ∧ b.recs.getLast? = some x ∧ x.rec_ = r ∧
      x.append = s.hs.appendSeq ∧ x.lost = false ∧ (r.stamp ≠ 0 → x.index = r.stamp)) ∧
  ∀ (dt : Ns) (s : State), (s.begin dt).running = true →
    let a := s.begin dt
    (∀ t, a.hs.stallSince = some t →
      (t + 2 * sec ≤ a.clk.mono → exec (.writeStallTimeout dt) s =
        .next ((a.queue 0x0A).items.foldl State.discardRecord a).settle) ∧
      (a.clk.mono < t + 2 * sec → Leads (.writeStallTimeout dt) s a)) ∧
    (a.hs.stallSince = none → Leads (.writeStallTimeout dt) s a) ∧
    (∀ kind n o t b, a.pwr.state ≠ .lastGasp → a.workingPackages ≠ [] → a.blockTier n = some (t, b) → o.ok = true →
      let w := a.workOn kind b.number o
      let last := decide (b.steps ≤ w.done)
      let x := { a with hs.work := if last then none else some w }
      (a.scrubYields kind = true → Leads (.scrubStep dt kind n o) s a) ∧
      (a.scrubYields kind = false → Leads (.scrubStep dt kind n o) s (a.blockStep kind t b o)) ∧
      (kind = .scrub → a.scrubLate = false → a.blockStep kind t b o = x.scrub t b last o) ∧
      (kind = .scrub → a.scrubLate = true →
        a.blockStep kind t b o = ({ x.bump 0x78F9 with hs.forced := a.hs.forced + 1 } : State).scrub t b last o) ∧
      (kind = .refresh → b.refresh = true → a.blockStep kind t b o = x.rewrite t b w last o) ∧
      (kind = .relocate → a.lowWear b = true → a.blockStep kind t b o = x.rewrite t b w last o)) ∧
    (∀ k n o, a.pwr.state ≠ .lastGasp → a.workingPackages = [] → a.scrubLate = true →
      Leads (.scrubStep dt k n o) s { a.bump 0x78FA with hs.lastScrub := a.clk.mono }) ∧
    (∀ k n o, a.pwr.state = .lastGasp ∨ (a.workingPackages ≠ [] ∧ a.blockTier n = none) → Leads (.scrubStep dt k n o) s a) ∧
    (∀ p, Leads (.packageFailure dt p) s (a.packageFails p)) ∧
    (∀ p, a.workingPackages.contains p = false → a.packageFails p = a) ∧
    (∀ p, a.workingPackages.contains p = true → (a.packageFails p).workingPackages.contains p = false)

/-! ## Groups 0x80 and 0x84: the recorder and the counters -/

/-- A recorder write puts the oldest waiting record in its region under the next sequence, the mirror follows, a failed MRAM
is retried after 60 s. In a running module: RECORDER_WRITE with a good readback takes the older of the queue's and the
last-gasp ring's first record, gives it the next sequence where it has none, and puts it last in its region; a failed
readback is counted and keeps it waiting. MIRROR_COPY copies what waits, or tells once that the mirror has fallen behind.
MRAM_RETRY before 60 s changes nothing; a good one drains the ring and writes the MRAM again. REC_READ of 1 to 22 records
answers a page of the region, whose records of bad CRC are counted, and REC_STATUS the account; both change nothing else.
(R481, R486, R488, R489, R491, R625, 13_recorder_and_counters) -/
def Obligations.RecordsReachTheirRegionInOrder : Prop :=
  (∀ (s : State) (r : RecEntry), r.numbered = false →
    let x := { r with seq := s.ev.seq, numbered := true }
    (s.toMram r).ev.seq = (s.ev.seq + 1) % pow32 ∧
    (r.pinned = true → (s.toMram r).ev.pinned.getLast? = some x ∧ (s.toMram r).ev.general = s.ev.general ∧
      (s.toMram r).ev.pinned.length ≤ 4096) ∧
    (r.pinned = false → (s.toMram r).ev.general.getLast? = some x ∧ (s.toMram r).ev.pinned = s.ev.pinned ∧
      (s.toMram r).ev.general.length ≤ 61440)) ∧
  (∀ (dt : Ns) (s : State), (s.begin dt).running = true →
    let a := s.begin dt
    (∀ r gasp, a.ev.state = 0 → a.nextRecord = some (r, gasp) → ∀ mirrorOk,
      exec (.recorderWrite dt true mirrorOk) s = .next (((a.dropRecord gasp).toMram r).tellOverflow).settle ∧
      (a.ev.failRun < 2 → exec (.recorderWrite dt false mirrorOk) s =
        .next ({ a.bump 0x80F3 with ev.failRun := a.ev.failRun + 1 }).settle)) ∧
    (a.ev.state = 0 → a.nextRecord = none → ∀ x y, Leads (.recorderWrite dt x y) s a) ∧
    (∀ r rest, a.ev.state ≠ 0 → a.ev.queue = r :: rest → ∀ x y,
      exec (.recorderWrite dt x y) s = .next (((a.dropRecord false).toMirror r y).tellOverflow).settle) ∧
    (a.ev.state = 0 → a.pwr.state ≠ .lastGasp → a.ev.unmirrored ≠ [] →
      Leads (.mirrorCopy dt true) s a.mirrorCatchUp ∧
      (a.ev.mirrorBehind = false → Leads (.mirrorCopy dt false) s { a with ev.mirrorBehind := true })) ∧
    (a.ev.state ≠ 0 → a.ev.lastRetry + 60 * sec ≤ a.clk.mono →
      ∃ t, exec (.mramRetry dt true) s = .next t ∧ t.ev.state = 0 ∧ t.ev.failRun = 0 ∧
        t.ev.pinned = (a.ev.lastGasp.foldl State.toMram { a with ev.lastGasp := [] }).ev.pinned ∧
        t.ev.general = (a.ev.lastGasp.foldl State.toMram { a with ev.lastGasp := [] }).ev.general) ∧
    (a.clk.mono < a.ev.lastRetry + 60 * sec → ∀ ok, Leads (.mramRetry dt ok) s a)) ∧
  ∀ (r : Req) (s : State),
    (Ready recReadCommand r s →
      let a := s.taken recReadCommand r
      let n := fld r.payload 2 2
      (fld r.payload 0 1 ≤ 1 → 1 ≤ n → n ≤ 22 → fld r.payload 4 4 = 0xFFFFFFFF →
        let page := (a.readable (fld r.payload 0 1 == 1)).take n
        ∃ p, Answers (.recRead r) r s p (a.bump 0x80F1 0 (page.countP (fun x => x.badCrc.isSome))) ∧ fld p 0 2 = page.length ∧ p.drop 16 = (page.map recordBytes).flatten) ∧
      (1 < fld r.payload 0 1 ∨ n = 0 ∨ 22 < n → Leads (.recRead r) s (a.answered r stRange []))) ∧
    (Ready recStatusCommand r s → ∃ p, Answers (.recStatus r) r s p (s.taken recStatusCommand r) ∧ p.length = 40)

/-- PERF_READ and WMETER_READ answer what stands, PERF_SAMPLES takes the oldest samples out, a due sample is kept, a window
closes at its boundary. PERF_READ of 1 to 64 counters answers 20 octets for each and changes nothing, beyond counter 63 it
is answered RANGE. PERF_SAMPLES answers up to 60 of the oldest samples and removes them. PERF_SAMPLE that is due keeps one
sample, or counts one lost where 256 are kept; one not due does nothing. A meter's window that began on its own boundary and
has reached the next gives its bytes as the last full window and starts again from 0. WMETER_READ answers 16 meters. (R496,
R497, R498, R500, 13_recorder_and_counters) -/
def Obligations.PerformanceIsCountedSampledAndMetered : Prop :=
  (∀ (r : Req) (s : State), Ready perfReadCommand r s →
    let a := s.taken perfReadCommand r
    let n := fld r.payload 1 1
    (1 ≤ n → fld r.payload 0 1 + n ≤ 64 → ∃ p, Answers (.perfRead r) r s p a ∧ p.length = 4 + 20 * n ∧ fld p 0 2 = n) ∧
    (n = 0 ∨ 64 < n ∨ 64 < fld r.payload 0 1 + n → Leads (.perfRead r) s (a.answered r stRange []))) ∧
  (∀ (r : Req) (s : State), Ready perfSamplesCommand r s →
    let a := s.taken perfSamplesCommand r
    let n := fld r.payload 0 2
    let taken := a.perf.samples.take n
    let p := u16 taken.length ++ u16 0 ++ (taken.map PerfSampleRec.bytes).flatten
    let v := { a with perf.samples := a.perf.samples.drop n }
    1 ≤ n → n ≤ 60 → exec (.perfSamples r) s =
      .next ((v.answered r stOk p).respond r.src r.lane.toNat r.seq 0x8402 1 stOk p).settle) ∧
  (∀ (dt : Ns) (c : Nat) (k : SampleCapture) (s : State), (s.begin dt).running = true →
    let a := s.begin dt
    let b := { a with perf.sinceSample := cput a.perf.sinceSample c (cget a.perf.sinceSample c - a.num 0x8482 c) }
    let x : PerfSampleRec :=
      { counter := c, stamp := a.now, capture := if perfOfEngine (a.num 0x8480 c) then k else { k with engine := 0xFF } }
    (a.sampleDue c = true → a.perf.samples.length < 256 →
      exec (.perfSample dt c k) s = .next ({ b with perf.samples := b.perf.samples ++ [x] }.settle)) ∧
    (a.sampleDue c = true → 256 ≤ a.perf.samples.length → exec (.perfSample dt c k) s = .next (b.bump 0x84F0).settle) ∧
    (a.sampleDue c = false → exec (.perfSample dt c k) s = .next a.settle)) ∧
  (∀ (dt : Ns) (m : Nat) (s : State), (s.begin dt).running = true →
    exec (.windowMeterBoundary dt m) s = .next ((s.begin dt).meterBoundary m).settle) ∧
  (∀ (s : State) (m : Nat) (w : WindowMeter), s.perf.meters[m]? = some w → s.num 0x8492 m = w.window → 0 < w.window →
    w.windowStart % (w.window * ms) = 0 →
    (w.windowStart + w.window * ms ≤ s.tb → ∃ x, (s.meterBoundary m).perf.meters[m]? = some x ∧ x.last = w.bytes ∧
      x.bytes = 0 ∧ x.valid = true ∧ x.windowStart = w.windowStart + w.window * ms) ∧
    (s.tb < w.windowStart + w.window * ms → (s.meterBoundary m).perf.meters[m]? = some w)) ∧
  ∀ (r : Req) (s : State), Ready wmeterReadCommand r s → (s.taken wmeterReadCommand r).perf.meters.length = 16 →
    ∃ p, Answers (.wmeterRead r) r s p (s.taken wmeterReadCommand r) ∧ fld p 0 2 = 16 ∧ p.length = 4 + 16 * 32

/-! ## Group 0x90: keys and the life cycle -/

/-- A key command that passes its checks changes exactly its slot, raises the generation on a write or erase, and answers
it. Outside LAST-GASP, with no other key command in progress and the writer checks passed: KEY_WRITE of a valid key answers
the next generation and the check value and stores the key; KEY_ERASE answers the next generation and leaves the slot empty;
KEY_DISABLE disables or enables a slot that holds a key and leaves its generation; KEY_DERIVE of an allowed parent stores
the key derived from it. In LAST-GASP each is answered STATE. A write leaves every other slot's record. KEY_STATUS answers
16 octets a slot, ATTEST the 64-octet message's fields with their MAC while the rate allows. (R511, R512, R513, R514, R516,
R517, R518, R526, 14_keys) -/
def Obligations.KeysAreWrittenErasedDisabledDerived : Prop :=
  (∀ (r : Req) (s : State), Ready keyWriteCommand r s →
    let a := s.taken keyWriteCommand r
    let p := r.payload
    let i := fld p 0 1
    let k : KeyRecord :=
      { type := fld p 1 1, attrs := fld p 4 4 ||| 16, gen := a.nextGen i, disabled := false, key := p.drop 8, parent := none }
    (a.pwr.state ≠ .lastGasp → a.keyBusy r = false → a.writerCheck r i (fld p 4 4) = none → keyLength (fld p 1 1) ≠ 0 →
      attrsOk (fld p 1 1) (fld p 4 4) = true → (a.childrenOf i = [] ∨ hasBit (fld p 2 1) 0 = true) →
      Answers (.keyWrite r) r s (u32 k.gen ++ k.kcv) (a.writeSlot i 1 k)) ∧
    (a.pwr.state = .lastGasp → Leads (.keyWrite r) s (a.answered r stState []))) ∧
  (∀ (r : Req) (s : State), Ready keyEraseCommand r s →
    let a := s.taken keyEraseCommand r
    let i := fld r.payload 0 1
    a.pwr.state ≠ .lastGasp → a.keyBusy r = false → a.writerCheck r i 0 = none →
    (a.childrenOf i = [] ∨ hasBit (fld r.payload 1 1) 0 = true) →
    Answers (.keyErase r) r s (u32 (a.nextGen i)) (a.writeSlot i 2 { KeyRecord.empty with gen := a.nextGen i })) ∧
  (∀ (r : Req) (s : State),
    (Ready keyEraseCommand r s → (s.taken keyEraseCommand r).pwr.state = .lastGasp →
      Leads (.keyErase r) s ((s.taken keyEraseCommand r).answered r stState [])) ∧
    (Ready keyDisableCommand r s → (s.taken keyDisableCommand r).pwr.state = .lastGasp →
      Leads (.keyDisable r) s ((s.taken keyDisableCommand r).answered r stState [])) ∧
    (Ready keyDeriveCommand r s → (s.taken keyDeriveCommand r).pwr.state = .lastGasp →
      Leads (.keyDerive r) s ((s.taken keyDeriveCommand r).answered r stState []))) ∧
  (∀ (r : Req) (s : State), Ready keyDisableCommand r s →
    let a := s.taken keyDisableCommand r
    let i := fld r.payload 0 1
    let e := fld r.payload 1 1
    a.pwr.state ≠ .lastGasp → a.keyBusy r = false → a.writerCheck r i 0 = none → e ≤ 1 → (a.slot i).rec_.type ≠ 0 →
    (e = 1 ∨ a.childrenOf i = [] ∨ hasBit (fld r.payload 2 1) 0 = true) →
    Answers (.keyDisable r) r s [] (a.changeSlot i (if e = 0 then 3 else 4) (fun k =>
      { k with rec_ := { k.rec_ with disabled := e = 0 }, older := k.rec_ }))) ∧
  (∀ (r : Req) (s : State), Ready keyDeriveCommand r s →
    let a := s.taken keyDeriveCommand r
    let p := r.payload
    let parent := fld p 0 1
    let i := fld p 1 1
    let n := fld p 3 1
    let pk := (a.slot parent).rec_
    let k : KeyRecord :=
      { type := fld p 2 1, attrs := fld p 4 4 ||| 16, gen := a.nextGen i, disabled := false
        key := kdf pk.key (slice p 12 n) (p.drop (12 + n)) (keyLength (fld p 2 1)), parent := some (parent, pk.gen) }
    a.pwr.state ≠ .lastGasp → a.keyBusy r = false → a.writerCheck r i (fld p 4 4) = none → parent < a.slotsFitted →
    (a.slotState parent = 1 ∧ hasBit pk.attrs 12 = true ∧ hasBit pk.attrs (8 + a.ks.lifecycle) = true) →
    (1 ≤ fld p 2 1 ∧ fld p 2 1 ≤ 3 ∧ 1 ≤ n ∧ n ≤ 32 ∧ (p.drop (12 + n)).length ≤ 32 ∧ ∀ b ∈ slice p 12 n, b.toNat < 0x80) →
    (attrsOk (fld p 2 1) (fld p 4 4) = true ∧
      ([0, 1, 2, 3] : List Nat).any (fun b => hasBit (fld p 4 4) b && !hasBit pk.attrs b) = false) →
    ((a.ancestry 64 parent).contains i = false ∧ (a.ancestry 64 parent).length < 4 ∧ a.childrenOf i = []) →
    Answers (.keyDerive r) r s (u32 k.gen ++ k.kcv) (a.writeSlot i 5 k)) ∧
  (∀ (s : State) (i cause : Nat) (k : KeyRecord), i < s.ks.slots.length →
    ((s.writeSlot i cause k).slot i).rec_ = k ∧ ((s.writeSlot i cause k).slot i).older = (s.slot i).rec_ ∧
    ∀ j, j ≠ i → (s.writeSlot i cause k).slot j = s.slot j) ∧
  ∀ (r : Req) (s : State),
    (Ready keyStatusCommand r s →
      let a := s.taken keyStatusCommand r
      Answers (.keyStatus r) r s (u16 a.slotsFitted ++ u16 0 ++ ((List.range a.slotsFitted).map a.slotEntry).flatten) a) ∧
    (Ready attestCommand r s →
      let a := s.taken attestCommand r
      let recent := a.ks.attests.filter (fun t => decide (a.clk.mono < t + sec))
      recent.length < a.num 0x9005 → a.keyUsable (a.num 0x9002) 3 = true →
      Answers (.attest r) r s (a.attestFields ++ hmac (a.slot (a.num 0x9002)).rec_.key (r.payload ++ a.attestFields))
        ({ a with ks.attests := recent ++ [a.clk.mono] }.bump 0x90F3))

/-- LIFECYCLE_SET moves as Table 14.5 says, retiring erases every key without U_RETIRED, SHUFFLE gives new masks.
LIFECYCLE_SET of the present state, not RETIRED, answers OK and changes nothing; of a state that Table 14.5 allows answers
the old and the new state and moves; any other, and every one in RETIRED, is answered STATE and changes nothing. On the move
to RETIRED the keys without U_RETIRED are erased. In a running module SHUFFLE gives each slot named a new mask and counts
the slots that went more than 2 s without one. (R524, R525, R527, R528, 14_keys) -/
def Obligations.LifeCycleSetFollowsItsTable : Prop :=
  (∀ (r : Req) (s : State), Ready lifecycleSetCommand r s →
    let a := s.taken lifecycleSetCommand r
    let old := a.ks.lifecycle
    let new := fld r.payload 0 1
    let active (i : Nat) := a.slotState i = 1
    let allowed :=
      (old = 0 ∧ new = 1 ∧ active (a.num 0x9002)) ∨ (old = 1 ∧ new = 2 ∧ active (a.num 0x9002) ∧ active (a.num 0x9003)) ∨
      (old = 2 ∧ new = 1) ∨ (old < 3 ∧ new = 3 ∧ fld r.payload 2 2 = 0x5245)
    (old ≠ 3 → new = old → Answers (.lifecycleSet r) r s (u8 old ++ u8 new ++ u16 0) a) ∧
    (allowed → Answers (.lifecycleSet r) r s (u8 old ++ u8 new ++ u16 0) (a.setLifecycle new) ∧
      (a.setLifecycle new).ks.lifecycle = new) ∧
    (¬ allowed → (old = 3 ∨ new ≠ old) → Leads (.lifecycleSet r) s (a.answered r stState []))) ∧
  (∀ (s : State), s.slotsFitted ≤ s.ks.slots.length →
    ∀ i, i < s.slotsFitted →
      ((s.slot i).rec_.type ≠ 0 → hasBit (s.slot i).rec_.attrs 11 = false →
        ((s.setLifecycle 3).slot i).rec_ = { KeyRecord.empty with gen := s.nextGen i }) ∧
      (hasBit (s.slot i).rec_.attrs 11 = true → (s.setLifecycle 3).slot i = s.slot i)) ∧
  ∀ (dt : Ns) (masks : List (List Byte)) (s : State), (s.begin dt).running = true →
    let a := s.begin dt
    Leads (.shuffle dt masks) s (a.shuffled masks) ∧
    (∀ i b m, i < a.ks.slots.length → masks[i]? = some (b :: m) → ((a.shuffled masks).slot i).mask = b :: m) ∧
    (∀ i, ((a.shuffled masks).slot i).rec_ = (a.slot i).rec_)

/-! ## Group 0x98: images and updates -/

/-- Images are listed, offered, fetched and erased, firmware and node images are armed, disarmed and rolled back.
UPDATE_ARM, CHAIN_ARM and UPDATE_ROLLBACK that pass the checks of R549 answer the effective instant and stand in place of an
earlier arm of their kind, and pass the arm on where asked; a refused one is answered with its status, for CHAIN_ARM as
result 2 or 3. UPDATE_DISARM drops the arm of its kind, or is answered STATE. IMAGE_ERASE erases an image neither running,
armed nor loaded. CHAIN_OFFER answers held, busy, refused or failed, or begins a receipt and fetches; CHAIN_FETCH answers
the bytes asked for. SD_SCAN of a readable card without files answers at once. IMAGE_LIST and UPDATE_STATUS change nothing.
(R535, R541, R543, R548, R549, R550, R551, R557, 15_update) -/
def Obligations.UpdateCommandsArmDisarmAndErase : Prop :=
  (∀ (r : Req) (s : State),
    let p := r.payload
    let kind := fld p 0 1
    let flags := fld p 1 1
    let id := fld p 4 4
    let at_ := fld p 8 8
    (Ready updateArmCommand r s →
      let a := s.taken updateArmCommand r
      (∀ t pending, a.armVerdict (a.admittedTb r) kind flags id at_ false = .armed t pending →
        exec (.updateArm r) s = .next ((((((a.arm kind id t (hasBit flags 0) pending false).answered r stOk
          (u64 t ++ u8 (bit pending) ++ zeros 3)).respond r.src r.lane.toNat r.seq 0x9802 1 stOk
          (u64 t ++ u8 (bit pending) ++ zeros 3))).passArm kind flags id at_).settle)) ∧
      (∀ st, a.armVerdict (a.admittedTb r) kind flags id at_ false = .refused st → Leads (.updateArm r) s (a.answered r st []))) ∧
    (Ready chainArmCommand r s →
      let a := s.taken chainArmCommand r
      (∀ t pending, a.armVerdict (a.admittedTb r) kind flags id at_ true = .armed t pending →
        exec (.chainArm r) s = .next ((((((a.arm kind id t (hasBit flags 0) pending false).answered r stOk
          (u8 (bit pending) ++ zeros 3 ++ u64 t)).respond r.src r.lane.toNat r.seq 0x98C2 1 stOk
          (u8 (bit pending) ++ zeros 3 ++ u64 t))).passArm kind flags id at_).settle)) ∧
      (∀ st, a.armVerdict (a.admittedTb r) kind flags id at_ true = .refused st →
        Answers (.chainArm r) r s (u8 (if st = stTooLate then 2 else 3) ++ zeros 3 ++ u64 0) a)) ∧
    (Ready updateDisarmCommand r s → kind < 5 →
      let a := s.taken updateDisarmCommand r
      (∀ x, tget a.up.arms kind = some x → ∃ t, exec (.updateDisarm r) s = .next t ∧ tget t.up.arms kind = none ∧
        (∀ k, k ≠ kind → tget t.up.arms k = tget a.up.arms k) ∧ t.up.images = a.up.images) ∧
      (tget a.up.arms kind = none → Leads (.updateDisarm r) s (a.answered r stState [])))) ∧
  (∀ (s : State) (kind id flags at_ : Nat) (since t : Ns) (pending chain : Bool),
    s.armVerdict since kind flags id at_ chain = .armed t pending →
    t = max at_ (since + s.armLead) ∧ kind < 5 ∧ (at_ < since + s.armLead → hasBit flags 0 = true) ∧
    tget (s.arm kind id t (hasBit flags 0) pending false).up.arms kind =
      some { imageId := id, instant := t, immediate := hasBit flags 0, pending := pending, rollback := false }) ∧
  (∀ (r : Req) (s : State), Ready updateRollbackCommand r s →
    let a := s.taken updateRollbackCommand r
    let flags := fld r.payload 1 1
    let at_ := fld r.payload 4 8
    at_ ≠ 0 → a.inactive.state = 1 → a.num 0x9880 0 ≤ a.inactive.image.epoch →
    ∀ t pending, a.armVerdict (a.admittedTb r) 0 flags a.inactive.image.id at_ false = .armed t pending →
      exec (.updateRollback r) s = .next ((((((a.arm 0 a.inactive.image.id t (hasBit flags 0) false true).answered r stOk
        (u64 t)).respond r.src r.lane.toNat r.seq 0x9804 1 stOk (u64 t))).passArm 0 flags a.inactive.image.id at_).settle)) ∧
  (∀ (r : Req) (s : State), Ready imageEraseCommand r s →
    let a := s.taken imageEraseCommand r
    let id := fld r.payload 0 4
    let named := a.imageStates.filter (fun e => e.1.id == id)
    (named = [] → Leads (.imageErase r) s (a.answered r stRange [])) ∧
    (named ≠ [] → named.any (fun e => e.2 == 2 || e.2 == 3 || a.imageLoaded e.1) = false →
      a.up.arms.any (fun e => e.2.imageId == id) = false →
      Answers (.imageErase r) r s [] (a.eraseImage id).cardOn ∧ ∀ i ∈ (a.eraseImage id).up.images, i.id ≠ id)) ∧
  (∀ (r : Req) (s : State),
    (Ready chainOfferCommand r s →
      let a := s.taken chainOfferCommand r
      let h := r.payload
      (∀ b, a.offerVerdict h = (.held, b) → Answers (.chainOffer r) r s (u8 1 ++ u8 0 ++ u16 0 ++ u32 (fld h 20 4)) b) ∧
      (∀ b, a.offerVerdict h = (.busy, b) → Answers (.chainOffer r) r s (u8 2 ++ u8 0 ++ u16 0 ++ u32 0) b) ∧
      (∀ b, a.offerVerdict h = (.refused, b) → Answers (.chainOffer r) r s (u8 3 ++ u8 0 ++ u16 0 ++ u32 0) b) ∧
      (∀ b n, a.offerVerdict h = (.failed n, b) → Answers (.chainOffer r) r s (u8 3 ++ u8 n ++ u16 0 ++ u32 0)
        (b.imageFailed (fld h 5 1) (fld h 8 4))) ∧
      (∀ b q, a.offerVerdict h = (.take q, b) → exec (.chainOffer r) s =
        .next (((((b.beginReceipt h q (some (reqMac r))).answered r stOk (u8 0 ++ u8 0 ++ u16 0 ++ u32 q.length)).respond r.src
          r.lane.toNat r.seq 0x98C0 1 stOk (u8 0 ++ u8 0 ++ u16 0 ++ u32 q.length)).fetch).settle))) ∧
    (Ready chainFetchCommand r s →
      let a := s.taken chainFetchCommand r
      let off := fld r.payload 4 4
      let n := fld r.payload 8 2
      ∀ i, a.held.find? (fun i => i.id == fld r.payload 0 4) = some i → 1 ≤ n → n ≤ 1024 → off + n ≤ i.payload.length →
        Answers (.chainFetch r) r s (u32 (fld r.payload 0 4) ++ u32 off ++ u16 n ++ u16 0 ++ slice i.payload off n) a) ∧
    (Ready (sdScanCommand []) r s →
      let a := s.taken (sdScanCommand []) r
      a.cardAllowed = true → a.up.card = none → a.fromCard = false → Answers (.sdScan r []) r s (u8 0 ++ u8 0 ++ u8 0 ++ u8 0) a) ∧
    (∀ files, Ready (sdScanCommand files) r s →
      let a := s.taken (sdScanCommand files) r
      let c := CardRead.start files (some (r.src.endpoint, r.lane.toNat))
      let x := a.cardRun c c.left
      let v := { x.2 with up.card := some x.1 }
      a.cardAllowed = true → a.up.card = none →
        (x.1.left = [] → x.2.fromCard = false → Leads (.sdScan r files) s (x.2.answered r x.1.answer.1 x.1.answer.2)) ∧
        ((x.1.left ≠ [] ∨ x.2.fromCard = true) → Leads (.sdScan r files) s
          (v.setLane r.src.endpoint r.lane.toNat { v.lane r.src.endpoint r.lane.toNat with phase := .begun }))) ∧
    (Ready imageListCommand r s →
      let a := s.taken imageListCommand r
      ∃ p, Answers (.imageList r) r s p a ∧ fld p 0 2 = a.imageStates.length % 65536) ∧
    (Ready updateStatusCommand r s →
      let a := s.taken updateStatusCommand r
      ∃ p, Answers (.updateStatus r) r s p a ∧ p.length = 24 ∧ fld p 9 1 = a.firmwareState ∧ fld p 8 1 = a.up.active % 256))

/-- A received image is accepted or fails, stalled receipts stop and expire, an arm is missed, a switch-over resets into its
trial and is confirmed or rolled back. In a running module: IMAGE_RECEIVED of a whole receipt whose digest is good accepts
the image, of a bad one drops it and counts it, and without one nothing changes. CHAIN_RECEIVE_TIMEOUT stops a receipt after
60 s without an answered fetch and keeps its bytes, PARTIAL_IMAGE_EXPIRY drops those 24 h old. ARM_MISSED misses a pending
arm whose instant has come. SWITCH_OVER at the instant turns the selector and resets with kind 6. TRIAL_TIMEOUT confirms the
trial when it is over, TRIAL_RUN_TIMEOUT rolls back one that did not reach RUN in 10 s. CARD_INSERT reads an allowed card,
CARD_REMOVE ends the read. (R535, R539, R542, R547, R550, R554, R596, 15_update) -/
def Obligations.UpdatesAreReceivedSwitchedAndTried : Prop :=
  (∀ (dt : Ns) (s : State), (s.begin dt).running = true →
    let a := s.begin dt
    (a.up.receipt = none → ∀ ok, Leads (.imageReceived dt ok) s a) ∧
    (∀ x, a.up.receipt = some x → x.from_ ≠ none → x.image.complete = true → ∀ ok,
      (decide (sha256 x.image.payload = x.image.digest) && (x.image.kind != 0 || ok)) = true →
        Leads (.imageReceived dt ok) s (a.acceptImage x.image).cardOn) ∧
    (∀ x, a.up.receipt = some x → x.from_ ≠ none → x.image.complete = true → ∀ ok,
      (decide (sha256 x.image.payload = x.image.digest) && (x.image.kind != 0 || ok)) = false →
        Leads (.imageReceived dt ok) s ({ a with up.receipt := none }.imageFailed x.image.kind x.image.id).cardOn) ∧
    (∀ x c, a.up.receipt = some x → x.from_ = none → a.up.card = some c → ∀ ok,
      (decide (sha256 x.image.payload = x.image.digest) && (x.image.kind != 0 || ok)) = true →
        Leads (.imageReceived dt ok) s
          ({ a.acceptImage x.image with up.card := some { c with accepted := c.accepted + 1, failed := c.failed } } : State).cardOn) ∧
    (∀ x, a.up.receipt = some x → x.from_ ≠ none → x.image.complete = false →
      (x.lastFetch + 60 * sec ≤ a.clk.mono → Leads (.chainReceiveTimeout dt) s
        { a with up.receipt := none, up.stopped := a.up.stopped ++ [{ x with stoppedAt := some a.clk.mono }] }.cardOn) ∧
      (a.clk.mono < x.lastFetch + 60 * sec → Leads (.chainReceiveTimeout dt) s a)) ∧
    (∃ t, exec (.partialImageExpiry dt) s = .next t ∧ t.up.receipt = a.up.receipt ∧
      ∀ x, x ∈ t.up.stopped ↔ x ∈ a.up.stopped ∧ ∀ at_, x.stoppedAt = some at_ → a.clk.mono < at_ + 86400 * sec) ∧
    (∀ kind x, tget a.up.arms kind = some x → x.pending = true →
      (x.instant ≤ a.tb → Leads (.armMissed dt kind) s (a.armMissed kind x)) ∧
      (a.tb < x.instant → Leads (.armMissed dt kind) s a)) ∧
    (∀ kind x, tget (a.armMissed kind x).up.arms kind = none) ∧
    (∀ at_, a.switchAt = some at_ →
      let b := if a.up.selectorTurned then a else { a with oc.due := true, up.selectorTurned := true }
      (at_ ≤ a.tb → Leads (.switchOver dt) s (b.enterReset 6)) ∧
      (a.tb < at_ → at_ ≤ a.tb + 50 * ms → Leads (.switchOver dt) s b) ∧
      (a.tb + 50 * ms < at_ → Leads (.switchOver dt) s a)) ∧
    (a.switchAt = none → Leads (.switchOver dt) s a) ∧
    (∀ t, a.up.trialSince = some t →
      (t + a.num 0x9806 * sec ≤ a.clk.mono → ∃ u, exec (.trialTimeout dt) s = .next u ∧ u.up.trialSince = none ∧
        a.num 0x9880 0 ≤ u.num 0x9880 0) ∧
      (a.clk.mono < t + a.num 0x9806 * sec → Leads (.trialTimeout dt) s a)) ∧
    (∀ files, (a.cardAllowed = true → Leads (.cardInsert dt files) s { a with up.card := some (CardRead.start files none) }.cardOn) ∧
      (a.cardAllowed = false → Leads (.cardInsert dt files) s (a.bump 0x98F4))) ∧
    (a.up.card = none → Leads (.cardRemove dt) s a) ∧
    (∀ c x, a.up.card = some c → c.waiter = none → a.up.receipt = some x → x.from_ = none →
      Leads (.cardRemove dt) s ({ a with up.card := none, up.receipt := none }.imageFailed x.image.kind x.image.id))) ∧
  (∀ (s : State) (i : Image), (s.acceptImage i).up.receipt = none ∧
    (i.kind ≠ 0 → { i with accepted := true } ∈ (s.acceptImage i).up.images)) ∧
  ∀ (dt : Ns) (s : State),
    let a := s.begin dt
    (a.powered = true → a.up.trialSince ≠ none → a.up.ranSince = false → a.up.startAt + 10 * sec ≤ a.clk.mono →
      Leads (.trialRunTimeout dt) s (a.rollBack 4) ∧ (a.rollBack 4).up.active = 1 - a.up.active ∧ (a.rollBack 4).up.trialSince = none) ∧
    (a.up.trialSince = none ∨ a.up.ranSince = true ∨ a.clk.mono < a.up.startAt + 10 * sec → Leads (.trialRunTimeout dt) s a)

/-! ## Group 0xA0: clock, power and reset -/

/-- Supplies, pins, POWER_HOLD and the watchdog move the power state, LAST-GASP ends in HOLD after 500 ms, the limits of
Table 17.6 fault. POWER_HOLD with its key answers OK and enters LAST-GASP, in LAST-GASP it is answered STATE.
LAST_GASP_ENTRY of an awake module below 4.40 V enters LAST-GASP, which stands in HOLD once 500 ms have passed. A brown-out
below 4.00 V leaves a powered module OFF with a reset of kind 1 pending or a lower one; the loss of the slow domain makes
the RTC invalid and the next start kind 0. VIN_RETURN and nRESET of a HOLD that may end give kind 7, nRESET of an awake
module kind 2, WATCHDOG kind 3. QUIET is entered and left as its conditions say. A supply beyond Table 17.6 faults (log
entry 5 names the supplies at reset). (R571, R572, R575, R576, R577, R578, R579, R581, R609, 16_clock_power_reset) -/
def Obligations.PowerStatesFollowTheSupplies : Prop :=
  (∀ (r : Req) (s : State),
    (Ready powerHoldCommand r s →
      let a := s.taken powerHoldCommand r
      (fld r.payload 0 2 = 0x484C → a.pwr.state ≠ .lastGasp → exec (.powerHold r) s =
        .next ((((a.answered r stOk []).respond r.src r.lane.toNat r.seq 0xA004 1 stOk []).enterLastGasp 4).settle)) ∧
      (fld r.payload 0 2 = 0x484C → a.pwr.state = .lastGasp → Leads (.powerHold r) s (a.answered r stState [])) ∧
      (fld r.payload 0 2 ≠ 0x484C → Leads (.powerHold r) s (a.answered r stRange []))) ∧
    (Ready powerStatusCommand r s →
      let a := s.taken powerStatusCommand r
      ∃ p, Answers (.powerStatus r) r s p a ∧ p.length = 24 ∧ fld p 0 1 = a.pwr.state.code ∧ fld p 4 2 = a.pwr.vinMv % 65536)) ∧
  (∀ (s : State) (cause : Nat), (s.enterLastGasp cause).pwr.state = .lastGasp ∧
    (s.enterLastGasp cause).pwr.lastGaspSince = s.clk.mono) ∧
  (∀ (s : State) (dt : Ns), (s.begin dt).clk.mono = s.clk.mono + dt ∧ (s.pwr.state = .lastGasp →
    ((s.begin dt).pwr.state = .hold ↔ s.pwr.lastGaspSince + 500 * ms ≤ s.clk.mono + dt))) ∧
  (∀ (s : State), s.powered = true → s.brownOut.pwr.state = .off ∧
    s.brownOut.pwr.pendingStart = some (match s.pwr.pendingStart with | some j => min j 1 | none => 1)) ∧
  (∀ (s : State), s.pwr.slowLost = false → s.loseSlow.pwr.slowLost = true ∧ s.loseSlow.rtc.valid = false ∧
    s.loseSlow.pwr.pendingStart = some 0 ∧ s.loseSlow.pwr.opSeconds = s.pwr.opCopy) ∧
  ∀ (dt : Ns) (s : State),
    let a := s.begin dt
    (∀ v, a.awake = true → 4000 ≤ v → v < 4400 →
      Leads (.lastGaspEntry dt v) s ({ a with pwr.vinMv := v }.enterLastGasp 3)) ∧
    (∀ v, a.awake = true → v < 4000 → Leads (.lastGaspEntry dt v) s { a with pwr.vinMv := v }.brownOut) ∧
    (∀ v, 4400 ≤ v ∨ a.awake = false → Leads (.lastGaspEntry dt v) s a) ∧
    (∀ v, v < 4000 → Leads (.brownOut dt v) s { a with pwr.vinMv := v }.brownOut) ∧
    (∀ v, 4000 ≤ v → Leads (.brownOut dt v) s a) ∧
    (∀ v b, b ≤ 4000 → v < 4000 → a.pwr.state ≠ .hold →
      let x := { a with pwr.vinMv := v, pwr.vbatMv := b }.brownOut
      Leads (.vinBelow4v dt v b) s (if b < 1800 then x.loseSlow else x)) ∧
    (∀ v b, b ≤ 4000 → v < 4000 → a.pwr.state = .hold →
      let x := { a with pwr.vinMv := v, pwr.vbatMv := b, pwr.vinLost := true }
      Leads (.vinBelow4v dt v b) s (if b < 1800 then x.loseSlow else x)) ∧
    (∀ v b, b ≤ 4000 → 4000 ≤ v → Leads (.vinBelow4v dt v b) s a) ∧
    (∀ v b, 4000 < b → exec (.vinBelow4v dt v b) s = .fault .absoluteMaximum) ∧
    (a.pwr.vinMv < 4000 → Leads (.slowDomainLost dt) s a.brownOut.loseSlow) ∧
    (4000 ≤ a.pwr.vinMv → Leads (.slowDomainLost dt) s a) ∧
    (∀ v, v ≤ 6500 →
      let x := { a with pwr.vinMv := v }
      (4550 ≤ v → a.pwr.state = .hold → (a.pwr.holdByCommand = false ∨ a.pwr.vinLost = true) →
        Leads (.vinReturn dt v) s (x.enterReset 7)) ∧
      (v < 4550 ∨ a.pwr.state ≠ .hold ∨ (a.pwr.holdByCommand = true ∧ a.pwr.vinLost = false) → Leads (.vinReturn dt v) s x)) ∧
    (∀ v, 6500 < v → exec (.vinReturn dt v) s = .fault .absoluteMaximum) ∧
    (∀ low, 10 * us ≤ low →
      (a.awake = true → Leads (.nreset dt low) s (a.enterReset 2)) ∧
      (a.pwr.state = .hold → a.pwr.holdByCommand = true → Leads (.nreset dt low) s (a.enterReset 7)) ∧
      (a.pwr.state = .lastGasp → Leads (.nreset dt low) s a)) ∧
    (∀ low, low < 10 * us → Leads (.nreset dt low) s a) ∧
    (a.powered = true → a.up.trialSince = none → Leads (.watchdog dt) s (a.fatalRecord.enterReset 3)) ∧
    (a.powered = true → a.up.trialSince ≠ none → 1 ≤ a.up.trialWatchdogs → Leads (.watchdog dt) s (a.fatalRecord.rollBack 3)) ∧
    (a.powered = true → a.up.trialSince ≠ none → a.up.trialWatchdogs = 0 →
      Leads (.watchdog dt) s ({ a.fatalRecord with up.trialWatchdogs := 1 }.enterReset 3)) ∧
    (a.powered = false → Leads (.watchdog dt) s a) ∧
    (a.running = true → a.pwr.state = .run → a.quietDue = true →
      Leads (.quietEntry dt) s ({ a with pwr.state := .quiet }.bump 0xA0F2)) ∧
    (a.running = true → a.pwr.state = .quiet → a.quietDue = false → Leads (.quietExit dt) s { a with pwr.state := .run }) ∧
    (a.running = true → a.quietDue = true → Leads (.quietExit dt) s a)

/-- When two causes of a reset coincide the start takes the lowest code among them. A reset that begins while another is
pending leaves the lower of the two kinds pending, and one that begins alone its own; so a brown-out (kind 1) during a
switch-over (kind 6) is a brown-out. START with good supplies of firmware that runs takes the pending kind, or kind 0 after
a loss of the slow domain, as the last reset, with nothing pending, no session and no binding; without a pending start or
good supplies it changes nothing; firmware that does not run leaves the start pending. (R582) -/
def Obligations.TwoCausesTakeTheLowestCode : Prop :=
  (∀ (s : State) (k : Nat),
    (s.pwr.pendingStart = none → (s.enterReset k).pwr.pendingStart = some k) ∧
    (∀ j, s.pwr.pendingStart = some j → (s.enterReset k).pwr.pendingStart = some (min j k)) ∧
    (s.pwr.pendingStart = none → ((s.enterReset 6).enterReset 1).pwr.pendingStart = some 1 ∧
      ((s.enterReset 1).enterReset 6).pwr.pendingStart = some 1)) ∧
  ∀ (dt : Ns) (found : StartReport) (s : State),
    let a := s.begin dt
    (∀ p, a.pwr.pendingStart = some p → 4550 ≤ a.pwr.vinMv → found.runs = true →
      let k := if a.pwr.slowLost then 0 else p
      Leads (.start dt found) s ((a.bootFirmware found).starts k found) ∧
      ∃ t, exec (.start dt found) s = .next t ∧ t.pwr.lastReset = k ∧ t.pwr.pendingStart = none ∧
        (a.pwr.state ≠ .lastGasp → t.pwr.state = .run) ∧ t.link.sessions = [] ∧ t.link.bound = false) ∧
    (∀ p, a.pwr.pendingStart = some p → 4550 ≤ a.pwr.vinMv → found.runs = false →
      let b := a.bootFirmware found
      Leads (.start dt found) s { b with pwr.state := if b.pwr.state = .lastGasp then Power.lastGasp else Power.run
                                         up.startAt := b.clk.mono, up.ranSince := false }) ∧
    (a.pwr.pendingStart = none ∨ a.pwr.vinMv < 4550 → Leads (.start dt found) s a)

/-- The RTC ticks, is set at an edge, disciplined and corrected; seconds are counted, wakes fall, pins and supplies are
sampled. RTC_GET answers the reading and changes nothing; RTC_SET of a valid value from 2020 on waits while network time is
not valid, is answered STATE while it is and RANGE otherwise. RTC_SECOND loads a set whose second slow edge has come, else a
discipline load, else advances by one second and the weekday at midnight. RTC_DISCIPLINE compares every 1,024 s.
RTC_TEMP_CORRECTION takes the curve with the trim. OPERATING_SECOND counts one second. PERIODIC_WAKE ends a HOLD by command
or is counted. VBAT_SAMPLE, DOOR_CHANGE, PHOTO_CHANGE and VPA_CHANGE keep what they sample. (R565, R566, R567, R568, R570,
R572, R574, R584, R595, R612, 16_clock_power_reset) -/
def Obligations.TheClockRunsIsSetAndDisciplined : Prop :=
  (∀ (r : Req) (s : State),
    (Ready rtcGetCommand r s →
      Answers (.rtcGet r) r s (s.taken rtcGetCommand r).rtcReading (s.taken rtcGetCommand r)) ∧
    (Ready rtcSetCommand r s →
      let a := s.taken rtcSetCommand r
      (∀ v, rtcParse (r.payload.take 7) = some v → rtcEpoch ≤ (v.1 : Int) →
        (a.timeValid = false →
          let earlier := match a.rtc.set with | some x => x.waiters | none => []
          let x : RtcSetReq := { value := r.payload.take 7, at_ := a.secondEdge, class_ := classCode r.src
                                 waiters := earlier ++ [(r.src.endpoint, r.lane.toNat)] }
          let v := { a with rtc.set := some x }
          Leads (.rtcSet r) s
            (v.setLane r.src.endpoint r.lane.toNat { v.lane r.src.endpoint r.lane.toNat with phase := .begun })) ∧
        (a.timeValid = true → Leads (.rtcSet r) s (a.answered r stState []))) ∧
      (rtcParse (r.payload.take 7) = none → Leads (.rtcSet r) s (a.answered r stRange [])))) ∧
  (∀ (dt : Ns) (s : State),
    let a := s.begin dt
    (a.pwr.slowLost = false → a.rtc.secondAt + sec - ms ≤ a.clk.mono →
      (∀ x, a.rtc.set = some x → x.at_ ≤ a.clk.mono → Leads (.rtcSecond dt) s (a.rtcLoad x)) ∧
      (∀ x, a.rtc.set = some x → a.clk.mono < x.at_ → Leads (.rtcSecond dt) s a.rtcTick) ∧
      (a.rtc.set = none → a.rtc.load = true → a.timeValid = true → Leads (.rtcSecond dt) s a.rtcDisciplined) ∧
      (a.rtc.set = none → a.rtc.load = false ∨ a.timeValid = false → Leads (.rtcSecond dt) s a.rtcTick)) ∧
    (a.pwr.slowLost = true → Leads (.rtcSecond dt) s a) ∧
    (∀ celsius, a.pwr.slowLost = false → Leads (.rtcTempCorrection dt celsius) s
      { a with rtc.celsius := celsius, rtc.correction := curveAt (a.slowValue 0xA010).bytes celsius + a.int 0xA011 }) ∧
    (a.powered = true → a.pwr.opSecondAt + sec ≤ a.clk.mono → ∃ t, exec (.operatingSecond dt) s = .next t ∧
      t.pwr.opSeconds = (a.pwr.opSeconds + 1) % pow32 ∧ t.pwr.opSecondAt = a.pwr.opSecondAt + sec ∧
      (t.pwr.opSeconds % 60 = 0 → t.pwr.opCopy = t.pwr.opSeconds)) ∧
    (a.powered = false ∨ a.clk.mono < a.pwr.opSecondAt + sec → Leads (.operatingSecond dt) s a) ∧
    (a.wakeDue = false → Leads (.periodicWake dt) s a) ∧
    (a.wakeDue = true → a.awake = true → Leads (.periodicWake dt) s ({ a with pwr.wokeAt := a.rtcNs }.bump 0xA0F1)) ∧
    (a.wakeDue = true → a.pwr.state = .hold → a.pwr.holdByCommand = true → (a.slowValue 0xA013).int ≠ 0 → 4550 ≤ a.pwr.vinMv →
      Leads (.periodicWake dt) s ({ a with pwr.wokeAt := a.rtcNs }.enterReset 7)) ∧
    (∀ v, v ≤ 6500 → Leads (.vpaChange dt v) s { a with pwr.vpaMv := v }) ∧
    (∀ v, 6500 < v → exec (.vpaChange dt v) s = .fault .absoluteMaximum) ∧
    (∀ v, 4000 < v → exec (.vbatSample dt v) s = .fault .absoluteMaximum)) ∧
  (∀ (s : State), s.rtc.seconds + 1 ≠ rtcWrap →
    s.rtcTick.rtc.seconds = s.rtc.seconds + 1 ∧ s.rtcTick.rtc.secondAt = s.clk.mono ∧
    ((s.rtc.seconds + 1) % 86400 = 0 → s.rtcTick.rtc.weekday = (s.rtc.weekday + 1) % 7) ∧
    ((s.rtc.seconds + 1) % 86400 ≠ 0 → s.rtcTick.rtc.weekday = s.rtc.weekday)) ∧
  ∀ (dt : Ns) (s : State), (s.begin dt).running = true →
    let a := s.begin dt
    (a.timeValid = true → a.rtc.valid = true → a.rtc.load = false → a.rtc.lastCompare + 1024 * sec ≤ a.clk.mono →
      (100 * ms ≤ (a.rtcUtc - a.utcNs).natAbs → Leads (.rtcDiscipline dt) s { a with rtc.load := true }) ∧
      ((a.rtcUtc - a.utcNs).natAbs < 100 * ms → ∃ t, exec (.rtcDiscipline dt) s = .next t ∧
        t.rtc.lastCompare = a.clk.mono ∧ t.rtc.lastError = a.rtcUtc - a.utcNs)) ∧
    (a.clk.mono < a.rtc.lastCompare + 1024 * sec → Leads (.rtcDiscipline dt) s a) ∧
    (∀ v, v ≤ 4000 → Leads (.vbatSample dt v) s { a with pwr.vbatMv := v, pwr.vbatShown := v }) ∧
    (∀ isOpen, Leads (.doorChange dt isOpen) s { a with io.doorOpen := isOpen }) ∧
    (∀ dark, Leads (.photoChange dt dark) s (if a.plan.photo.dark = dark then { a with io.photoDark := dark }
      else { a with io.photoDark := dark, plan.photo.dark := dark, plan.photo.since := a.clk.mono }))

/-! ## The whole machine -/

/-- The module as shipped is unbound, BLANK, FREE and empty, its life cycle is legal, and an empty queue leaves it as it is.
At reset no claim is bound and the floor is 0, no session is open, nothing is staged, the life cycle is BLANK and every key
slot empty, the time state is FREE and the RTC not valid, no override, track, node, image, cursor or arm stands, the
firmware of slot 0 runs, and no command waits. That the module is in RUN with every register so is the model's choice (log
entry 2). A step with no command waiting leaves any state as it is (log entry 14). (R73, R135, R439, R527, R539, 14_keys,
15_update) -/
def Obligations.ResetLeavesTheModuleAsShipped : Prop :=
  State.reset.link.bound = false ∧ State.reset.link.floor = 0#64 ∧ State.reset.link.sessions = [] ∧
  State.reset.link.staged = [] ∧ State.reset.ks.lifecycle = 0 ∧ (∀ i, (State.reset.slot i).rec_.type = 0) ∧
  State.reset.ptp.state = .free ∧ State.reset.rtc.valid = false ∧ State.reset.plan.overrides = [] ∧
  State.reset.prom.tracks = [] ∧ State.reset.mesh.nodes = [] ∧ State.reset.up.images = [] ∧ State.reset.hs.cursors = [] ∧
  State.reset.up.arms = [] ∧ State.reset.up.active = 0 ∧ State.reset.pwr.state = .run ∧ State.reset.pending = [] ∧
  lifecycleLegal State.reset.ks.lifecycle ∧ ∀ s : State, s.pending = [] → step s = .next s

/-- Every step keeps the life cycle or moves it as Table 14.5 allows, and a RETIRED module stays RETIRED. For every state,
whichever command is at the front of the queue: where the step answers a next state, the life cycle is as it was, or has
moved from BLANK to PROVISIONED, between PROVISIONED and IN_SERVICE, or from one of these to RETIRED. So a legal life cycle
stays legal, and RETIRED is never left. (R527, R528, 14_keys) -/
def Obligations.LifeCycleMovesOnlyAsItsTableSays : Prop :=
  ∀ s t : State, step s = .next t →
    lifecycleMoves s.ks.lifecycle t.ks.lifecycle ∧ (lifecycleLegal s.ks.lifecycle → lifecycleLegal t.ks.lifecycle) ∧
    (s.ks.lifecycle = 3 → t.ks.lifecycle = 3)

/-- No command changes what manufacture fixed, nor the commands that wait. For every command and every state: where the
command answers a next state, the order code, serial number, MAC address and factory curve are as they were, and the queue
of waiting commands is as it was; a step takes exactly the command at its front. (00_scope, 95_what_each_step_holds) -/
def Obligations.CommandsLeaveIdentityAndQueue : Prop :=
  (∀ (i : Instr) (s t : State), exec i s = .next t → t.id = s.id ∧ t.pending = s.pending) ∧
  ∀ (s t : State) (i : Instr) (rest : List Instr), s.pending = i :: rest → step s = .next t → t.pending = rest ∧ t.id = s.id
end

