-- ==== Sys2Proof/Laws/Table.lean ====
section
/-!
SUPPORT. The laws of keyed tables and fixed lists: a read after a write, what a write leaves alone, that the one written form
(strictly rising keys) is kept, and lengths.
-/

namespace Sys2Proof.Machine

variable {α : Type}

@[simp] theorem tget_nil (k : Nat) : tget ([] : Table α) k = none := rfl

theorem tget_tput_same (t : Table α) (k : Nat) (v : α) : tget (tput t k v) k = some v := by
  induction t with
  | nil => simp [tput, tget]
  | cons e t ih =>
    obtain ⟨j, w⟩ := e
    simp only [tput]
    split
    · simp [tget]
    · split
      · simp [tget]
      · simp only [tget]
        rw [if_neg (by omega), ih]

theorem tget_tput_other (t : Table α) {k k' : Nat} (v : α) (h : k' ≠ k) : tget (tput t k v) k' = tget t k' := by
  induction t with
  | nil => simp [tput, tget, Ne.symm h]
  | cons e t ih =>
    obtain ⟨j, w⟩ := e
    simp only [tput]
    split
    · simp [tget, Ne.symm h]
    · split
      · next hk => subst hk; simp [tget, Ne.symm h]
      · simp only [tget, ih]

theorem tget_tdel_same (t : Table α) (k : Nat) : tget (tdel t k) k = none := by
  induction t with
  | nil => rfl
  | cons e t ih =>
    obtain ⟨j, w⟩ := e
    by_cases h : j = k
    · simpa [tdel, h] using ih
    · simpa [tdel, h, tget] using ih

theorem tget_tdel_other (t : Table α) {k k' : Nat} (h : k' ≠ k) : tget (tdel t k) k' = tget t k' := by
  induction t with
  | nil => rfl
  | cons e t ih =>
    obtain ⟨j, w⟩ := e
    by_cases hj : j = k
    · subst hj
      simpa [tdel, tget, Ne.symm h] using ih
    · by_cases hk : j = k'
      · subst hk; simp [tdel, hj, tget]
      · simpa [tdel, hj, tget, hk] using ih

/-- Erasing a key forgets what was last written under it. -/
theorem tdel_tput_same (t : Table α) (k : Nat) (v : α) : tdel (tput t k v) k = tdel t k := by
  induction t with
  | nil => simp [tput, tdel]
  | cons e t ih =>
    obtain ⟨j, w⟩ := e
    simp only [tput]
    split
    · simp [tdel]
    · split
      · next h => subst h; simp [tdel]
      · simp only [tdel, List.filter_cons] at ih ⊢
        rw [ih]

theorem tdel_comm (t : Table α) (j k : Nat) : tdel (tdel t j) k = tdel (tdel t k) j := by
  simp only [tdel, List.filter_filter]
  congr 1
  funext e
  exact Bool.and_comm _ _

theorem tdel_tdel_same (t : Table α) (k : Nat) : tdel (tdel t k) k = tdel t k := by
  simp [tdel, List.filter_filter]

theorem tdel_cput_same (t : Table Nat) (k v : Nat) : tdel (cput t k v) k = tdel t k := by
  unfold cput
  split
  · exact tdel_tdel_same t k
  · exact tdel_tput_same t k v

theorem cget_cput_same (t : Table Nat) (k v : Nat) : cget (cput t k v) k = v := by
  unfold cget cput
  split
  · next h => simp [tget_tdel_same, h]
  · simp [tget_tput_same]

theorem cget_cput_other (t : Table Nat) {k k' : Nat} (v : Nat) (h : k' ≠ k) : cget (cput t k v) k' = cget t k' := by
  unfold cget cput
  split
  · rw [tget_tdel_other t h]
  · rw [tget_tput_other t v h]

/-! ## The one written form -/

/-- Strictly rising keys, said pair by pair. -/
theorem twf_iff (t : Table α) : twf t = true ↔ t.Pairwise (fun a b => a.1 < b.1) := by
  induction t with
  | nil => simp [twf]
  | cons a t ih =>
    cases t with
    | nil => simp [twf]
    | cons b t =>
      simp only [twf, Bool.and_eq_true, decide_eq_true_eq, ih, List.pairwise_cons, List.mem_cons, forall_eq_or_imp]
      constructor
      · rintro ⟨hab, hb, ht⟩
        exact ⟨⟨hab, fun e he => Nat.lt_trans hab (hb e he)⟩, hb, ht⟩
      · rintro ⟨⟨hab, -⟩, hb, ht⟩
        exact ⟨hab, hb, ht⟩

theorem mem_tput {t : Table α} {k : Nat} {v : α} {e : Nat × α} (h : e ∈ tput t k v) : e = (k, v) ∨ e ∈ t := by
  induction t with
  | nil => simpa [tput] using h
  | cons a t ih =>
    obtain ⟨j, w⟩ := a
    simp only [tput] at h
    split at h
    · simpa using h
    · split at h
      · rcases List.mem_cons.mp h with h | h
        · exact .inl h
        · exact .inr (List.mem_cons_of_mem _ h)
      · rcases List.mem_cons.mp h with h | h
        · exact .inr (by simp [h])
        · rcases ih h with h | h
          · exact .inl h
          · exact .inr (List.mem_cons_of_mem _ h)

theorem twf_tput {t : Table α} (k : Nat) (v : α) (h : twf t = true) : twf (tput t k v) = true := by
  rw [twf_iff] at h ⊢
  induction t with
  | nil => simp [tput]
  | cons a t ih =>
    obtain ⟨j, w⟩ := a
    obtain ⟨ha, ht⟩ := List.pairwise_cons.mp h
    simp only [tput]
    split
    · next hk =>
      refine List.pairwise_cons.mpr ⟨fun e he => ?_, h⟩
      rcases List.mem_cons.mp he with he | he
      · simpa [he] using hk
      · exact Nat.lt_trans hk (ha e he)
    · split
      · next hk => exact List.pairwise_cons.mpr ⟨fun e he => hk ▸ ha e he, ht⟩
      · refine List.pairwise_cons.mpr ⟨fun e he => ?_, ih ht⟩
        rcases mem_tput he with he | he
        · rw [he]; show j < k; omega
        · exact ha e he

theorem twf_filter {t : Table α} (p : Nat × α → Bool) (h : twf t = true) : twf (t.filter p) = true := by
  rw [twf_iff] at h ⊢
  exact h.filter p

theorem twf_tdel {t : Table α} (k : Nat) (h : twf t = true) : twf (tdel t k) = true := twf_filter _ h

theorem twf_tkeep {t : Table α} (p : Nat → α → Bool) (h : twf t = true) : twf (tkeep t p) = true := twf_filter _ h

theorem twf_cput {t : Table Nat} (k v : Nat) (h : twf t = true) : twf (cput t k v) = true := by
  unfold cput
  split
  · exact twf_tdel k h
  · exact twf_tput k v h

theorem twf_tmap {t : Table α} (k : Nat) (f : α → α) (h : twf t = true) : twf (tmap t k f) = true := by
  rw [twf_iff] at h ⊢
  unfold tmap
  rw [List.pairwise_map]
  refine h.imp fun {a b} hab => ?_
  split <;> split <;> exact hab

/-! ## Fixed lists -/

@[simp] theorem lmod_length (l : List α) (i : Nat) (f : α → α) : (lmod l i f).length = l.length := by
  induction l generalizing i with
  | nil => rfl
  | cons a l ih => cases i <;> simp [lmod, ih]

@[simp] theorem lset_length (l : List α) (i : Nat) (v : α) : (lset l i v).length = l.length := lmod_length l i _

theorem lset_get (l : List α) {i : Nat} (v : α) (h : i < l.length) : (lset l i v)[i]? = some v := by
  induction l generalizing i with
  | nil => simp at h
  | cons a l ih =>
    cases i with
    | zero => simp [lset, lmod]
    | succ i => simpa [lset, lmod] using ih (by simpa using h)

theorem lset_get_other (l : List α) {i j : Nat} (v : α) (h : j ≠ i) : (lset l i v)[j]? = l[j]? := by
  induction l generalizing i j with
  | nil => simp [lset, lmod]
  | cons a l ih =>
    cases i with
    | zero => cases j with
      | zero => exact absurd rfl h
      | succ j => simp [lset, lmod]
    | succ i => cases j with
      | zero => simp [lset, lmod]
      | succ j => simpa [lset, lmod] using ih (i := i) (j := j) (by omega)

end Sys2Proof.Machine
end

