-- ==== Sys2Proof/Laws/State.lean ====
section
/-!
SUPPORT. What each primitive update of the state leaves alone: one lemma per field, all true by unfolding the record update, so
that no later proof unfolds it again.
-/

namespace Sys2Proof.Machine

variable (s : State)

@[simp] theorem State.setCounter_id (id idx v : Nat) : (s.setCounter id idx v).id = s.id := rfl
@[simp] theorem State.setCounter_clk (id idx v : Nat) : (s.setCounter id idx v).clk = s.clk := rfl
@[simp] theorem State.setCounter_link (id idx v : Nat) : (s.setCounter id idx v).link = s.link := rfl
@[simp] theorem State.setCounter_hl (id idx v : Nat) : (s.setCounter id idx v).hl = s.hl := rfl
@[simp] theorem State.setCounter_health (id idx v : Nat) : (s.setCounter id idx v).health = s.health := rfl
@[simp] theorem State.setCounter_plan (id idx v : Nat) : (s.setCounter id idx v).plan = s.plan := rfl
@[simp] theorem State.setCounter_prom (id idx v : Nat) : (s.setCounter id idx v).prom = s.prom := rfl
@[simp] theorem State.setCounter_fe (id idx v : Nat) : (s.setCounter id idx v).fe = s.fe := rfl
@[simp] theorem State.setCounter_qm (id idx v : Nat) : (s.setCounter id idx v).qm = s.qm := rfl
@[simp] theorem State.setCounter_bs (id idx v : Nat) : (s.setCounter id idx v).bs = s.bs := rfl
@[simp] theorem State.setCounter_mesh (id idx v : Nat) : (s.setCounter id idx v).mesh = s.mesh := rfl
@[simp] theorem State.setCounter_mt (id idx v : Nat) : (s.setCounter id idx v).mt = s.mt := rfl
@[simp] theorem State.setCounter_oc (id idx v : Nat) : (s.setCounter id idx v).oc = s.oc := rfl
@[simp] theorem State.setCounter_ring (id idx v : Nat) : (s.setCounter id idx v).ring = s.ring := rfl
@[simp] theorem State.setCounter_ptp (id idx v : Nat) : (s.setCounter id idx v).ptp = s.ptp := rfl
@[simp] theorem State.setCounter_hs (id idx v : Nat) : (s.setCounter id idx v).hs = s.hs := rfl
@[simp] theorem State.setCounter_ev (id idx v : Nat) : (s.setCounter id idx v).ev = s.ev := rfl
@[simp] theorem State.setCounter_perf (id idx v : Nat) : (s.setCounter id idx v).perf = s.perf := rfl
@[simp] theorem State.setCounter_ks (id idx v : Nat) : (s.setCounter id idx v).ks = s.ks := rfl
@[simp] theorem State.setCounter_up (id idx v : Nat) : (s.setCounter id idx v).up = s.up := rfl
@[simp] theorem State.setCounter_pwr (id idx v : Nat) : (s.setCounter id idx v).pwr = s.pwr := rfl
@[simp] theorem State.setCounter_rtc (id idx v : Nat) : (s.setCounter id idx v).rtc = s.rtc := rfl
@[simp] theorem State.setCounter_io (id idx v : Nat) : (s.setCounter id idx v).io = s.io := rfl
@[simp] theorem State.setCounter_out (id idx v : Nat) : (s.setCounter id idx v).out = s.out := rfl
@[simp] theorem State.setCounter_free (id idx v : Nat) : (s.setCounter id idx v).free = s.free := rfl
@[simp] theorem State.setCounter_pending (id idx v : Nat) : (s.setCounter id idx v).pending = s.pending := rfl

@[simp] theorem State.setQueue_id (q : Nat) (x : Queue) : (s.setQueue q x).id = s.id := rfl
@[simp] theorem State.setQueue_clk (q : Nat) (x : Queue) : (s.setQueue q x).clk = s.clk := rfl
@[simp] theorem State.setQueue_link (q : Nat) (x : Queue) : (s.setQueue q x).link = s.link := rfl
@[simp] theorem State.setQueue_par (q : Nat) (x : Queue) : (s.setQueue q x).par = s.par := rfl
@[simp] theorem State.setQueue_hl (q : Nat) (x : Queue) : (s.setQueue q x).hl = s.hl := rfl
@[simp] theorem State.setQueue_health (q : Nat) (x : Queue) : (s.setQueue q x).health = s.health := rfl
@[simp] theorem State.setQueue_plan (q : Nat) (x : Queue) : (s.setQueue q x).plan = s.plan := rfl
@[simp] theorem State.setQueue_prom (q : Nat) (x : Queue) : (s.setQueue q x).prom = s.prom := rfl
@[simp] theorem State.setQueue_fe (q : Nat) (x : Queue) : (s.setQueue q x).fe = s.fe := rfl
@[simp] theorem State.setQueue_bs (q : Nat) (x : Queue) : (s.setQueue q x).bs = s.bs := rfl
@[simp] theorem State.setQueue_mesh (q : Nat) (x : Queue) : (s.setQueue q x).mesh = s.mesh := rfl
@[simp] theorem State.setQueue_mt (q : Nat) (x : Queue) : (s.setQueue q x).mt = s.mt := rfl
@[simp] theorem State.setQueue_oc (q : Nat) (x : Queue) : (s.setQueue q x).oc = s.oc := rfl
@[simp] theorem State.setQueue_ring (q : Nat) (x : Queue) : (s.setQueue q x).ring = s.ring := rfl
@[simp] theorem State.setQueue_ptp (q : Nat) (x : Queue) : (s.setQueue q x).ptp = s.ptp := rfl
@[simp] theorem State.setQueue_hs (q : Nat) (x : Queue) : (s.setQueue q x).hs = s.hs := rfl
@[simp] theorem State.setQueue_ev (q : Nat) (x : Queue) : (s.setQueue q x).ev = s.ev := rfl
@[simp] theorem State.setQueue_perf (q : Nat) (x : Queue) : (s.setQueue q x).perf = s.perf := rfl
@[simp] theorem State.setQueue_ks (q : Nat) (x : Queue) : (s.setQueue q x).ks = s.ks := rfl
@[simp] theorem State.setQueue_up (q : Nat) (x : Queue) : (s.setQueue q x).up = s.up := rfl
@[simp] theorem State.setQueue_pwr (q : Nat) (x : Queue) : (s.setQueue q x).pwr = s.pwr := rfl
@[simp] theorem State.setQueue_rtc (q : Nat) (x : Queue) : (s.setQueue q x).rtc = s.rtc := rfl
@[simp] theorem State.setQueue_io (q : Nat) (x : Queue) : (s.setQueue q x).io = s.io := rfl
@[simp] theorem State.setQueue_out (q : Nat) (x : Queue) : (s.setQueue q x).out = s.out := rfl
@[simp] theorem State.setQueue_free (q : Nat) (x : Queue) : (s.setQueue q x).free = s.free := rfl
@[simp] theorem State.setQueue_pending (q : Nat) (x : Queue) : (s.setQueue q x).pending = s.pending := rfl

@[simp] theorem State.onSession_id (ep : Endpoint) (f : Session → Session) : (s.onSession ep f).id = s.id := rfl
@[simp] theorem State.onSession_clk (ep : Endpoint) (f : Session → Session) : (s.onSession ep f).clk = s.clk := rfl
@[simp] theorem State.onSession_par (ep : Endpoint) (f : Session → Session) : (s.onSession ep f).par = s.par := rfl
@[simp] theorem State.onSession_hl (ep : Endpoint) (f : Session → Session) : (s.onSession ep f).hl = s.hl := rfl
@[simp] theorem State.onSession_health (ep : Endpoint) (f : Session → Session) : (s.onSession ep f).health = s.health := rfl
@[simp] theorem State.onSession_plan (ep : Endpoint) (f : Session → Session) : (s.onSession ep f).plan = s.plan := rfl
@[simp] theorem State.onSession_prom (ep : Endpoint) (f : Session → Session) : (s.onSession ep f).prom = s.prom := rfl
@[simp] theorem State.onSession_fe (ep : Endpoint) (f : Session → Session) : (s.onSession ep f).fe = s.fe := rfl
@[simp] theorem State.onSession_qm (ep : Endpoint) (f : Session → Session) : (s.onSession ep f).qm = s.qm := rfl
@[simp] theorem State.onSession_bs (ep : Endpoint) (f : Session → Session) : (s.onSession ep f).bs = s.bs := rfl
@[simp] theorem State.onSession_mesh (ep : Endpoint) (f : Session → Session) : (s.onSession ep f).mesh = s.mesh := rfl
@[simp] theorem State.onSession_mt (ep : Endpoint) (f : Session → Session) : (s.onSession ep f).mt = s.mt := rfl
@[simp] theorem State.onSession_oc (ep : Endpoint) (f : Session → Session) : (s.onSession ep f).oc = s.oc := rfl
@[simp] theorem State.onSession_ring (ep : Endpoint) (f : Session → Session) : (s.onSession ep f).ring = s.ring := rfl
@[simp] theorem State.onSession_ptp (ep : Endpoint) (f : Session → Session) : (s.onSession ep f).ptp = s.ptp := rfl
@[simp] theorem State.onSession_hs (ep : Endpoint) (f : Session → Session) : (s.onSession ep f).hs = s.hs := rfl
@[simp] theorem State.onSession_ev (ep : Endpoint) (f : Session → Session) : (s.onSession ep f).ev = s.ev := rfl
@[simp] theorem State.onSession_perf (ep : Endpoint) (f : Session → Session) : (s.onSession ep f).perf = s.perf := rfl
@[simp] theorem State.onSession_ks (ep : Endpoint) (f : Session → Session) : (s.onSession ep f).ks = s.ks := rfl
@[simp] theorem State.onSession_up (ep : Endpoint) (f : Session → Session) : (s.onSession ep f).up = s.up := rfl
@[simp] theorem State.onSession_pwr (ep : Endpoint) (f : Session → Session) : (s.onSession ep f).pwr = s.pwr := rfl
@[simp] theorem State.onSession_rtc (ep : Endpoint) (f : Session → Session) : (s.onSession ep f).rtc = s.rtc := rfl
@[simp] theorem State.onSession_io (ep : Endpoint) (f : Session → Session) : (s.onSession ep f).io = s.io := rfl
@[simp] theorem State.onSession_out (ep : Endpoint) (f : Session → Session) : (s.onSession ep f).out = s.out := rfl
@[simp] theorem State.onSession_free (ep : Endpoint) (f : Session → Session) : (s.onSession ep f).free = s.free := rfl
@[simp] theorem State.onSession_pending (ep : Endpoint) (f : Session → Session) : (s.onSession ep f).pending = s.pending := rfl

@[simp] theorem State.setLane_id (ep : Endpoint) (n : Nat) (l : Lane) : (s.setLane ep n l).id = s.id := rfl
@[simp] theorem State.setLane_clk (ep : Endpoint) (n : Nat) (l : Lane) : (s.setLane ep n l).clk = s.clk := rfl
@[simp] theorem State.setLane_par (ep : Endpoint) (n : Nat) (l : Lane) : (s.setLane ep n l).par = s.par := rfl
@[simp] theorem State.setLane_hl (ep : Endpoint) (n : Nat) (l : Lane) : (s.setLane ep n l).hl = s.hl := rfl
@[simp] theorem State.setLane_health (ep : Endpoint) (n : Nat) (l : Lane) : (s.setLane ep n l).health = s.health := rfl
@[simp] theorem State.setLane_plan (ep : Endpoint) (n : Nat) (l : Lane) : (s.setLane ep n l).plan = s.plan := rfl
@[simp] theorem State.setLane_prom (ep : Endpoint) (n : Nat) (l : Lane) : (s.setLane ep n l).prom = s.prom := rfl
@[simp] theorem State.setLane_fe (ep : Endpoint) (n : Nat) (l : Lane) : (s.setLane ep n l).fe = s.fe := rfl
@[simp] theorem State.setLane_qm (ep : Endpoint) (n : Nat) (l : Lane) : (s.setLane ep n l).qm = s.qm := rfl
@[simp] theorem State.setLane_bs (ep : Endpoint) (n : Nat) (l : Lane) : (s.setLane ep n l).bs = s.bs := rfl
@[simp] theorem State.setLane_mesh (ep : Endpoint) (n : Nat) (l : Lane) : (s.setLane ep n l).mesh = s.mesh := rfl
@[simp] theorem State.setLane_mt (ep : Endpoint) (n : Nat) (l : Lane) : (s.setLane ep n l).mt = s.mt := rfl
@[simp] theorem State.setLane_oc (ep : Endpoint) (n : Nat) (l : Lane) : (s.setLane ep n l).oc = s.oc := rfl
@[simp] theorem State.setLane_ring (ep : Endpoint) (n : Nat) (l : Lane) : (s.setLane ep n l).ring = s.ring := rfl
@[simp] theorem State.setLane_ptp (ep : Endpoint) (n : Nat) (l : Lane) : (s.setLane ep n l).ptp = s.ptp := rfl
@[simp] theorem State.setLane_hs (ep : Endpoint) (n : Nat) (l : Lane) : (s.setLane ep n l).hs = s.hs := rfl
@[simp] theorem State.setLane_ev (ep : Endpoint) (n : Nat) (l : Lane) : (s.setLane ep n l).ev = s.ev := rfl
@[simp] theorem State.setLane_perf (ep : Endpoint) (n : Nat) (l : Lane) : (s.setLane ep n l).perf = s.perf := rfl
@[simp] theorem State.setLane_ks (ep : Endpoint) (n : Nat) (l : Lane) : (s.setLane ep n l).ks = s.ks := rfl
@[simp] theorem State.setLane_up (ep : Endpoint) (n : Nat) (l : Lane) : (s.setLane ep n l).up = s.up := rfl
@[simp] theorem State.setLane_pwr (ep : Endpoint) (n : Nat) (l : Lane) : (s.setLane ep n l).pwr = s.pwr := rfl
@[simp] theorem State.setLane_rtc (ep : Endpoint) (n : Nat) (l : Lane) : (s.setLane ep n l).rtc = s.rtc := rfl
@[simp] theorem State.setLane_io (ep : Endpoint) (n : Nat) (l : Lane) : (s.setLane ep n l).io = s.io := rfl
@[simp] theorem State.setLane_out (ep : Endpoint) (n : Nat) (l : Lane) : (s.setLane ep n l).out = s.out := rfl
@[simp] theorem State.setLane_free (ep : Endpoint) (n : Nat) (l : Lane) : (s.setLane ep n l).free = s.free := rfl
@[simp] theorem State.setLane_pending (ep : Endpoint) (n : Nat) (l : Lane) : (s.setLane ep n l).pending = s.pending := rfl

@[simp] theorem State.supersede_id : (s.supersede).id = s.id := rfl
@[simp] theorem State.supersede_clk : (s.supersede).clk = s.clk := rfl
@[simp] theorem State.supersede_par : (s.supersede).par = s.par := rfl
@[simp] theorem State.supersede_hl : (s.supersede).hl = s.hl := rfl
@[simp] theorem State.supersede_health : (s.supersede).health = s.health := rfl
@[simp] theorem State.supersede_plan : (s.supersede).plan = s.plan := rfl
@[simp] theorem State.supersede_prom : (s.supersede).prom = s.prom := rfl
@[simp] theorem State.supersede_fe : (s.supersede).fe = s.fe := rfl
@[simp] theorem State.supersede_qm : (s.supersede).qm = s.qm := rfl
@[simp] theorem State.supersede_bs : (s.supersede).bs = s.bs := rfl
@[simp] theorem State.supersede_mesh : (s.supersede).mesh = s.mesh := rfl
@[simp] theorem State.supersede_mt : (s.supersede).mt = s.mt := rfl
@[simp] theorem State.supersede_oc : (s.supersede).oc = s.oc := rfl
@[simp] theorem State.supersede_ring : (s.supersede).ring = s.ring := rfl
@[simp] theorem State.supersede_ptp : (s.supersede).ptp = { s.ptp with seed := none, seedWaiters := [] } := rfl
@[simp] theorem State.supersede_hs : (s.supersede).hs = s.hs := rfl
@[simp] theorem State.supersede_ev : (s.supersede).ev = s.ev := rfl
@[simp] theorem State.supersede_perf : (s.supersede).perf = s.perf := rfl
@[simp] theorem State.supersede_ks : (s.supersede).ks = s.ks := rfl
@[simp] theorem State.supersede_up : (s.supersede).up = s.up := rfl
@[simp] theorem State.supersede_pwr : (s.supersede).pwr = s.pwr := rfl
@[simp] theorem State.supersede_rtc : (s.supersede).rtc = { s.rtc with set := none } := rfl
@[simp] theorem State.supersede_io : (s.supersede).io = s.io := rfl
@[simp] theorem State.supersede_out : (s.supersede).out = s.out := rfl
@[simp] theorem State.supersede_free : (s.supersede).free = s.free := rfl
@[simp] theorem State.supersede_pending : (s.supersede).pending = s.pending := rfl

@[simp] theorem State.unstage_id : (s.unstage).id = s.id := rfl
@[simp] theorem State.unstage_clk : (s.unstage).clk = s.clk := rfl
@[simp] theorem State.unstage_par : (s.unstage).par = s.par := rfl
@[simp] theorem State.unstage_hl : (s.unstage).hl = s.hl := rfl
@[simp] theorem State.unstage_health : (s.unstage).health = s.health := rfl
@[simp] theorem State.unstage_plan : (s.unstage).plan = s.plan := rfl
@[simp] theorem State.unstage_prom : (s.unstage).prom = s.prom := rfl
@[simp] theorem State.unstage_fe : (s.unstage).fe = s.fe := rfl
@[simp] theorem State.unstage_qm : (s.unstage).qm = s.qm := rfl
@[simp] theorem State.unstage_bs : (s.unstage).bs = s.bs := rfl
@[simp] theorem State.unstage_mesh : (s.unstage).mesh = s.mesh := rfl
@[simp] theorem State.unstage_mt : (s.unstage).mt = s.mt := rfl
@[simp] theorem State.unstage_oc : (s.unstage).oc = s.oc := rfl
@[simp] theorem State.unstage_ring : (s.unstage).ring = s.ring := rfl
@[simp] theorem State.unstage_ptp : (s.unstage).ptp = s.ptp := rfl
@[simp] theorem State.unstage_hs : (s.unstage).hs = s.hs := rfl
@[simp] theorem State.unstage_ev : (s.unstage).ev = s.ev := rfl
@[simp] theorem State.unstage_perf : (s.unstage).perf = s.perf := rfl
@[simp] theorem State.unstage_ks : (s.unstage).ks = s.ks := rfl
@[simp] theorem State.unstage_up : (s.unstage).up = s.up := rfl
@[simp] theorem State.unstage_pwr : (s.unstage).pwr = s.pwr := rfl
@[simp] theorem State.unstage_rtc : (s.unstage).rtc = s.rtc := rfl
@[simp] theorem State.unstage_io : (s.unstage).io = s.io := rfl
@[simp] theorem State.unstage_out : (s.unstage).out = s.out := rfl
@[simp] theorem State.unstage_free : (s.unstage).free = s.free := rfl
@[simp] theorem State.unstage_pending : (s.unstage).pending = s.pending := rfl

@[simp] theorem State.touch_id (src : Source) : (s.touch src).id = s.id := rfl
@[simp] theorem State.touch_clk (src : Source) : (s.touch src).clk = s.clk := rfl
@[simp] theorem State.touch_par (src : Source) : (s.touch src).par = s.par := rfl
@[simp] theorem State.touch_hl (src : Source) : (s.touch src).hl = s.hl := rfl
@[simp] theorem State.touch_health (src : Source) : (s.touch src).health = s.health := rfl
@[simp] theorem State.touch_plan (src : Source) : (s.touch src).plan = s.plan := rfl
@[simp] theorem State.touch_prom (src : Source) : (s.touch src).prom = s.prom := rfl
@[simp] theorem State.touch_fe (src : Source) : (s.touch src).fe = s.fe := rfl
@[simp] theorem State.touch_qm (src : Source) : (s.touch src).qm = s.qm := rfl
@[simp] theorem State.touch_bs (src : Source) : (s.touch src).bs = s.bs := rfl
@[simp] theorem State.touch_mesh (src : Source) : (s.touch src).mesh = s.mesh := rfl
@[simp] theorem State.touch_mt (src : Source) : (s.touch src).mt = s.mt := rfl
@[simp] theorem State.touch_oc (src : Source) : (s.touch src).oc = s.oc := rfl
@[simp] theorem State.touch_ring (src : Source) : (s.touch src).ring = s.ring := rfl
@[simp] theorem State.touch_ptp (src : Source) : (s.touch src).ptp = s.ptp := rfl
@[simp] theorem State.touch_hs (src : Source) : (s.touch src).hs = s.hs := rfl
@[simp] theorem State.touch_ev (src : Source) : (s.touch src).ev = s.ev := rfl
@[simp] theorem State.touch_perf (src : Source) : (s.touch src).perf = s.perf := rfl
@[simp] theorem State.touch_ks (src : Source) : (s.touch src).ks = s.ks := rfl
@[simp] theorem State.touch_up (src : Source) : (s.touch src).up = s.up := rfl
@[simp] theorem State.touch_pwr (src : Source) : (s.touch src).pwr = s.pwr := rfl
@[simp] theorem State.touch_rtc (src : Source) : (s.touch src).rtc = s.rtc := rfl
@[simp] theorem State.touch_io (src : Source) : (s.touch src).io = s.io := rfl
@[simp] theorem State.touch_out (src : Source) : (s.touch src).out = s.out := rfl
@[simp] theorem State.touch_free (src : Source) : (s.touch src).free = s.free := rfl
@[simp] theorem State.touch_pending (src : Source) : (s.touch src).pending = s.pending := rfl

@[simp] theorem State.lapse_id (ep : Endpoint) : (s.lapse ep).id = s.id := rfl
@[simp] theorem State.lapse_clk (ep : Endpoint) : (s.lapse ep).clk = s.clk := rfl
@[simp] theorem State.lapse_par (ep : Endpoint) : (s.lapse ep).par = s.par := rfl
@[simp] theorem State.lapse_hl (ep : Endpoint) : (s.lapse ep).hl = s.hl := rfl
@[simp] theorem State.lapse_health (ep : Endpoint) : (s.lapse ep).health = s.health := rfl
@[simp] theorem State.lapse_plan (ep : Endpoint) : (s.lapse ep).plan = (s.forgetWaiters ep).plan := rfl
@[simp] theorem State.lapse_prom (ep : Endpoint) : (s.lapse ep).prom = s.prom := rfl
@[simp] theorem State.lapse_fe (ep : Endpoint) : (s.lapse ep).fe = s.fe := rfl
@[simp] theorem State.lapse_qm (ep : Endpoint) : (s.lapse ep).qm = s.qm := rfl
@[simp] theorem State.lapse_bs (ep : Endpoint) : (s.lapse ep).bs = s.bs := rfl
@[simp] theorem State.lapse_mesh (ep : Endpoint) : (s.lapse ep).mesh = (s.forgetWaiters ep).mesh := rfl
@[simp] theorem State.lapse_mt (ep : Endpoint) : (s.lapse ep).mt = s.mt := rfl
@[simp] theorem State.lapse_oc (ep : Endpoint) : (s.lapse ep).oc = s.oc := rfl
@[simp] theorem State.lapse_ring (ep : Endpoint) : (s.lapse ep).ring = s.ring := rfl
@[simp] theorem State.lapse_ptp (ep : Endpoint) : (s.lapse ep).ptp = (s.forgetWaiters ep).ptp := rfl
@[simp] theorem State.lapse_ev (ep : Endpoint) : (s.lapse ep).ev = s.ev := rfl
@[simp] theorem State.lapse_perf (ep : Endpoint) : (s.lapse ep).perf = s.perf := rfl
@[simp] theorem State.lapse_ks (ep : Endpoint) : (s.lapse ep).ks = s.ks := rfl
@[simp] theorem State.lapse_up (ep : Endpoint) : (s.lapse ep).up = (s.forgetWaiters ep).up := rfl
@[simp] theorem State.lapse_pwr (ep : Endpoint) : (s.lapse ep).pwr = s.pwr := rfl
@[simp] theorem State.lapse_rtc (ep : Endpoint) : (s.lapse ep).rtc = (s.forgetWaiters ep).rtc := rfl
@[simp] theorem State.lapse_io (ep : Endpoint) : (s.lapse ep).io = s.io := rfl
@[simp] theorem State.lapse_out (ep : Endpoint) : (s.lapse ep).out = s.out := rfl
@[simp] theorem State.lapse_free (ep : Endpoint) : (s.lapse ep).free = s.free := rfl
@[simp] theorem State.lapse_pending (ep : Endpoint) : (s.lapse ep).pending = s.pending := rfl

@[simp] theorem State.enterReset_id (k : Nat) : (s.enterReset k).id = s.id := rfl
@[simp] theorem State.enterReset_clk (k : Nat) : (s.enterReset k).clk = s.clk := rfl
@[simp] theorem State.enterReset_par (k : Nat) : (s.enterReset k).par = s.par := rfl
@[simp] theorem State.enterReset_hl (k : Nat) : (s.enterReset k).hl = s.hl := rfl
@[simp] theorem State.enterReset_health (k : Nat) : (s.enterReset k).health = s.health := rfl
@[simp] theorem State.enterReset_plan (k : Nat) : (s.enterReset k).plan = s.plan := rfl
@[simp] theorem State.enterReset_prom (k : Nat) : (s.enterReset k).prom = s.prom := rfl
@[simp] theorem State.enterReset_fe (k : Nat) : (s.enterReset k).fe = s.fe := rfl
@[simp] theorem State.enterReset_qm (k : Nat) : (s.enterReset k).qm = s.qm := rfl
@[simp] theorem State.enterReset_bs (k : Nat) : (s.enterReset k).bs = s.bs := rfl
@[simp] theorem State.enterReset_mesh (k : Nat) : (s.enterReset k).mesh = s.mesh := rfl
@[simp] theorem State.enterReset_mt (k : Nat) : (s.enterReset k).mt = s.mt := rfl
@[simp] theorem State.enterReset_oc (k : Nat) : (s.enterReset k).oc = s.oc := rfl
@[simp] theorem State.enterReset_ring (k : Nat) : (s.enterReset k).ring = s.ring := rfl
@[simp] theorem State.enterReset_ptp (k : Nat) : (s.enterReset k).ptp = s.ptp := rfl
@[simp] theorem State.enterReset_hs (k : Nat) : (s.enterReset k).hs = s.hs := rfl
@[simp] theorem State.enterReset_ev (k : Nat) : (s.enterReset k).ev = s.ev := rfl
@[simp] theorem State.enterReset_perf (k : Nat) : (s.enterReset k).perf = s.perf := rfl
@[simp] theorem State.enterReset_ks (k : Nat) : (s.enterReset k).ks = s.ks := rfl
@[simp] theorem State.enterReset_up (k : Nat) : (s.enterReset k).up = s.up := rfl
@[simp] theorem State.enterReset_rtc (k : Nat) : (s.enterReset k).rtc = s.rtc := rfl
@[simp] theorem State.enterReset_io (k : Nat) : (s.enterReset k).io = s.io := rfl
@[simp] theorem State.enterReset_out (k : Nat) : (s.enterReset k).out = s.out := rfl
@[simp] theorem State.enterReset_free (k : Nat) : (s.enterReset k).free = s.free := rfl
@[simp] theorem State.enterReset_pending (k : Nat) : (s.enterReset k).pending = s.pending := rfl

@[simp] theorem State.perfAdd_id (c n : Nat) : (s.perfAdd c n).id = s.id := rfl
@[simp] theorem State.perfAdd_clk (c n : Nat) : (s.perfAdd c n).clk = s.clk := rfl
@[simp] theorem State.perfAdd_link (c n : Nat) : (s.perfAdd c n).link = s.link := rfl
@[simp] theorem State.perfAdd_par (c n : Nat) : (s.perfAdd c n).par = s.par := rfl
@[simp] theorem State.perfAdd_hl (c n : Nat) : (s.perfAdd c n).hl = s.hl := rfl
@[simp] theorem State.perfAdd_health (c n : Nat) : (s.perfAdd c n).health = s.health := rfl
@[simp] theorem State.perfAdd_plan (c n : Nat) : (s.perfAdd c n).plan = s.plan := rfl
@[simp] theorem State.perfAdd_prom (c n : Nat) : (s.perfAdd c n).prom = s.prom := rfl
@[simp] theorem State.perfAdd_fe (c n : Nat) : (s.perfAdd c n).fe = s.fe := rfl
@[simp] theorem State.perfAdd_qm (c n : Nat) : (s.perfAdd c n).qm = s.qm := rfl
@[simp] theorem State.perfAdd_bs (c n : Nat) : (s.perfAdd c n).bs = s.bs := rfl
@[simp] theorem State.perfAdd_mesh (c n : Nat) : (s.perfAdd c n).mesh = s.mesh := rfl
@[simp] theorem State.perfAdd_mt (c n : Nat) : (s.perfAdd c n).mt = s.mt := rfl
@[simp] theorem State.perfAdd_oc (c n : Nat) : (s.perfAdd c n).oc = s.oc := rfl
@[simp] theorem State.perfAdd_ring (c n : Nat) : (s.perfAdd c n).ring = s.ring := rfl
@[simp] theorem State.perfAdd_ptp (c n : Nat) : (s.perfAdd c n).ptp = s.ptp := rfl
@[simp] theorem State.perfAdd_hs (c n : Nat) : (s.perfAdd c n).hs = s.hs := rfl
@[simp] theorem State.perfAdd_ev (c n : Nat) : (s.perfAdd c n).ev = s.ev := rfl
@[simp] theorem State.perfAdd_ks (c n : Nat) : (s.perfAdd c n).ks = s.ks := rfl
@[simp] theorem State.perfAdd_up (c n : Nat) : (s.perfAdd c n).up = s.up := rfl
@[simp] theorem State.perfAdd_pwr (c n : Nat) : (s.perfAdd c n).pwr = s.pwr := rfl
@[simp] theorem State.perfAdd_rtc (c n : Nat) : (s.perfAdd c n).rtc = s.rtc := rfl
@[simp] theorem State.perfAdd_io (c n : Nat) : (s.perfAdd c n).io = s.io := rfl
@[simp] theorem State.perfAdd_out (c n : Nat) : (s.perfAdd c n).out = s.out := rfl
@[simp] theorem State.perfAdd_free (c n : Nat) : (s.perfAdd c n).free = s.free := rfl
@[simp] theorem State.perfAdd_pending (c n : Nat) : (s.perfAdd c n).pending = s.pending := rfl

@[simp] theorem State.setValue_id (id idx : Nat) (v : PVal) : (s.setValue id idx v).id = s.id := rfl
@[simp] theorem State.setValue_clk (id idx : Nat) (v : PVal) : (s.setValue id idx v).clk = s.clk := rfl
@[simp] theorem State.setValue_link (id idx : Nat) (v : PVal) : (s.setValue id idx v).link = s.link := rfl
@[simp] theorem State.setValue_hl (id idx : Nat) (v : PVal) : (s.setValue id idx v).hl = s.hl := rfl
@[simp] theorem State.setValue_health (id idx : Nat) (v : PVal) : (s.setValue id idx v).health = s.health := rfl
@[simp] theorem State.setValue_plan (id idx : Nat) (v : PVal) : (s.setValue id idx v).plan = s.plan := rfl
@[simp] theorem State.setValue_prom (id idx : Nat) (v : PVal) : (s.setValue id idx v).prom = s.prom := rfl
@[simp] theorem State.setValue_fe (id idx : Nat) (v : PVal) : (s.setValue id idx v).fe = s.fe := rfl
@[simp] theorem State.setValue_qm (id idx : Nat) (v : PVal) : (s.setValue id idx v).qm = s.qm := rfl
@[simp] theorem State.setValue_bs (id idx : Nat) (v : PVal) : (s.setValue id idx v).bs = s.bs := rfl
@[simp] theorem State.setValue_mesh (id idx : Nat) (v : PVal) : (s.setValue id idx v).mesh = s.mesh := rfl
@[simp] theorem State.setValue_mt (id idx : Nat) (v : PVal) : (s.setValue id idx v).mt = s.mt := rfl
@[simp] theorem State.setValue_oc (id idx : Nat) (v : PVal) : (s.setValue id idx v).oc = s.oc := rfl
@[simp] theorem State.setValue_ring (id idx : Nat) (v : PVal) : (s.setValue id idx v).ring = s.ring := rfl
@[simp] theorem State.setValue_ptp (id idx : Nat) (v : PVal) : (s.setValue id idx v).ptp = s.ptp := rfl
@[simp] theorem State.setValue_hs (id idx : Nat) (v : PVal) : (s.setValue id idx v).hs = s.hs := rfl
@[simp] theorem State.setValue_ev (id idx : Nat) (v : PVal) : (s.setValue id idx v).ev = s.ev := rfl
@[simp] theorem State.setValue_perf (id idx : Nat) (v : PVal) : (s.setValue id idx v).perf = s.perf := rfl
@[simp] theorem State.setValue_ks (id idx : Nat) (v : PVal) : (s.setValue id idx v).ks = s.ks := rfl
@[simp] theorem State.setValue_up (id idx : Nat) (v : PVal) : (s.setValue id idx v).up = s.up := rfl
@[simp] theorem State.setValue_pwr (id idx : Nat) (v : PVal) : (s.setValue id idx v).pwr = s.pwr := rfl
@[simp] theorem State.setValue_rtc (id idx : Nat) (v : PVal) : (s.setValue id idx v).rtc = s.rtc := rfl
@[simp] theorem State.setValue_io (id idx : Nat) (v : PVal) : (s.setValue id idx v).io = s.io := rfl
@[simp] theorem State.setValue_out (id idx : Nat) (v : PVal) : (s.setValue id idx v).out = s.out := rfl
@[simp] theorem State.setValue_free (id idx : Nat) (v : PVal) : (s.setValue id idx v).free = s.free := rfl
@[simp] theorem State.setValue_pending (id idx : Nat) (v : PVal) : (s.setValue id idx v).pending = s.pending := rfl

@[simp] theorem State.hlFill_id : (s.hlFill).id = s.id := rfl
@[simp] theorem State.hlFill_clk : (s.hlFill).clk = s.clk := rfl
@[simp] theorem State.hlFill_link : (s.hlFill).link = s.link := rfl
@[simp] theorem State.hlFill_par : (s.hlFill).par = s.par := rfl
@[simp] theorem State.hlFill_health : (s.hlFill).health = s.health := rfl
@[simp] theorem State.hlFill_plan : (s.hlFill).plan = s.plan := rfl
@[simp] theorem State.hlFill_prom : (s.hlFill).prom = s.prom := rfl
@[simp] theorem State.hlFill_fe : (s.hlFill).fe = s.fe := rfl
@[simp] theorem State.hlFill_qm : (s.hlFill).qm = s.qm := rfl
@[simp] theorem State.hlFill_bs : (s.hlFill).bs = s.bs := rfl
@[simp] theorem State.hlFill_mesh : (s.hlFill).mesh = s.mesh := rfl
@[simp] theorem State.hlFill_mt : (s.hlFill).mt = s.mt := rfl
@[simp] theorem State.hlFill_oc : (s.hlFill).oc = s.oc := rfl
@[simp] theorem State.hlFill_ring : (s.hlFill).ring = s.ring := rfl
@[simp] theorem State.hlFill_ptp : (s.hlFill).ptp = s.ptp := rfl
@[simp] theorem State.hlFill_hs : (s.hlFill).hs = s.hs := rfl
@[simp] theorem State.hlFill_ev : (s.hlFill).ev = s.ev := rfl
@[simp] theorem State.hlFill_perf : (s.hlFill).perf = s.perf := rfl
@[simp] theorem State.hlFill_ks : (s.hlFill).ks = s.ks := rfl
@[simp] theorem State.hlFill_up : (s.hlFill).up = s.up := rfl
@[simp] theorem State.hlFill_pwr : (s.hlFill).pwr = s.pwr := rfl
@[simp] theorem State.hlFill_rtc : (s.hlFill).rtc = s.rtc := rfl
@[simp] theorem State.hlFill_io : (s.hlFill).io = s.io := rfl
@[simp] theorem State.hlFill_out : (s.hlFill).out = s.out := rfl
@[simp] theorem State.hlFill_free : (s.hlFill).free = s.free := rfl
@[simp] theorem State.hlFill_pending : (s.hlFill).pending = s.pending := rfl

@[simp] theorem State.occupy_id (c : Command) (r : Req) : (s.occupy c r).id = s.id := rfl
@[simp] theorem State.occupy_clk (c : Command) (r : Req) : (s.occupy c r).clk = s.clk := rfl
@[simp] theorem State.occupy_par (c : Command) (r : Req) : (s.occupy c r).par = s.par := rfl
@[simp] theorem State.occupy_hl (c : Command) (r : Req) : (s.occupy c r).hl = s.hl := rfl
@[simp] theorem State.occupy_health (c : Command) (r : Req) : (s.occupy c r).health = s.health := rfl
@[simp] theorem State.occupy_plan (c : Command) (r : Req) : (s.occupy c r).plan = s.plan := rfl
@[simp] theorem State.occupy_prom (c : Command) (r : Req) : (s.occupy c r).prom = s.prom := rfl
@[simp] theorem State.occupy_fe (c : Command) (r : Req) : (s.occupy c r).fe = s.fe := rfl
@[simp] theorem State.occupy_qm (c : Command) (r : Req) : (s.occupy c r).qm = s.qm := rfl
@[simp] theorem State.occupy_bs (c : Command) (r : Req) : (s.occupy c r).bs = s.bs := rfl
@[simp] theorem State.occupy_mesh (c : Command) (r : Req) : (s.occupy c r).mesh = s.mesh := rfl
@[simp] theorem State.occupy_mt (c : Command) (r : Req) : (s.occupy c r).mt = s.mt := rfl
@[simp] theorem State.occupy_oc (c : Command) (r : Req) : (s.occupy c r).oc = s.oc := rfl
@[simp] theorem State.occupy_ring (c : Command) (r : Req) : (s.occupy c r).ring = s.ring := rfl
@[simp] theorem State.occupy_ptp (c : Command) (r : Req) : (s.occupy c r).ptp = s.ptp := rfl
@[simp] theorem State.occupy_hs (c : Command) (r : Req) : (s.occupy c r).hs = s.hs := rfl
@[simp] theorem State.occupy_ev (c : Command) (r : Req) : (s.occupy c r).ev = s.ev := rfl
@[simp] theorem State.occupy_perf (c : Command) (r : Req) : (s.occupy c r).perf = s.perf := rfl
@[simp] theorem State.occupy_ks (c : Command) (r : Req) : (s.occupy c r).ks = s.ks := rfl
@[simp] theorem State.occupy_up (c : Command) (r : Req) : (s.occupy c r).up = s.up := rfl
@[simp] theorem State.occupy_rtc (c : Command) (r : Req) : (s.occupy c r).rtc = s.rtc := rfl
@[simp] theorem State.occupy_io (c : Command) (r : Req) : (s.occupy c r).io = s.io := rfl
@[simp] theorem State.occupy_out (c : Command) (r : Req) : (s.occupy c r).out = s.out := rfl
@[simp] theorem State.occupy_free (c : Command) (r : Req) : (s.occupy c r).free = s.free := rfl
@[simp] theorem State.occupy_pending (c : Command) (r : Req) : (s.occupy c r).pending = s.pending := rfl

@[simp] theorem State.answered_id (r : Req) (status : Nat) (payload : List Byte) : (s.answered r status payload).id = s.id := rfl
@[simp] theorem State.answered_clk (r : Req) (status : Nat) (payload : List Byte) : (s.answered r status payload).clk = s.clk := rfl
@[simp] theorem State.answered_par (r : Req) (status : Nat) (payload : List Byte) : (s.answered r status payload).par = s.par := rfl
@[simp] theorem State.answered_hl (r : Req) (status : Nat) (payload : List Byte) : (s.answered r status payload).hl = s.hl := rfl
@[simp] theorem State.answered_health (r : Req) (status : Nat) (payload : List Byte) : (s.answered r status payload).health = s.health := rfl
@[simp] theorem State.answered_plan (r : Req) (status : Nat) (payload : List Byte) : (s.answered r status payload).plan = s.plan := rfl
@[simp] theorem State.answered_prom (r : Req) (status : Nat) (payload : List Byte) : (s.answered r status payload).prom = s.prom := rfl
@[simp] theorem State.answered_fe (r : Req) (status : Nat) (payload : List Byte) : (s.answered r status payload).fe = s.fe := rfl
@[simp] theorem State.answered_qm (r : Req) (status : Nat) (payload : List Byte) : (s.answered r status payload).qm = s.qm := rfl
@[simp] theorem State.answered_bs (r : Req) (status : Nat) (payload : List Byte) : (s.answered r status payload).bs = s.bs := rfl
@[simp] theorem State.answered_mesh (r : Req) (status : Nat) (payload : List Byte) : (s.answered r status payload).mesh = s.mesh := rfl
@[simp] theorem State.answered_mt (r : Req) (status : Nat) (payload : List Byte) : (s.answered r status payload).mt = s.mt := rfl
@[simp] theorem State.answered_oc (r : Req) (status : Nat) (payload : List Byte) : (s.answered r status payload).oc = s.oc := rfl
@[simp] theorem State.answered_ring (r : Req) (status : Nat) (payload : List Byte) : (s.answered r status payload).ring = s.ring := rfl
@[simp] theorem State.answered_ptp (r : Req) (status : Nat) (payload : List Byte) : (s.answered r status payload).ptp = s.ptp := rfl
@[simp] theorem State.answered_hs (r : Req) (status : Nat) (payload : List Byte) : (s.answered r status payload).hs = s.hs := rfl
@[simp] theorem State.answered_ev (r : Req) (status : Nat) (payload : List Byte) : (s.answered r status payload).ev = s.ev := rfl
@[simp] theorem State.answered_perf (r : Req) (status : Nat) (payload : List Byte) : (s.answered r status payload).perf = s.perf := rfl
@[simp] theorem State.answered_ks (r : Req) (status : Nat) (payload : List Byte) : (s.answered r status payload).ks = s.ks := rfl
@[simp] theorem State.answered_up (r : Req) (status : Nat) (payload : List Byte) : (s.answered r status payload).up = s.up := rfl
@[simp] theorem State.answered_pwr (r : Req) (status : Nat) (payload : List Byte) : (s.answered r status payload).pwr = s.pwr := rfl
@[simp] theorem State.answered_rtc (r : Req) (status : Nat) (payload : List Byte) : (s.answered r status payload).rtc = s.rtc := rfl
@[simp] theorem State.answered_io (r : Req) (status : Nat) (payload : List Byte) : (s.answered r status payload).io = s.io := rfl
@[simp] theorem State.answered_out (r : Req) (status : Nat) (payload : List Byte) : (s.answered r status payload).out = s.out := rfl
@[simp] theorem State.answered_free (r : Req) (status : Nat) (payload : List Byte) : (s.answered r status payload).free = s.free := rfl
@[simp] theorem State.answered_pending (r : Req) (status : Nat) (payload : List Byte) : (s.answered r status payload).pending = s.pending := rfl

/-! ## What the updates write -/

@[simp] theorem State.setQueue_queues (q : Nat) (x : Queue) : (s.setQueue q x).qm.queues = tput s.qm.queues q x := rfl
@[simp] theorem State.setCounter_counts (id idx v : Nat) :
    (s.setCounter id idx v).par.counts = cput s.par.counts (pkey id idx) v := rfl
@[simp] theorem State.setCounter_vals (id idx v : Nat) : (s.setCounter id idx v).par.vals = s.par.vals := rfl
@[simp] theorem State.onSession_sessions (ep : Endpoint) (f : Session → Session) :
    (s.onSession ep f).link.sessions = s.link.sessions.map (fun x => if x.ep = ep then f x else x) := rfl
@[simp] theorem State.unstage_staged : s.unstage.link.staged = [] := rfl

/-- A parameter's value depends on the committed values, the order code and the loaded graphs' queues alone. -/
theorem State.value_congr {s t : State} (hv : s.par.vals = t.par.vals) (hid : s.id = t.id) (hq : s.qm.specs = t.qm.specs)
    (id idx : Nat) : s.value id idx = t.value id idx := by
  have hd : paramDefault s = paramDefault t := by
    funext r i
    unfold paramDefault State.is16C
    rw [hid, hq]
  unfold State.value
  rw [hv, hd]

theorem State.num_congr {s t : State} (hv : s.par.vals = t.par.vals) (hid : s.id = t.id) (hq : s.qm.specs = t.qm.specs)
    (id idx : Nat) : s.num id idx = t.num id idx := by
  rw [State.num, State.num, State.value_congr hv hid hq]

/-- A queue after it is written. -/
theorem State.queue_setQueue_same (q : Nat) (x : Queue) : (s.setQueue q x).queue q = x := by
  simp [State.queue, tget_tput_same]

theorem State.queue_setQueue_other {q q' : Nat} (x : Queue) (h : q' ≠ q) : (s.setQueue q x).queue q' = s.queue q' := by
  simp [State.queue, tget_tput_other _ _ h]

theorem State.counter_setCounter_same (id idx v : Nat) : (s.setCounter id idx v).counter id idx = v := by
  simp [State.counter, cget_cput_same]

end Sys2Proof.Machine
end

