-- ==== Sys2Proof/Laws/Reports.lean ====
section
/-!
SUPPORT. Every reporting operation leaves the state as it was but for reports: one lemma per operation, `(op s).bare = s.bare`.
A proof about a command cites these and never unfolds the recorder, the notices or the History Store's queue.
-/

namespace Sys2Proof.Machine

/-! ## The relation -/

theorem Reports.eq {s t : State} (h : Reports s t) : s.bare = t.bare := h

/-- Any reading of the states without their reports agrees. -/
theorem Reports.at {α : Type} {u t : State} (h : Reports u t) (f : State → α) : f t.bare = f u.bare :=
  congrArg f h.eq.symm

theorem Reports.refl (s : State) : Reports s s := rfl

theorem Reports.trans {s t u : State} (h : Reports s t) (h' : Reports t u) : Reports s u := Eq.trans h h'

theorem Reports.symm {s t : State} (h : Reports s t) : Reports t s := Eq.symm h

/-- What two states that agree but for reports have in common. -/
theorem Reports.same {u t : State} (h : Reports u t) :
    t.id = u.id ∧ t.clk = u.clk ∧ t.plan = u.plan ∧ t.prom = u.prom ∧ t.fe.engines = u.fe.engines ∧ t.bs = u.bs ∧ t.mesh = u.mesh ∧
    t.mt = u.mt ∧ t.oc = u.oc ∧ t.ptp = u.ptp ∧ t.hs = u.hs ∧ t.ks = u.ks ∧ t.up = u.up ∧ t.rtc = u.rtc ∧ t.io = u.io ∧
    t.free = u.free ∧ t.pending = u.pending := by
  exact ⟨h.at State.id, h.at State.clk, h.at State.plan, h.at State.prom, h.at (fun s : State => s.fe.engines), h.at State.bs, h.at State.mesh, h.at State.mt, h.at State.oc,
    h.at State.ptp, h.at State.hs, h.at State.ks, h.at State.up, h.at State.rtc, h.at State.io, h.at State.free, h.at State.pending⟩

theorem Reports.power {u t : State} (h : Reports u t) : t.pwr.state = u.pwr.state ∧ t.pwr.pendingStart = u.pwr.pendingStart :=
  ⟨h.at (fun s : State => s.pwr.state), h.at (fun s : State => s.pwr.pendingStart)⟩

theorem Reports.holder {u t : State} (h : Reports u t) :
    t.link.floor = u.link.floor ∧ t.link.floorEp = u.link.floorEp ∧ t.link.bound = u.link.bound :=
  ⟨h.at (fun s : State => s.link.floor), h.at (fun s : State => s.link.floorEp),
    h.at (fun s : State => s.link.bound)⟩

theorem Reports.params {u t : State} (h : Reports u t) : t.par.vals = u.par.vals :=
  h.at (fun s : State => s.par.vals)

/-! ## Folds and choices -/

theorem bare_foldl {α : Type} (f : State → α → State) (h : ∀ s a, (f s a).bare = s.bare) (l : List α) (s : State) :
    (l.foldl f s).bare = s.bare := by
  induction l generalizing s with
  | nil => rfl
  | cons a l ih => rw [List.foldl_cons, ih, h]

/-! ## Sessions -/

@[simp] theorem Session.bare_notices (x : Session) (n : List Notice) : { x with notices := n }.bare = x.bare := rfl

theorem bare_onSession (s : State) (ep : Endpoint) (f : Session → Session) (h : ∀ x, (f x).bare = x.bare) :
    (s.onSession ep f).bare = s.bare := by
  have : (s.link.sessions.map (fun x => if x.ep = ep then f x else x)).map Session.bare = s.link.sessions.map Session.bare := by
    rw [List.map_map]
    refine List.map_congr_left fun x _ => ?_
    simp only [Function.comp_apply]
    split <;> simp [h]
  simp only [State.bare, State.onSession, this]

theorem Reports.sessions {u t : State} (h : Reports u t) :
    u.link.sessions.map Session.bare = t.link.sessions.map Session.bare :=
  (h.at (fun s : State => s.link.sessions)).symm

/-- A lane stands alike in states that agree but for reports. -/
theorem Reports.lane {u t : State} (h : Reports u t) (ep : Endpoint) (n : Nat) : t.lane ep n = u.lane ep n := by
  have key (s : State) : s.lane ep n =
      (((s.link.sessions.map Session.bare).find? (fun x => x.ep == ep)).map (fun x => x.lane n)).getD .fresh := by
    rw [List.find?_map, Option.map_map]
    rfl
  rw [key u, key t, h.sessions]

/-- Changing a session in the same way leaves states that agree but for reports. -/
theorem Reports.onSession {u t : State} (h : Reports u t) (ep : Endpoint) {f g : Session → Session}
    (hf : ∀ x y : Session, x.bare = y.bare → (f x).bare = (g y).bare) : Reports (u.onSession ep f) (t.onSession ep g) := by
  have hm : ∀ l m : List Session, l.map Session.bare = m.map Session.bare →
      (l.map (fun x => if x.ep = ep then f x else x)).map Session.bare =
        (m.map (fun x => if x.ep = ep then g x else x)).map Session.bare := by
    intro l
    induction l with
    | nil => intro m hm; cases m <;> simp_all
    | cons x l ih =>
      intro m hm
      cases m with
      | nil => simp at hm
      | cons y m =>
        obtain ⟨hxy, hlm⟩ := List.cons.inj hm
        have hep : x.bare.ep = y.bare.ep := congrArg Session.ep hxy
        have hep : x.ep = y.ep := hep
        simp only [List.map_cons, ih m hlm, hep]
        split <;> simp [hf x y hxy, hxy]
  have hs := hm _ _ h.sessions
  have h' : { u.bare with link.sessions := (u.onSession ep f).link.sessions.map Session.bare } =
      { t.bare with link.sessions := (t.onSession ep g).link.sessions.map Session.bare } := by
    rw [h.eq]
    simp only [State.onSession_sessions, hs]
  exact h'

/-- Setting a lane in the same way leaves states that agree but for reports. -/
theorem Reports.setLane {u t : State} (h : Reports u t) (ep : Endpoint) (n : Nat) (l : Lane) :
    Reports (u.setLane ep n l) (t.setLane ep n l) := by
  refine h.onSession ep fun x y hxy => ?_
  have hl : x.bare.lanes = y.bare.lanes := congrArg Session.lanes hxy
  have hl : x.lanes = y.lanes := hl
  have : { x.bare with lanes := lset x.lanes (n - 1) l } = { y.bare with lanes := lset y.lanes (n - 1) l } := by
    rw [hxy, hl]
  exact this

theorem Reports.answered {u t : State} (h : Reports u t) (r : Req) (status : Nat) (payload : List Byte) :
    Reports (u.answered r status payload) (t.answered r status payload) := by
  unfold State.answered
  rw [h.lane]
  exact h.setLane _ _ _

/-! ## Counters and ports -/

theorem bareCounts_dropped (t : Table Nat) (v : Nat) : bareCounts (cput t (pkey 0x80F0 0) v) = bareCounts t := by
  simp only [bareCounts, tdel_cput_same]

theorem bareCounts_crossed (t : Table Nat) (v : Nat) : bareCounts (cput t (pkey 0x4C86 0x0A) v) = bareCounts t := by
  simp only [bareCounts]
  rw [tdel_comm (cput t _ v), tdel_cput_same, tdel_comm t]

theorem bareCounts_refused (t : Table Nat) (v : Nat) : bareCounts (cput t (pkey 0x4C88 0x0A) v) = bareCounts t := by
  simp only [bareCounts]
  rw [tdel_comm _ (pkey 0x4C86 0x0A) (pkey 0x4C88 0x0A), tdel_comm _ (pkey 0x80F0 0) (pkey 0x4C88 0x0A), tdel_cput_same,
    tdel_comm _ (pkey 0x4C88 0x0A) (pkey 0x80F0 0), tdel_comm _ (pkey 0x4C88 0x0A) (pkey 0x4C86 0x0A)]

@[simp] theorem bump_dropped_bare (s : State) (n : Nat) : (s.bump 0x80F0 0 n).bare = s.bare := by
  unfold State.bump
  split
  · rfl
  · simp only [State.bare, State.setCounter, bareCounts_dropped]

@[simp] theorem bump_crossed_bare (s : State) (n : Nat) : (s.bump 0x4C86 0x0A n).bare = s.bare := by
  unfold State.bump
  split
  · rfl
  · simp only [State.bare, State.setCounter, bareCounts_crossed]

@[simp] theorem bump_refused_bare (s : State) (n : Nat) : (s.bump 0x4C88 0x0A n).bare = s.bare := by
  unfold State.bump
  split
  · rfl
  · simp only [State.bare, State.setCounter, bareCounts_refused]

@[simp] theorem perfAdd_bare (s : State) (c n : Nat) : (s.perfAdd c n).bare = s.bare := rfl

@[simp] theorem perfEdge_bare (s : State) (event what n : Nat) : (s.perfEdge event what n).bare = s.bare := by
  unfold State.perfEdge
  exact bare_foldl _ (fun s e => by split <;> simp) _ _

@[simp] theorem meterBytes_bare (s : State) (source dir n : Nat) : (s.meterBytes source dir n).bare = s.bare := by
  unfold State.meterBytes
  split <;> rfl

@[simp] theorem portSends_bare (s : State) (p : Port) (bytes : Nat) : (s.portSends p bytes).bare = s.bare := by
  unfold State.portSends
  dsimp only
  split
  · rfl
  · rw [meterBytes_bare, perfEdge_bare]
    cases p <;> rfl

@[simp] theorem ringSends_bare (s : State) (bytes : Nat) : (s.ringSends bytes).bare = s.bare := by
  have h : (s.ringSends bytes).bare = ((s.portSends .A bytes).portSends .B bytes).bare := rfl
  rw [h, portSends_bare, portSends_bare]

/-! ## Messages and notices -/

@[simp] theorem send_bare (s : State) (dst : Source) (express : Bool) (bytes : List Byte) :
    (s.send dst express bytes).bare = s.bare := by
  unfold State.send
  split
  · rw [ringSends_bare]; rfl
  · rfl
  · rfl

@[simp] theorem respond_bare (s : State) (dst : Source) (lane : Nat) (seq : Seq32) (opcode flags status : Nat)
    (payload : List Byte) : (s.respond dst lane seq opcode flags status payload).bare = s.bare := send_bare _ _ _ _

@[simp] theorem sendNotices_bare (s : State) (ep : Endpoint) (n : Nat) : (s.sendNotices ep n).bare = s.bare := by
  unfold State.sendNotices
  split
  · rfl
  · dsimp only
    rw [bare_foldl _ (fun s m => send_bare _ _ _ _)]
    exact bare_onSession _ _ _ fun _ => rfl

@[simp] theorem noticeTo_bare (s : State) (ep : Endpoint) (opcode : Nat) (payload : List Byte) :
    (s.noticeTo ep opcode payload).bare = s.bare := by
  unfold State.noticeTo
  split
  · rfl
  · split
    · exact bare_onSession _ _ _ fun _ => rfl
    · rw [sendNotices_bare]
      exact bare_onSession _ _ _ fun _ => rfl

@[simp] theorem notify_bare (s : State) (opcode : Nat) (payload : List Byte) : (s.notify opcode payload).bare = s.bare :=
  bare_foldl _ (fun _ _ => noticeTo_bare _ _ _ _) _ _

@[simp] theorem toLastGasp_bare (s : State) (r : RecEntry) : (s.toLastGasp r).bare = s.bare := by
  simp only [State.bare, State.toLastGasp]

@[simp] theorem queueRecord_bare (s : State) (r : RecEntry) : (s.queueRecord r).bare = s.bare := by
  unfold State.queueRecord
  split
  · simp only [State.bare]
  · split
    · rw [toLastGasp_bare]; simp only [State.bare]
    · rw [bump_dropped_bare]; simp only [State.bare]

@[simp] theorem recordAt_bare (s : State) (stamp : Ns) (event unit : Nat) (data : List Byte) :
    (s.recordAt stamp event unit data).bare = s.bare := by
  unfold State.recordAt
  split
  · exact queueRecord_bare _ _
  · rfl

@[simp] theorem record_bare (s : State) (event unit : Nat) (data : List Byte) : (s.record event unit data).bare = s.bare :=
  recordAt_bare _ _ _ _ _

@[simp] theorem raise_bare (s : State) (opcode unit : Nat) (payload : List Byte) :
    (s.raise opcode unit payload).bare = s.bare := by
  unfold State.raise
  rw [notify_bare, record_bare]

/-! ## The History Store's queue -/

theorem setQueue_ten_bare (s : State) (x : Queue) : (s.setQueue 0x0A x).bare = s.bare := by
  simp only [State.bare, State.setQueue, tdel_tput_same]

@[simp] theorem crossed_ten_bare (s : State) (d : Nat) : (s.crossed 0x0A d).bare = s.bare := by
  unfold State.crossed State.queueLevel
  split
  · dsimp only
    split
    · rw [setQueue_ten_bare, bump_crossed_bare]
    · rw [raise_bare, setQueue_ten_bare, bump_crossed_bare]
  · rfl

@[simp] theorem put_ten_bare (s : State) (it : Item) : (s.put 0x0A it).bare = s.bare := by
  unfold State.put
  rw [meterBytes_bare, perfEdge_bare, crossed_ten_bare, setQueue_ten_bare]
  rfl

@[simp] theorem offer_ten_bare (s : State) (it : Item) : (s.offer 0x0A it).bare = s.bare := by
  unfold State.offer
  split <;> simp

@[simp] theorem histFrom_bare (s : State) (graph flow : Nat) (r : HistRec) : (s.histFrom graph flow r).bare = s.bare := by
  unfold State.histFrom
  dsimp only
  rw [bare_foldl _ (fun _ _ => by split <;> simp)]
  split <;> simp

@[simp] theorem hist_bare (s : State) (stamp : Ns) (place : Pid) (type : Nat) (body : List Byte) :
    (s.hist stamp place type body).bare = s.bare := histFrom_bare _ _ _ _

/-! ## Health -/

@[simp] theorem report_bare (s : State) (u : Nat) (n : Health) : (s.report u n).bare = s.bare := by
  unfold State.report
  dsimp only
  split
  · rfl
  · split
    · rw [notify_bare, record_bare, hist_bare]; rfl
    · rw [record_bare, hist_bare]; rfl

@[simp] theorem noteCalm_bare (s : State) : s.noteCalm.bare = s.bare := rfl

@[simp] theorem noteAttn_bare (s : State) : s.noteAttn.bare = s.bare := rfl

@[simp] theorem govern_bare (s : State) : s.govern.bare = s.bare := rfl

/-- What a command leaves is reported, and no more. -/
@[simp] theorem settle_bare (s : State) : s.settle.bare = s.bare := by
  unfold State.settle
  split
  · rw [noteAttn_bare, noteCalm_bare, bare_foldl _ (fun _ _ => report_bare _ _ _), govern_bare]
  · rfl

theorem reports_settle (s : State) : Reports s s.settle := (settle_bare s).symm

/-! ## Events and requests -/

/-- An event in a running module leaves what its effect leaves, but for reports. -/
theorem event_leads {dt : Ns} {f : State → State} {s : State} (h : (s.begin dt).running = true) :
    ∃ t, event dt f s = .next t ∧ Reports (f (s.begin dt)) t := by
  refine ⟨_, rfl, ?_⟩
  rw [if_pos h]
  exact reports_settle _

theorem always_leads (dt : Ns) (f : State → State) (s : State) :
    ∃ t, always dt f s = .next t ∧ Reports (f (s.begin dt)) t := ⟨_, rfl, reports_settle _⟩

end Sys2Proof.Machine
end

