-- ==== Sys2Proof/Laws/Requests.lean ====
section
/-!
SUPPORT. What a request that its command takes up comes to: the one lemma that a proof about a Shotas command cites. It says the
body's result and never unfolds the checks of R66 again.
-/

namespace Sys2Proof.Machine

variable {c : Command} {r : Req} {s : State}

/-- A request that is taken up runs its command's body on `taken`, and its result concludes the lane. -/
theorem shotas_ready (h : Ready c r s) :
    ∃ before, shotas c r s = .next (((s.taken c r).conclude c r before (c.body r (s.taken c r))).settle) := by
  refine ⟨(((s.begin r.dt).countRetry r).sessionHears r).lane r.src.endpoint r.lane.toNat, ?_⟩
  have hacc : (s.taken c r).accept c r ((((s.begin r.dt).countRetry r).sessionHears r).lane r.src.endpoint r.lane.toNat) =
      (s.taken c r).conclude c r ((((s.begin r.dt).countRetry r).sessionHears r).lane r.src.endpoint r.lane.toNat)
        (c.body r (s.taken c r)) := by
    unfold State.accept State.taken
    simp only [h.allowed]
    rw [if_neg, if_neg, if_neg]
    · rintro ⟨hw, ha, hg⟩
      rcases h.starts with h | h | h
      · simp [h] at hw
      · exact ha h
      · exact hg h
    · have := h.few
      omega
    · rintro ⟨ha, hw⟩
      rcases h.noSwitch with h | h
      · exact ha h
      · simp [h] at hw
  unfold shotas State.request
  simp only [h.hears, h.request, h.header, h.room, Bool.not_true, Bool.false_and, Bool.false_eq_true, if_false]
  unfold State.onLane
  simp only [h.accepted, h.layout, Bool.not_true, Bool.false_eq_true, if_false]
  exact congrArg (fun x : State => Host.Outcome.next x.settle) hacc

/-- Any final status that is kept for a resend. -/
theorem shotas_done {st : Nat} {p : List Byte} {u : State} (h : Ready c r s) (hst : statusCached st = true)
    (hb : c.body r (s.taken c r) = .done st p u) :
    ∃ t, shotas c r s = .next t ∧ Reports (u.answered r st p) t := by
  obtain ⟨before, hs⟩ := shotas_ready h
  refine ⟨_, hs, ?_⟩
  rw [hb]
  unfold Reports State.conclude
  simp only [hst, if_true, settle_bare, respond_bare]
  rfl

/-- The command answers OK. -/
theorem shotas_ok {p : List Byte} {u : State} (h : Ready c r s) (hb : c.body r (s.taken c r) = ok p u) :
    ∃ t, shotas c r s = .next t ∧ Reports (u.answered r stOk p) t := shotas_done h rfl hb

/-- The command answers OK, and then does what it does after its response. -/
theorem shotas_doneThen {p : List Byte} {u : State} {after : State → State} (h : Ready c r s)
    (hb : c.body r (s.taken c r) = .doneThen stOk p u after) (ha : ∀ x y : State, x.bare = y.bare → (after x).bare = (after y).bare) :
    ∃ t, shotas c r s = .next t ∧ Reports (after (u.answered r stOk p)) t := by
  obtain ⟨before, hs⟩ := shotas_ready h
  refine ⟨_, hs, ?_⟩
  rw [hb]
  unfold Reports State.conclude
  simp only [settle_bare]
  have : statusCached stOk = true := rfl
  simp only [this, if_true]
  exact ha _ _ (by rw [respond_bare]; rfl)

/-- The command has begun; its response comes later. -/
theorem shotas_wait {u : State} (h : Ready c r s) (hb : c.body r (s.taken c r) = .wait u) :
    ∃ t, shotas c r s = .next t ∧
      Reports (u.setLane r.src.endpoint r.lane.toNat { u.lane r.src.endpoint r.lane.toNat with phase := .begun }) t := by
  obtain ⟨before, hs⟩ := shotas_ready h
  refine ⟨_, hs, ?_⟩
  rw [hb]
  unfold Reports State.conclude
  simp only [settle_bare]

end Sys2Proof.Machine
end

