-- ==== Sys2Proof/Laws/Delivery.lean ====
section
/-!
SUPPORT. What has been handed to a port stays handed: `Handed s t` says that everything the state `s` has given out stands in `t`
as well; sending gives its message out, and every reporting operation keeps what was given.
-/

namespace Sys2Proof.Machine

/-- Everything `s` has given out, or holds for the host, stands in `t` as well; the response buffer only grows at its end. -/
def Handed (s t : State) : Prop :=
  (∀ o ∈ s.out, o ∈ t.out) ∧ (∀ b, (b ∈ s.hl.rsp ∨ b ∈ s.hl.waiting) → (b ∈ t.hl.rsp ∨ b ∈ t.hl.waiting)) ∧
    s.hl.rsp <+: t.hl.rsp

theorem Handed.refl (s : State) : Handed s s := ⟨fun _ h => h, fun _ h => h, List.prefix_refl _⟩

theorem Handed.trans {s t u : State} (h : Handed s t) (h' : Handed t u) : Handed s u :=
  ⟨fun o ho => h'.1 o (h.1 o ho), fun b hb => h'.2.1 b (h.2.1 b hb), h.2.2.trans h'.2.2⟩

theorem Handed.delivers {s t : State} (h : Handed s t) {dst : Source} {b : List Byte} (hd : s.delivers dst b) :
    t.delivers dst b := by
  cases dst with
  | host => exact h.2.1 b hd
  | ring _ _ _ _ => exact hd.imp fun e he => h.1 _ he
  | uart => exact hd.imp fun _ he => h.1 _ he

theorem handed_of_same {s t : State} (ho : t.out = s.out) (hh : t.hl = s.hl) : Handed s t := by
  refine ⟨fun o h => ?_, fun b h => ?_, ?_⟩
  · rw [ho]; exact h
  · rw [hh]; exact h
  · rw [hh]

theorem handed_foldl {α : Type} (f : State → α → State) (h : ∀ s a, Handed s (f s a)) (l : List α) (s : State) :
    Handed s (l.foldl f s) := by
  induction l generalizing s with
  | nil => exact .refl s
  | cons a l ih => exact (h s a).trans (ih _)

theorem perfEdge_handed (s : State) (event what n : Nat) : Handed s (s.perfEdge event what n) := by
  unfold State.perfEdge
  refine handed_foldl _ (fun s e => ?_) _ _
  split
  · exact handed_of_same rfl rfl
  · exact .refl _

theorem meterBytes_handed (s : State) (source dir n : Nat) : Handed s (s.meterBytes source dir n) := by
  unfold State.meterBytes
  split
  · exact .refl _
  · exact handed_of_same rfl rfl

theorem setPort_handed (s : State) (p : Port) (r : RingPort) : Handed s (s.setPort p r) := by
  cases p <;> exact handed_of_same rfl rfl

theorem portSends_handed (s : State) (p : Port) (bytes : Nat) : Handed s (s.portSends p bytes) := by
  unfold State.portSends
  dsimp only
  split
  · exact .refl _
  · exact ((setPort_handed _ _ _).trans (perfEdge_handed _ _ _ _)).trans (meterBytes_handed _ _ _ _)

theorem ringSends_handed (s : State) (bytes : Nat) : Handed s (s.ringSends bytes) :=
  ((portSends_handed s .A bytes).trans (portSends_handed _ .B bytes)).trans (handed_of_same rfl rfl)

theorem hlFill_handed (s : State) : Handed s s.hlFill := by
  refine ⟨fun _ h => h, fun b h => ?_, List.prefix_append _ _⟩
  unfold State.hlFill
  rcases h with h | h
  · exact .inl (List.mem_append_left _ h)
  · rcases List.mem_append.mp ((List.take_append_drop (8 - s.hl.rsp.length) s.hl.waiting).symm ▸ h) with h | h
    · exact .inl (List.mem_append_right _ h)
    · exact .inr h

theorem send_handed (s : State) (dst : Source) (express : Bool) (bytes : List Byte) :
    Handed s (s.send dst express bytes) := by
  have app (o : Out) : Handed s { s with out := s.out ++ [o] } :=
    ⟨fun _ h => List.mem_append_left _ h, fun _ h => h, List.prefix_refl _⟩
  unfold State.send
  split
  · exact (app _).trans (ringSends_handed _ _)
  · have wait : Handed s { s with hl.waiting := s.hl.waiting ++ [bytes] } :=
      ⟨fun _ h => h, fun b h => h.imp id fun h => List.mem_append_left _ h, List.prefix_refl _⟩
    exact wait.trans (hlFill_handed _)
  · exact app _

/-- A message that is sent is given out. -/
theorem send_delivers (s : State) (dst : Source) (express : Bool) (bytes : List Byte) :
    (s.send dst express bytes).delivers dst bytes := by
  unfold State.send
  split
  · exact ⟨express, (ringSends_handed _ _).1 _ (List.mem_append_right _ (List.mem_singleton.mpr rfl))⟩
  · exact (hlFill_handed _).2.1 bytes (.inr (List.mem_append_right _ (List.mem_singleton.mpr rfl)))
  · exact ⟨express, List.mem_append_right _ (List.mem_singleton.mpr rfl)⟩

theorem respond_handed (s : State) (dst : Source) (lane : Nat) (seq : Seq32) (opcode flags status : Nat)
    (payload : List Byte) : Handed s (s.respond dst lane seq opcode flags status payload) := send_handed _ _ _ _

theorem onSession_handed (s : State) (ep : Endpoint) (f : Session → Session) : Handed s (s.onSession ep f) :=
  handed_of_same rfl rfl

theorem sendNotices_handed (s : State) (ep : Endpoint) (n : Nat) : Handed s (s.sendNotices ep n) := by
  unfold State.sendNotices
  split
  · exact .refl _
  · exact (onSession_handed _ _ _).trans (handed_foldl _ (fun _ _ => send_handed _ _ _ _) _ _)

theorem noticeTo_handed (s : State) (ep : Endpoint) (opcode : Nat) (payload : List Byte) :
    Handed s (s.noticeTo ep opcode payload) := by
  unfold State.noticeTo
  split
  · exact .refl _
  · split
    · exact onSession_handed _ _ _
    · exact (onSession_handed _ _ _).trans (sendNotices_handed _ _ _)

theorem notify_handed (s : State) (opcode : Nat) (payload : List Byte) : Handed s (s.notify opcode payload) :=
  handed_foldl _ (fun _ _ => noticeTo_handed _ _ _ _) _ _

theorem bump_handed (s : State) (id idx n : Nat) : Handed s (s.bump id idx n) := by
  unfold State.bump
  split
  · exact .refl _
  · exact handed_of_same rfl rfl

theorem queueRecord_handed (s : State) (r : RecEntry) : Handed s (s.queueRecord r) := by
  unfold State.queueRecord
  split
  · exact handed_of_same rfl rfl
  · split
    · exact handed_of_same rfl rfl
    · refine Handed.trans (handed_of_same (t := { s with ev.made := s.ev.made + 1, ev.overflow := s.ev.overflow + 1 }) rfl rfl)
        (bump_handed _ _ _ _)

theorem record_handed (s : State) (event unit : Nat) (data : List Byte) : Handed s (s.record event unit data) := by
  unfold State.record State.recordAt
  split
  · exact queueRecord_handed _ _
  · exact .refl _

theorem raise_handed (s : State) (opcode unit : Nat) (payload : List Byte) : Handed s (s.raise opcode unit payload) :=
  (record_handed _ _ _ _).trans (notify_handed _ _ _)

theorem setQueue_handed (s : State) (q : Nat) (x : Queue) : Handed s (s.setQueue q x) := handed_of_same rfl rfl

theorem crossed_handed (s : State) (q d : Nat) : Handed s (s.crossed q d) := by
  unfold State.crossed
  split
  · dsimp only
    split
    · exact (bump_handed _ _ _ _).trans (setQueue_handed _ _ _)
    · exact ((bump_handed _ _ _ _).trans (setQueue_handed _ _ _)).trans (raise_handed _ _ _ _)
  · exact .refl _

theorem put_handed (s : State) (q : Nat) (it : Item) : Handed s (s.put q it) := by
  unfold State.put
  exact ((((handed_of_same (t := { s with qm.pushed := s.qm.pushed + 1 }) rfl rfl).trans (setQueue_handed _ _ _)).trans
    (crossed_handed _ _ _)).trans (perfEdge_handed _ _ _ _)).trans (meterBytes_handed _ _ _ _)

theorem offer_handed (s : State) (q : Nat) (it : Item) : Handed s (s.offer q it) := by
  unfold State.offer
  split
  · exact put_handed _ _ _
  · exact bump_handed _ _ _ _

theorem hist_handed (s : State) (stamp : Ns) (place : Pid) (type : Nat) (body : List Byte) :
    Handed s (s.hist stamp place type body) := by
  unfold State.hist State.histFrom
  dsimp only
  exact Handed.trans (by split; exact offer_handed _ _ _; exact put_handed _ _ _)
    (handed_foldl _ (fun _ _ => by split; exact offer_handed _ _ _; exact put_handed _ _ _) _ _)

theorem report_handed (s : State) (u : Nat) (n : Health) : Handed s (s.report u n) := by
  unfold State.report
  dsimp only
  have first : Handed s ({ s with health := tput s.health u ((s.unitHealth u).enter n) }) := handed_of_same rfl rfl
  split
  · exact .refl _
  · split
    · exact ((first.trans (hist_handed _ _ _ _ _)).trans (record_handed _ _ _ _)).trans (notify_handed _ _ _)
    · exact (first.trans (hist_handed _ _ _ _ _)).trans (record_handed _ _ _ _)

theorem noteCalm_handed (s : State) : Handed s s.noteCalm := handed_of_same rfl rfl

theorem govern_handed (s : State) : Handed s s.govern := handed_of_same rfl rfl

theorem noteAttn_handed (s : State) : Handed s s.noteAttn := by
  refine ⟨fun o h => ?_, fun _ h => h, List.prefix_refl _⟩
  simp only [State.noteAttn]
  split
  · exact List.mem_append_left _ h
  · exact h

theorem settle_handed (s : State) : Handed s s.settle := by
  unfold State.settle
  split
  · exact (((govern_handed s).trans (handed_foldl _ (fun _ _ => report_handed _ _ _) _ _)).trans (noteCalm_handed _)).trans
      (noteAttn_handed _)
  · exact .refl _

end Sys2Proof.Machine
end

