-- ==== Sys2Proof/Laws/Fields.lean ====
section
/-!
SUPPORT. Little-endian fields: what is written is read back, and a field behind a prefix is the field of the rest.
-/

namespace Sys2Proof.Machine

@[simp] theorem le_length (n v : Nat) : (le n v).length = n := by
  induction n generalizing v with
  | zero => rfl
  | succ n ih => simp [le, ih]

@[simp] theorem u8_length (v : Nat) : (u8 v).length = 1 := le_length 1 v
@[simp] theorem u16_length (v : Nat) : (u16 v).length = 2 := le_length 2 v
@[simp] theorem u32_length (v : Nat) : (u32 v).length = 4 := le_length 4 v
@[simp] theorem u64_length (v : Nat) : (u64 v).length = 8 := le_length 8 v
@[simp] theorem zeros_length (n : Nat) : (zeros n).length = n := List.length_replicate
@[simp] theorem pidBytes_length (p : Pid) : (pidBytes p).length = 6 := le_length 6 _

@[simp] theorem fit_length (n : Nat) (bs : List Byte) : (fit n bs).length = n := by
  simp only [fit, List.length_append, List.length_take, zeros_length]
  omega

/-- The bytes of a number read back as the number, modulo their range. -/
theorem fromLe_le (n v : Nat) : fromLe (le n v) = v % 256 ^ n := by
  induction n generalizing v with
  | zero => simp [le, fromLe, Nat.mod_one]
  | succ n ih =>
    simp only [le, fromLe, ih, BitVec.toNat_ofNat]
    have : v % 256 ^ (n + 1) = v % 256 + 256 * (v / 256 % 256 ^ n) := by
      rw [Nat.pow_succ, Nat.mul_comm, Nat.mod_mul]
    omega

/-- A field wholly in the first part. -/
theorem fld_append_left (a b : List Byte) {off n : Nat} (h : off + n ≤ a.length) : fld (a ++ b) off n = fld a off n := by
  simp only [fld, slice]
  rw [List.drop_append_of_le_length (by omega), List.take_append_of_le_length (by simp; omega)]

/-- A field wholly in the second part. -/
theorem fld_append_right (a b : List Byte) {off n : Nat} (h : a.length ≤ off) :
    fld (a ++ b) off n = fld b (off - a.length) n := by
  simp only [fld, slice]
  rw [List.drop_append, List.drop_eq_nil_of_le h, List.nil_append]

theorem fld_le (n v : Nat) : fld (le n v) 0 n = v % 256 ^ n := by
  simp only [fld, slice, List.drop_zero]
  rw [List.take_of_length_le (by simp), fromLe_le]

/-- A number that starts the bytes. -/
theorem fld_le_append (n v : Nat) (rest : List Byte) : fld (le n v ++ rest) 0 n = v % 256 ^ n := by
  rw [fld_append_left _ _ (by simp), fld_le]

end Sys2Proof.Machine
end

