-- ==== Sys2Proof/Laws/Still.lean ====
section
/-!
SUPPORT. What no operation but a life cycle move changes: the identity, the life cycle and the queue of commands, for
the operations of every command, the output chain, the plan and the key store.
-/

set_option linter.unusedSimpArgs false
set_option linter.unnecessarySeqFocus false
set_option linter.unreachableTactic false
set_option linter.unusedTactic false

namespace Sys2Proof.Machine

/-! ## Params -/

/-- What no command but LIFECYCLE_SET changes. -/
def State.still (s : State) : Ident × Nat × List Instr := (s.id, s.ks.lifecycle, s.pending)

@[simp] theorem still_fold (s : State) : (s.id, s.ks.lifecycle, s.pending) = s.still := by rw [State.still]

theorem still_mk (id : Ident) (clk : Clock) (link : Link) (par : Params) (hl : HostLink) (health : Table UnitHealth) (plan : Plan)
    (prom : Prom) (fe : Fe) (qm : Qm) (bs : Backstep) (mesh : Mesh) (mt : Meter) (oc : Chain) (ring : Ring) (ptp : Ptp)
    (hs : Hist) (ev : Recorder) (perf : Perf) (ks : KeyStore) (up : Update) (pwr : Supervisor) (rtc : Rtc) (io : Pins)
    (out : List Out) (free : Nat) (pending : List Instr) :
    (State.mk id clk link par hl health plan prom fe qm bs mesh mt oc ring ptp hs ev perf ks up pwr rtc io out free
      pending).still = (id, ks.lifecycle, pending) := by rw [State.still]

@[simp] theorem still_foldl {α : Type} (f : State → α → State) (h : ∀ s a, (f s a).still = s.still) (l : List α) (s : State) :
    (l.foldl f s).still = s.still := by
  induction l generalizing s with
  | nil => rfl
  | cons a l ih => rw [List.foldl_cons, ih, h]

theorem still_foldl_snd {α β : Type} (f : β × State → α → β × State) (h : ∀ x a, (f x a).2.still = x.2.still) (l : List α)
    (x : β × State) : (l.foldl f x).2.still = x.2.still := by
  induction l generalizing x with
  | nil => rfl
  | cons a l ih => rw [List.foldl_cons, ih, h]

theorem still_foldl_fst {α β : Type} (f : State × β → α → State × β) (h : ∀ x a, (f x a).1.still = x.1.still) (l : List α)
    (x : State × β) : (l.foldl f x).1.still = x.1.still := by
  induction l generalizing x with
  | nil => rfl
  | cons a l ih => rw [List.foldl_cons, ih, h]

/-- The state of a pair that an equation names. -/
theorem still_snd {β : Type} {x : β × State} {b : β} {t : State} {k : Ident × Nat × List Instr} (h : x = (b, t))
    (c : x.2.still = k) : t.still = k := by rw [h] at c; exact c

theorem still_ite (c : Prop) [Decidable c] (s t : State) : (if c then s else t).still = if c then s.still else t.still := by
  split <;> rfl

/-- A result that leaves the core of `s`. -/
def Result.kept (x : Result) (s : State) : Prop :=
  match x with
  | .done _ _ t => t.still = s.still
  | .doneThen _ _ t after => t.still = s.still ∧ ∀ u, (after u).still = u.still
  | .wait t => t.still = s.still

@[simp] theorem kept_done (st : Nat) (p : List Byte) (t s : State) : (Result.done st p t).kept s ↔ t.still = s.still := Iff.rfl
@[simp] theorem kept_wait (t s : State) : (Result.wait t).kept s ↔ t.still = s.still := Iff.rfl
@[simp] theorem kept_then (st : Nat) (p : List Byte) (t : State) (f : State → State) (s : State) :
    (Result.doneThen st p t f).kept s ↔ t.still = s.still ∧ ∀ u, (f u).still = u.still := Iff.rfl
@[simp] theorem kept_ok (p : List Byte) (t s : State) : (ok p t).kept s ↔ t.still = s.still := Iff.rfl
@[simp] theorem kept_fail (st : Nat) (t s : State) : (fail st t).kept s ↔ t.still = s.still := Iff.rfl
theorem kept_of {x : Result} {s t : State} (h : x.kept s) (e : s.still = t.still) : x.kept t := by
  rcases x with _ | _ | _ <;> simp_all [Result.kept]
theorem still_open {β : Type} {x : β × State} {k : Ident × Nat × List Instr} (c : x.2.still = k) :
    ∃ b t, x = (b, t) ∧ t.still = k := ⟨x.1, x.2, Prod.mk.eta.symm, c⟩
@[simp] theorem State.setValue_still (s : State) (id : Nat) (idx : Nat) (v : PVal) :
    (State.setValue s id idx v).still = s.still := by
  simp only [State.setValue]
  (repeat' split) <;> simp [↓still_mk, ↓still_ite]

@[simp] theorem State.setCounter_still (s : State) (id : Nat) (idx : Nat) (v : Nat) :
    (State.setCounter s id idx v).still = s.still := by
  simp only [State.setCounter]
  (repeat' split) <;> simp [↓still_mk, ↓still_ite]

@[simp] theorem State.bump_still (s : State) (id : Nat) (idx : Nat) (n : Nat) :
    (State.bump s id idx n).still = s.still := by
  simp only [State.bump]
  (repeat' split) <;> simp [↓still_mk, ↓still_ite]

/-! ## Ops -/

@[simp] theorem State.enterReset_still (s : State) (k : Nat) :
    (State.enterReset s k).still = s.still := by
  simp only [State.enterReset]
  (repeat' split) <;> simp [↓still_mk, ↓still_ite]

@[simp] theorem State.draw_still (s : State) :
    (State.draw s).2.still = s.still := by
  simp only [State.draw]
  (repeat' split) <;> simp [↓still_mk, ↓still_ite]

@[simp] theorem State.perfAdd_still (s : State) (c : Nat) (n : Nat) :
    (State.perfAdd s c n).still = s.still := by
  simp only [State.perfAdd]
  (repeat' split) <;> simp [↓still_mk, ↓still_ite]

@[simp] theorem State.perfEdge_still (s : State) (event : Nat) (what : Nat) (n : Nat) :
    (State.perfEdge s event what n).still = s.still := by
  simp only [State.perfEdge]
  (repeat' split) <;> simp [↓still_mk, ↓still_ite]

@[simp] theorem State.perfPass_still (s : State) (dt : Ns) :
    (State.perfPass s dt).still = s.still := by
  simp only [State.perfPass]
  (repeat' split) <;> simp [↓still_mk, ↓still_ite]

@[simp] theorem State.meterBytes_still (s : State) (source : Nat) (dir : Nat) (n : Nat) :
    (State.meterBytes s source dir n).still = s.still := by
  simp only [State.meterBytes]
  (repeat' split) <;> simp [↓still_mk, ↓still_ite]

@[simp] theorem State.meterCheckpoint_still (s : State) (final : Bool) :
    (State.meterCheckpoint s final).still = s.still := by
  simp only [State.meterCheckpoint]
  (repeat' split) <;> simp [↓still_mk, ↓still_ite]

@[simp] theorem State.elapse_still (s : State) (dt : Ns) :
    (State.elapse s dt).still = s.still := by
  simp only [State.elapse]
  (repeat' split) <;> simp [↓still_mk, ↓still_ite]

@[simp] theorem State.gaspCopy_still (s : State) :
    (State.gaspCopy s).still = s.still := by
  simp only [State.gaspCopy]
  (repeat' split) <;> simp [↓still_mk, ↓still_ite]

@[simp] theorem State.enterHold_still (s : State) :
    (State.enterHold s).still = s.still := by
  simp only [State.enterHold]
  (repeat' split) <;> simp [↓still_mk, ↓still_ite]

@[simp] theorem State.gasp_still (s : State) (dt : Ns) :
    (State.gasp s dt).still = s.still := by
  simp only [State.gasp]
  (repeat' split) <;> simp [↓still_mk, ↓still_ite]

@[simp] theorem State.pass_still (s : State) (dt : Ns) :
    (State.pass s dt).still = s.still := by
  simp only [State.pass]
  (repeat' split) <;> simp [↓still_mk, ↓still_ite]

@[simp] theorem State.begin_still (s : State) (dt : Ns) :
    (State.begin s dt).still = s.still := by
  simp only [State.begin]
  (repeat' split) <;> simp [↓still_mk, ↓still_ite]

@[simp] theorem State.toLastGasp_still (s : State) (r : RecEntry) :
    (State.toLastGasp s r).still = s.still := by
  simp only [State.toLastGasp]
  (repeat' split) <;> simp [↓still_mk, ↓still_ite]

@[simp] theorem State.queueRecord_still (s : State) (r : RecEntry) :
    (State.queueRecord s r).still = s.still := by
  simp only [State.queueRecord]
  (repeat' split) <;> simp [↓still_mk, ↓still_ite]

@[simp] theorem State.recordAt_still (s : State) (stamp : Ns) (event : Nat) (unit : Nat) (data : List Byte) :
    (State.recordAt s stamp event unit data).still = s.still := by
  simp only [State.recordAt]
  (repeat' split) <;> simp [↓still_mk, ↓still_ite]

@[simp] theorem State.record_still (s : State) (event : Nat) (unit : Nat) (data : List Byte) :
    (State.record s event unit data).still = s.still := by
  simp only [State.record]
  (repeat' split) <;> simp [↓still_mk, ↓still_ite]

@[simp] theorem State.setPort_still (s : State) (p : Port) (r : RingPort) :
    (State.setPort s p r).still = s.still := by
  simp only [State.setPort]
  (repeat' split) <;> simp [↓still_mk, ↓still_ite]

@[simp] theorem State.portSends_still (s : State) (p : Port) (bytes : Nat) :
    (State.portSends s p bytes).still = s.still := by
  simp only [State.portSends]
  (repeat' split) <;> simp [↓still_mk, ↓still_ite]

@[simp] theorem State.ringSends_still (s : State) (bytes : Nat) :
    (State.ringSends s bytes).still = s.still := by
  simp only [State.ringSends]
  (repeat' split) <;> simp [↓still_mk, ↓still_ite]

@[simp] theorem State.hlFill_still (s : State) :
    (State.hlFill s).still = s.still := by
  simp only [State.hlFill]
  (repeat' split) <;> simp [↓still_mk, ↓still_ite]

@[simp] theorem State.send_still (s : State) (dst : Source) (express : Bool) (bytes : List Byte) :
    (State.send s dst express bytes).still = s.still := by
  simp only [State.send]
  (repeat' split) <;> simp [↓still_mk, ↓still_ite]

@[simp] theorem State.onSession_still (s : State) (ep : Endpoint) (f : Session → Session) :
    (State.onSession s ep f).still = s.still := by
  simp only [State.onSession]
  (repeat' split) <;> simp [↓still_mk, ↓still_ite]

@[simp] theorem State.sendNotices_still (s : State) (ep : Endpoint) (n : Nat) :
    (State.sendNotices s ep n).still = s.still := by
  simp only [State.sendNotices]
  (repeat' split) <;> simp [↓still_mk, ↓still_ite]

@[simp] theorem State.noticeTo_still (s : State) (ep : Endpoint) (opcode : Nat) (payload : List Byte) :
    (State.noticeTo s ep opcode payload).still = s.still := by
  simp only [State.noticeTo]
  (repeat' split) <;> simp [↓still_mk, ↓still_ite]

@[simp] theorem State.notify_still (s : State) (opcode : Nat) (payload : List Byte) :
    (State.notify s opcode payload).still = s.still := by
  simp only [State.notify]
  (repeat' split) <;> simp [↓still_mk, ↓still_ite]

@[simp] theorem State.raise_still (s : State) (opcode : Nat) (unit : Nat) (payload : List Byte) :
    (State.raise s opcode unit payload).still = s.still := by
  simp only [State.raise]
  (repeat' split) <;> simp [↓still_mk, ↓still_ite]

/-! ## Queues -/

@[simp] theorem State.setQueue_still (s : State) (q : Nat) (x : Queue) :
    (State.setQueue s q x).still = s.still := by
  simp only [State.setQueue]
  (repeat' split) <;> simp [↓still_mk, ↓still_ite]

@[simp] theorem State.queueLevel_still (s : State) (q : Nat) :
    (State.queueLevel s q).still = s.still := by
  simp only [State.queueLevel]
  (repeat' split) <;> simp [↓still_mk, ↓still_ite]

@[simp] theorem State.crossed_still (s : State) (q : Nat) (d : Nat) :
    (State.crossed s q d).still = s.still := by
  simp only [State.crossed]
  (repeat' split) <;> simp [↓still_mk, ↓still_ite]

@[simp] theorem State.put_still (s : State) (q : Nat) (it : Item) :
    (State.put s q it).still = s.still := by
  simp only [State.put]
  (repeat' split) <;> simp [↓still_mk, ↓still_ite]

@[simp] theorem State.offer_still (s : State) (q : Nat) (it : Item) :
    (State.offer s q it).still = s.still := by
  simp only [State.offer]
  (repeat' split) <;> simp [↓still_mk, ↓still_ite]

@[simp] theorem State.pop_still (s : State) (q : Nat) :
    (State.pop s q).2.still = s.still := by
  simp only [State.pop]
  (repeat' split) <;> simp [↓still_mk, ↓still_ite]

@[simp] theorem State.take_still (s : State) (q : Nat) (i : Nat) :
    (State.take s q i).still = s.still := by
  simp only [State.take]
  (repeat' split) <;> simp [↓still_mk, ↓still_ite]

@[simp] theorem State.coincide_still (s : State) (q : Nat) (it : Item) :
    (State.coincide s q it).still = s.still := by
  simp only [State.coincide]
  (repeat' split) <;> simp [↓still_mk, ↓still_ite]

@[simp] theorem State.arbitrate_still (s : State) (q : Nat) (reqs : List QueueReq) :
    (State.arbitrate s q reqs).still = s.still := by
  simp only [State.arbitrate]
  (repeat' split) <;> simp [↓still_mk, ↓still_ite]

@[simp] theorem State.retireCell_still (s : State) (c : Nat) :
    (State.retireCell s c).still = s.still := by
  simp only [State.retireCell]
  (repeat' split) <;> simp [↓still_mk, ↓still_ite]

@[simp] theorem State.cellError_still (s : State) (x : CellError) :
    (State.cellError s x).still = s.still := by
  simp only [State.cellError]
  (repeat' split) <;> simp [↓still_mk, ↓still_ite]

@[simp] theorem State.cellErrors_still (s : State) (l : List CellError) :
    (State.cellErrors s l).still = s.still := by
  simp only [State.cellErrors]
  (repeat' split) <;> simp [↓still_mk, ↓still_ite]

@[simp] theorem State.purge_still (s : State) (q : Nat) (p : Item → Bool) :
    (State.purge s q p).still = s.still := by
  simp only [State.purge]
  (repeat' split) <;> simp [↓still_mk, ↓still_ite]

@[simp] theorem State.latchHorizon_still (s : State) :
    (State.latchHorizon s).still = s.still := by
  simp only [State.latchHorizon]
  (repeat' split) <;> simp [↓still_mk, ↓still_ite]

@[simp] theorem State.unclaim_still (s : State) (q : Nat) (n : Nat) :
    (State.unclaim s q n).still = s.still := by
  simp only [State.unclaim]
  (repeat' split) <;> simp [↓still_mk, ↓still_ite]

@[simp] theorem State.feed_still (s : State) (q : Nat) (flow : Nat) (origin : Ns) (body : Body) :
    (State.feed s q flow origin body).still = s.still := by
  simp only [State.feed]
  (repeat' split) <;> simp [↓still_mk, ↓still_ite]

@[simp] theorem State.histFrom_still (s : State) (graph : Nat) (flow : Nat) (r : HistRec) :
    (State.histFrom s graph flow r).still = s.still := by
  simp only [State.histFrom]
  (repeat' split) <;> simp [↓still_mk, ↓still_ite]

@[simp] theorem State.hist_still (s : State) (stamp : Ns) (place : Pid) (type : Nat) (body : List Byte) :
    (State.hist s stamp place type body).still = s.still := by
  simp only [State.hist]
  (repeat' split) <;> simp [↓still_mk, ↓still_ite]

/-! ## Flags -/

@[simp] theorem State.govern_still (s : State) :
    (State.govern s).still = s.still := by
  simp only [State.govern]
  (repeat' split) <;> simp [↓still_mk, ↓still_ite]

@[simp] theorem State.report_still (s : State) (u : Nat) (n : Health) :
    (State.report s u n).still = s.still := by
  simp only [State.report]
  (repeat' split) <;> simp [↓still_mk, ↓still_ite]

@[simp] theorem State.noteCalm_still (s : State) :
    (State.noteCalm s).still = s.still := by
  simp only [State.noteCalm]
  (repeat' split) <;> simp [↓still_mk, ↓still_ite]

@[simp] theorem State.noteAttn_still (s : State) :
    (State.noteAttn s).still = s.still := by
  simp only [State.noteAttn]
  (repeat' split) <;> simp [↓still_mk, ↓still_ite]

@[simp] theorem State.settle_still (s : State) :
    (State.settle s).still = s.still := by
  simp only [State.settle]
  (repeat' split) <;> simp [↓still_mk, ↓still_ite]

/-! ## Link -/

@[simp] theorem State.respond_still (s : State) (dst : Source) (lane : Nat) (seq : Seq32) (opcode : Nat) (flags : Nat) (status : Nat) (payload : List Byte) :
    (State.respond s dst lane seq opcode flags status payload).still = s.still := by
  simp only [State.respond]
  (repeat' split) <;> simp [↓still_mk, ↓still_ite]

@[simp] theorem State.respondBusy_still (s : State) (dst : Source) (lane : Nat) (seq : Seq32) (opcode : Nat) :
    (State.respondBusy s dst lane seq opcode).still = s.still := by
  simp only [State.respondBusy]
  (repeat' split) <;> simp [↓still_mk, ↓still_ite]

@[simp] theorem State.respondSwitch_still (s : State) (dst : Source) (lane : Nat) (seq : Seq32) (opcode : Nat) :
    (State.respondSwitch s dst lane seq opcode).still = s.still := by
  unfold State.respondSwitch
  exact State.respond_still ..

@[simp] theorem State.openSession_still (s : State) (src : Source) :
    (State.openSession s src).still = s.still := by
  simp only [State.openSession]
  (repeat' split) <;> simp [↓still_mk, ↓still_ite]

@[simp] theorem State.forgetWaiters_still (s : State) (ep : Endpoint) :
    (State.forgetWaiters s ep).still = s.still := by
  simp only [State.forgetWaiters]
  (repeat' split) <;> simp [↓still_mk, ↓still_ite]

@[simp] theorem State.lapse_still (s : State) (ep : Endpoint) :
    (State.lapse s ep).still = s.still := by
  simp only [State.lapse]
  (repeat' split) <;> simp [↓still_mk, ↓still_ite]

@[simp] theorem State.setLane_still (s : State) (ep : Endpoint) (n : Nat) (l : Lane) :
    (State.setLane s ep n l).still = s.still := by
  simp only [State.setLane]
  (repeat' split) <;> simp [↓still_mk, ↓still_ite]

@[simp] theorem State.touch_still (s : State) (src : Source) :
    (State.touch s src).still = s.still := by
  simp only [State.touch]
  (repeat' split) <;> simp [↓still_mk, ↓still_ite]

@[simp] theorem State.supersede_still (s : State) :
    (State.supersede s).still = s.still := by
  simp only [State.supersede]
  (repeat' split) <;> simp [↓still_mk, ↓still_ite]

@[simp] theorem State.unstage_still (s : State) :
    (State.unstage s).still = s.still := by
  simp only [State.unstage]
  (repeat' split) <;> simp [↓still_mk, ↓still_ite]

@[simp] theorem State.occupy_still (s : State) (c : Command) (r : Req) :
    (State.occupy s c r).still = s.still := by
  simp only [State.occupy]
  (repeat' split) <;> simp [↓still_mk, ↓still_ite]

@[simp] theorem State.unheard_still (s : State) (src : Source) :
    (State.unheard s src).still = s.still := by
  simp only [State.unheard]
  (repeat' split) <;> simp [↓still_mk, ↓still_ite]

@[simp] theorem State.countRetry_still (s : State) (r : Req) :
    (State.countRetry s r).still = s.still := by
  simp only [State.countRetry]
  (repeat' split) <;> simp [↓still_mk, ↓still_ite]

@[simp] theorem State.sessionHears_still (s : State) (r : Req) :
    (State.sessionHears s r).still = s.still := by
  simp only [State.sessionHears]
  (repeat' split) <;> simp [↓still_mk, ↓still_ite]

@[simp] theorem State.finish_still (s : State) (ep : Endpoint) (n : Nat) (status : Nat) (payload : List Byte) :
    (State.finish s ep n status payload).still = s.still := by
  simp only [State.finish]
  (repeat' split) <;> simp [↓still_mk, ↓still_ite]

/-! ## Chain -/

@[simp] theorem State.onCircuit_still (s : State) (c : Nat) (f : ChainCircuit → ChainCircuit) :
    (State.onCircuit s c f).still = s.still := by
  simp only [State.onCircuit]
  (repeat' split) <;> simp [↓still_mk, ↓still_ite]

@[simp] theorem State.switch_still (s : State) (c : Nat) (on : Bool) :
    (State.switch s c on).still = s.still := by
  simp only [State.switch]
  (repeat' split) <;> simp [↓still_mk, ↓still_ite]

@[simp] theorem State.follow_still (s : State) (c : Nat) :
    (State.follow s c).still = s.still := by
  simp only [State.follow]
  (repeat' split) <;> simp [↓still_mk, ↓still_ite]

@[simp] theorem State.followAll_still (s : State) :
    (State.followAll s).still = s.still := by
  simp only [State.followAll]
  (repeat' split) <;> simp [↓still_mk, ↓still_ite]

@[simp] theorem State.demandNow_still (s : State) (c : Nat) :
    (State.demandNow s c).still = s.still := by
  simp only [State.demandNow]
  (repeat' split) <;> simp [↓still_mk, ↓still_ite]

@[simp] theorem State.demandAll_still (s : State) :
    (State.demandAll s).still = s.still := by
  simp only [State.demandAll]
  (repeat' split) <;> simp [↓still_mk, ↓still_ite]

@[simp] theorem State.startForce_still (s : State) (c : Nat) (f : Force) :
    (State.startForce s c f).still = s.still := by
  simp only [State.startForce]
  (repeat' split) <;> simp [↓still_mk, ↓still_ite]

@[simp] theorem circuitForceBody_still (r : Req) (s : State) :
    (circuitForceBody r s).kept s := by
  simp only [circuitForceBody]
  (repeat' split) <;> simp [↓still_mk, ↓still_ite]

@[simp] theorem circuitStatusBody_still (x0 : Req) (s : State) :
    (circuitStatusBody x0 s).kept s := by
  simp only [circuitStatusBody]
  (repeat' split) <;> simp [↓still_mk, ↓still_ite]

@[simp] theorem latchStatusBody_still (x0 : Req) (s : State) :
    (latchStatusBody x0 s).kept s := by
  simp only [latchStatusBody]
  (repeat' split) <;> simp [↓still_mk, ↓still_ite]

@[simp] theorem State.judge_still (s : State) (l : Nat) (w : BitVec 128) :
    (State.judge s l w).still = s.still := by
  simp only [State.judge]
  (repeat' split) <;> simp [↓still_mk, ↓still_ite]

@[simp] theorem State.adoptSensed_still (s : State) :
    (State.adoptSensed s).still = s.still := by
  simp only [State.adoptSensed]
  (repeat' split) <;> simp [↓still_mk, ↓still_ite]

@[simp] theorem State.chainCycle_still (s : State) (words : List (BitVec 128)) :
    (State.chainCycle s words).still = s.still := by
  simp only [State.chainCycle]
  (repeat' split) <;> simp [↓still_mk, ↓still_ite]

/-! ## PlanOps -/

@[simp] theorem State.putNode_still (s : State) (n : Node) :
    (State.putNode s n).still = s.still := by
  simp only [State.putNode]
  (repeat' split) <;> simp [↓still_mk, ↓still_ite]

@[simp] theorem State.push03_still (s : State) (graph : Nat) (flow : Nat) (origin : Ns) (c : DriveCmd) :
    (State.push03 s graph flow origin c).still = s.still := by
  simp only [State.push03]
  (repeat' split) <;> simp [↓still_mk, ↓still_ite]

@[simp] theorem State.setLive_still (s : State) (l : List DriveCmd) :
    (State.setLive s l).still = s.still := by
  simp only [State.setLive]
  (repeat' split) <;> simp [↓still_mk, ↓still_ite]

@[simp] theorem State.revise_still (s : State) (graph : Nat) (flow : Nat) (origin : Ns) (old : DriveCmd) (new : DriveCmd) :
    (State.revise s graph flow origin old new).still = s.still := by
  simp only [State.revise]
  (repeat' split) <;> simp [↓still_mk, ↓still_ite]

@[simp] theorem State.reviseLater_still (s : State) (graph : Nat) (flow : Nat) (origin : Ns) (p : Pid) :
    (State.reviseLater s graph flow origin p).still = s.still := by
  simp only [State.reviseLater]
  split
  · rfl
  · refine still_foldl _ (fun _ _ => ?_) _ _
    (repeat' split) <;> simp [↓still_mk, ↓still_ite]

@[simp] theorem State.issue_still (s : State) (graph : Nat) (flow : Nat) (origin : Ns) (c : DriveCmd) :
    (State.issue s graph flow origin c).still = s.still := by
  simp only [State.issue]
  (repeat' split) <;> simp [↓still_mk, ↓still_ite]

@[simp] theorem State.noteMoved_still (s : State) (p : Pid) (asked : Ns) (given : Ns) :
    (State.noteMoved s p asked given).still = s.still := by
  simp only [State.noteMoved]
  (repeat' split) <;> simp [↓still_mk, ↓still_ite]

@[simp] theorem State.emitGood_still (s : State) (graph : Nat) (flow : Nat) (origin : Ns) (want : DriveCmd) :
    (State.emitGood s graph flow origin want).1.still = s.still := by
  simp only [State.emitGood]
  (repeat' split) <;> simp [↓still_mk, ↓still_ite]

@[simp] theorem State.planLate_still (s : State) (discarded : Nat) (recovered : Nat) :
    (State.planLate s discarded recovered).still = s.still := by
  simp only [State.planLate]
  (repeat' split) <;> simp [↓still_mk, ↓still_ite]

@[simp] theorem State.recover_still (s : State) (p : Pid) :
    (State.recover s p).still = s.still := by
  simp only [State.recover]
  (repeat' split) <;> simp [↓still_mk, ↓still_ite]

@[simp] theorem State.discarded_still (s : State) (c : DriveCmd) :
    (State.discarded s c).still = s.still := by
  simp only [State.discarded]
  (repeat' split) <;> simp [↓still_mk, ↓still_ite]

@[simp] theorem State.emit_still (s : State) (graph : Nat) (flow : Nat) (origin : Ns) (want : DriveCmd) :
    (State.emit s graph flow origin want).1.still = s.still := by
  simp only [State.emit]
  (repeat' split) <;> simp [↓still_mk, ↓still_ite]

@[simp] theorem State.coreDrainFrom_still (s : State) (l : List DriveCmd) :
    (State.coreDrainFrom s l).still = s.still := by
  induction l generalizing s with
  | nil => rfl
  | cons c rest ih =>
    simp only [State.coreDrainFrom]
    (repeat' split) <;> simp [↓still_mk, ↓still_ite, ih]

@[simp] theorem State.coreDrain_still (s : State) :
    (State.coreDrain s).still = s.still := by
  simp only [State.coreDrain]
  (repeat' split) <;> simp [↓still_mk, ↓still_ite]

@[simp] theorem State.coreTakes_still (s : State) (cs : List DriveCmd) :
    (State.coreTakes s cs).still = s.still := by
  simp only [State.coreTakes]
  (repeat' split) <;> simp [↓still_mk, ↓still_ite]

@[simp] theorem State.answerHeld_still (s : State) (w : Option (Endpoint × Nat × List Byte)) :
    (State.answerHeld s w).still = s.still := by
  simp only [State.answerHeld]
  (repeat' split) <;> simp [↓still_mk, ↓still_ite]

@[simp] theorem State.refillFrom_still (s : State) (l : List (Item × Option (Endpoint × Nat × List Byte))) :
    (State.refillFrom s l).still = s.still := by
  induction l generalizing s with
  | nil => simp [State.refillFrom, ↓still_mk]
  | cons a l ih =>
    obtain ⟨it, w⟩ := a
    simp only [State.refillFrom]
    split
    · simp [↓still_mk]
    · rw [ih]; split <;> simp

@[simp] theorem State.refill_still (s : State) :
    (State.refill s).still = s.still := by
  simp only [State.refill]
  (repeat' split) <;> simp [↓still_mk, ↓still_ite]

@[simp] theorem State.planChange_still (s : State) (cs : List DriveCmd) (waiter : Option (Endpoint × Nat × List Byte)) :
    (State.planChange s cs waiter).still = s.still := by
  simp only [State.planChange]
  (repeat' split) <;> simp [↓still_mk, ↓still_ite]

@[simp] theorem State.planAnswer_still (s : State) (r : Req) (cs : List DriveCmd) (payload : List Byte) :
    (State.planAnswer s r cs payload).kept s := by
  simp only [State.planAnswer]
  (repeat' split) <;> simp [↓still_mk, ↓still_ite]

@[simp] theorem State.relaunch_still (s : State) (ps : List Pid) (launch : Ns) (source : Nat) :
    (State.relaunch s ps launch source).still = s.still := by
  simp only [State.relaunch]
  (repeat' split) <;> simp [↓still_mk, ↓still_ite]

@[simp] theorem State.relaunchSoon_still (s : State) (ps : List Pid) (source : Nat) :
    (State.relaunchSoon s ps source).still = s.still := by
  simp only [State.relaunchSoon]
  (repeat' split) <;> simp [↓still_mk, ↓still_ite]

@[simp] theorem State.relaunchAnswer_still (s : State) (r : Req) (ps : List Pid) (payload : List Byte) :
    (State.relaunchAnswer s r ps payload).kept s := by
  simp only [State.relaunchAnswer]
  (repeat' split) <;> simp [↓still_mk, ↓still_ite]

@[simp] theorem State.resolved_still (s : State) (day : Int) :
    (State.resolved s day).2.still = s.still := by
  simp only [State.resolved]
  (repeat' split) <;> simp [↓still_mk, ↓still_ite]

@[simp] theorem State.resolveNights_still (s : State) :
    (State.resolveNights s).still = s.still := by
  simp only [State.resolveNights]
  (repeat' split) <;> simp [↓still_mk, ↓still_ite]

@[simp] theorem State.issuePlan_still (s : State) (t : Ns) :
    (State.issuePlan s t).still = s.still := by
  simp only [State.issuePlan]
  (repeat' split) <;> simp [↓still_mk, ↓still_ite]

@[simp] theorem State.floorExempt_still (s : State) (o : Override) (edge : Nat) :
    (State.floorExempt s o edge).still = s.still := by
  simp only [State.floorExempt]
  (repeat' split) <;> simp [↓still_mk, ↓still_ite]

@[simp] theorem State.onOverride_still (s : State) (handle : Nat) (start : Nat) (f : Override → Override) :
    (State.onOverride s handle start f).still = s.still := by
  simp only [State.onOverride]
  (repeat' split) <;> simp [↓still_mk, ↓still_ite]

@[simp] theorem State.channelState_still (s : State) (p : Pid) (ch : Nat) (new : Nat) :
    (State.channelState s p ch new).still = s.still := by
  simp only [State.channelState]
  (repeat' split) <;> simp [↓still_mk, ↓still_ite]

@[simp] theorem State.testResult_still (s : State) (p : Pid) (ch : Nat) (isOpen : Bool) (stamp : Ns) :
    (State.testResult s p ch isOpen stamp).still = s.still := by
  simp only [State.testResult]
  (repeat' split) <;> simp [↓still_mk, ↓still_ite]

/-! ## Keys -/

@[simp] theorem State.onSlot_still (s : State) (i : Nat) (f : KeySlot → KeySlot) :
    (State.onSlot s i f).still = s.still := by
  simp only [State.onSlot]
  (repeat' split) <;> simp [↓still_mk, ↓still_ite]

@[simp] theorem State.keyChanged_still (s : State) (i : Nat) (old : Nat) (new : Nat) (cause : Nat) :
    (State.keyChanged s i old new cause).still = s.still := by
  simp only [State.keyChanged]
  (repeat' split) <;> simp [↓still_mk, ↓still_ite]

@[simp] theorem State.changeSlot_still (s : State) (i : Nat) (cause : Nat) (f : KeySlot → KeySlot) :
    (State.changeSlot s i cause f).still = s.still := by
  simp only [State.changeSlot]
  (repeat' split) <;> simp [↓still_mk, ↓still_ite]

@[simp] theorem State.writeSlot_still (s : State) (i : Nat) (cause : Nat) (r : KeyRecord) :
    (State.writeSlot s i cause r).still = s.still := by
  simp only [State.writeSlot]
  (repeat' split) <;> simp [↓still_mk, ↓still_ite]

@[simp] theorem State.eraseSlot_still (s : State) (i : Nat) (cause : Nat) :
    (State.eraseSlot s i cause).still = s.still := by
  simp only [State.eraseSlot]
  (repeat' split) <;> simp [↓still_mk, ↓still_ite]

@[simp] theorem State.invoke_still (s : State) (i : Nat) (master : Nat) :
    (State.invoke s i master).2.still = s.still := by
  simp only [State.invoke]
  (repeat' split) <;> simp [↓still_mk, ↓still_ite]

@[simp] theorem keyWait_still (s : State) :
    (keyWait s).kept s := by
  simp only [keyWait]
  (repeat' split) <;> simp [↓still_mk, ↓still_ite]

theorem kept_gate (s : State) (r : Req) (f : Unit → Result) (h : ∀ u, (f u).kept s) : (s.keyGate r f).kept s := by
  simp only [State.keyGate]
  (repeat' split) <;> first | exact h () | simp

@[simp] theorem keyWriteBody_still (r : Req) (s : State) :
    (keyWriteBody r s).kept s := by
  unfold keyWriteBody
  refine kept_gate _ _ _ fun u => ?_
  (repeat' split) <;> simp [↓still_mk, ↓still_ite]

@[simp] theorem keyEraseBody_still (r : Req) (s : State) :
    (keyEraseBody r s).kept s := by
  unfold keyEraseBody
  refine kept_gate _ _ _ fun u => ?_
  (repeat' split) <;> simp [↓still_mk, ↓still_ite]

@[simp] theorem keyDisableBody_still (r : Req) (s : State) :
    (keyDisableBody r s).kept s := by
  unfold keyDisableBody
  refine kept_gate _ _ _ fun u => ?_
  (repeat' split) <;> simp [↓still_mk, ↓still_ite]

@[simp] theorem keyDeriveBody_still (r : Req) (s : State) :
    (keyDeriveBody r s).kept s := by
  unfold keyDeriveBody
  refine kept_gate _ _ _ fun u => ?_
  (repeat' split) <;> simp [↓still_mk, ↓still_ite]

@[simp] theorem keyStatusBody_still (x0 : Req) (s : State) :
    (keyStatusBody x0 s).kept s := by
  simp only [keyStatusBody]
  (repeat' split) <;> simp [↓still_mk, ↓still_ite]

@[simp] theorem attestBody_still (r : Req) (s : State) :
    (attestBody r s).kept s := by
  simp only [attestBody]
  (repeat' split) <;> simp [↓still_mk, ↓still_ite]

@[simp] theorem State.retireKeys_still (s : State) :
    (State.retireKeys s).still = s.still := by
  simp only [State.retireKeys]
  (repeat' split) <;> simp [↓still_mk, ↓still_ite]

@[simp] theorem State.shuffled_still (s : State) (masks : List (List Byte)) :
    (State.shuffled s masks).still = s.still := by
  simp only [State.shuffled]
  (repeat' split) <;> simp [↓still_mk, ↓still_ite]

end Sys2Proof.Machine
end

