-- ==== Sys2Proof/Laws/StillRoad.lean ====
section
/-!
SUPPORT. What no operation but a life cycle move changes: the identity, the life cycle and the queue of commands, for
the radio, metering, Promenade and Backstep operations, the engines and the graphs.
-/

set_option linter.unusedSimpArgs false
set_option linter.unnecessarySeqFocus false
set_option linter.unreachableTactic false
set_option linter.unusedTactic false

namespace Sys2Proof.Machine

/-! ## MeshOps -/

@[simp] theorem State.setTimeBase_still (s : State) (t : Ns) :
    (State.setTimeBase s t).still = s.still := by
  simp only [State.setTimeBase]
  (repeat' split) <;> simp [↓still_mk, ↓still_ite]

@[simp] theorem State.freshRadios_still (s : State) :
    (State.freshRadios s).still = s.still := by
  simp only [State.freshRadios]
  (repeat' split) <;> simp [↓still_mk, ↓still_ite]

@[simp] theorem State.onNode_still (s : State) (e : Eui) (f : Node → Node) :
    (State.onNode s e f).still = s.still := by
  simp only [State.onNode]
  (repeat' split) <;> simp [↓still_mk, ↓still_ite]

@[simp] theorem State.nodeState_still (s : State) (e : Eui) (new : Nat) :
    (State.nodeState s e new).still = s.still := by
  simp only [State.nodeState]
  (repeat' split) <;> simp [↓still_mk, ↓still_ite]

@[simp] theorem State.nodeKey_still (s : State) (e : Eui) :
    (State.nodeKey s e).2.still = s.still := by
  simp only [State.nodeKey]
  (repeat' split) <;> simp [↓still_mk, ↓still_ite]

@[simp] theorem State.onRadio_still (s : State) (r : Nat) (f : Radio → Radio) :
    (State.onRadio s r f).still = s.still := by
  simp only [State.onRadio]
  (repeat' split) <;> simp [↓still_mk, ↓still_ite]

@[simp] theorem State.transmit_still (s : State) (r : Nat) (octets : Nat) (ack : Bool) :
    (State.transmit s r octets ack).still = s.still := by
  simp only [State.transmit]
  (repeat' split) <;> simp [↓still_mk, ↓still_ite]

@[simp] theorem State.useCell_still (s : State) (r : Nat) (busy : Bool) (octets : Nat) (kind : Nat) :
    (State.useCell s r busy octets kind).2.still = s.still := by
  simp only [State.useCell]
  (repeat' split) <;> simp [↓still_mk, ↓still_ite]

@[simp] theorem State.meshLoad_still (s : State) (withheld : Nat) (dups : Nat) (replays : Nat) :
    (State.meshLoad s withheld dups replays).still = s.still := by
  simp only [State.meshLoad]
  (repeat' split) <;> simp [↓still_mk, ↓still_ite]

@[simp] theorem State.scheduleFor_still (s : State) (n : Node) :
    (State.scheduleFor s n).2.still = s.still := by
  simp only [State.scheduleFor]
  (repeat' split) <;> simp [↓still_mk, ↓still_ite]

@[simp] theorem State.pushOther_still (s : State) (p : OtherPdu) :
    (State.pushOther s p).still = s.still := by
  simp only [State.pushOther]
  (repeat' split) <;> simp [↓still_mk, ↓still_ite]

@[simp] theorem State.makePdu_still (s : State) (e : Eui) (node : Nat) (enc : Bool) (elements : List Byte) :
    (State.makePdu s e node enc elements).2.still = s.still := by
  have c := State.nodeKey_still s e
  simp only [State.makePdu]
  generalize s.nodeKey e = k at c
  rcases k with ⟨k, u⟩
  rcases k <;> simpa [↓still_mk] using c

@[simp] theorem State.delivered_still (s : State) (f : Flight) :
    (State.delivered s f).still = s.still := by
  simp only [State.delivered]
  (repeat' split) <;> simp [↓still_mk, ↓still_ite]

/-! ## Recon -/

@[simp] theorem State.setMap_still (s : State) (t : Table Pid) :
    (State.setMap s t).still = s.still := by
  simp only [State.setMap]
  (repeat' split) <;> simp [↓still_mk, ↓still_ite]

@[simp] theorem State.pointWindow_still (s : State) (n : Node) (w : Ns) (t : Ns) :
    (State.pointWindow s n w t).2.still = s.still := by
  simp only [State.pointWindow]
  (repeat' split) <;> simp [↓still_mk, ↓still_ite]

@[simp] theorem State.pointWindows_still (s : State) (ns : List Node) (w : Ns) (t : Ns) :
    (State.pointWindows s ns w t).2.still = s.still := by
  exact still_foldl_snd _ (fun x a => by simp) _ _

@[simp] theorem State.fitSpan_still (s : State) (rs : List (Pid × Rat)) (even : Rat) (a : Pid) (b : Option Pid) :
    (State.fitSpan s rs even a b).2.still = s.still := by
  simp only [State.fitSpan]
  (repeat' split) <;> simp [↓still_mk, ↓still_ite]

@[simp] theorem State.localise_still (s : State) (c : Nat) (ps : List PointWindow) (v0 : Rat) (even : Rat) (x : Recon) :
    (State.localise s c ps v0 even x).2.still = s.still := by
  have h : ((s.mt.candidates c).foldl (fun (acc : List Fit × State) e =>
      let f := acc.2.fitSpan (s.residuals ps v0) even e.1 e.2; (acc.1 ++ [f.1], f.2)) (([] : List Fit), s)).2.still = s.still :=
    still_foldl_snd _ (fun x a => by simp) _ _
  simp only [State.localise]
  (repeat' split) <;> exact h

@[simp] theorem State.setMetered_still (s : State) (c : Nat) (x : MeterCircuit) :
    (State.setMetered s c x).still = s.still := by
  simp only [State.setMetered]
  (repeat' split) <;> simp [↓still_mk, ↓still_ite]

@[simp] theorem State.setRecon_still (s : State) (c : Nat) (x : Recon) :
    (State.setRecon s c x).still = s.still := by
  simp only [State.setRecon]
  (repeat' split) <;> simp [↓still_mk, ↓still_ite]

@[simp] theorem State.reconTold_still (s : State) (c : Nat) (x : Recon) (tell : Bool) :
    (State.reconTold s c x tell).still = s.still := by
  simp only [State.reconTold]
  (repeat' split) <;> simp [↓still_mk, ↓still_ite]

@[simp] theorem State.judgeWindow_still (s : State) (c : Nat) (a : WindowEnd) (b : WindowEnd) :
    (State.judgeWindow s c a b).still = s.still := by
  simp only [State.judgeWindow]
  (repeat' split) <;> simp [↓still_mk, ↓still_ite]

@[simp] theorem State.judgeReady_still (s : State) (c : Nat) (late : Bool) :
    (State.judgeReady s c late).still = s.still := by
  simp only [State.judgeReady]
  (repeat' split) <;> simp [↓still_mk, ↓still_ite]

@[simp] theorem State.energyReport_still (s : State) (n : Node) (mesh : Ns) (mwh : Nat) (v : Nat) :
    (State.energyReport s n mesh mwh v).still = s.still := by
  simp only [State.energyReport]
  (repeat' split) <;> simp [↓still_mk, ↓still_ite]

/-! ## MeterOps -/

@[simp] theorem State.thd_still (s : State) (sum2 : Nat) (h : Nat) :
    (State.thd s sum2 h).2.still = s.still := by
  simp only [State.thd]
  (repeat' split) <;> simp [↓still_mk, ↓still_ite]

@[simp] theorem State.pushSummary_still (s : State) (c : Nat) :
    (State.pushSummary s c).still = s.still := by
  simp only [State.pushSummary]
  (repeat' split) <;> simp [↓still_mk, ↓still_ite]

@[simp] theorem State.setConverter_still (s : State) (k : Nat) (x : Converter) :
    (State.setConverter s k x).still = s.still := by
  simp only [State.setConverter]
  (repeat' split) <;> simp [↓still_mk, ↓still_ite]

@[simp] theorem State.startCal_still (s : State) (k : Nat) (forced : Bool) :
    (State.startCal s k forced).still = s.still := by
  simp only [State.startCal]
  (repeat' split) <;> simp [↓still_mk, ↓still_ite]

@[simp] theorem State.failConverter_still (s : State) (k : Nat) :
    (State.failConverter s k).still = s.still := by
  simp only [State.failConverter]
  (repeat' split) <;> simp [↓still_mk, ↓still_ite]

@[simp] theorem State.stepCal_still (s : State) (k : Nat) (fails : Bool) :
    (State.stepCal s k fails).still = s.still := by
  simp only [State.stepCal]
  (repeat' split) <;> simp [↓still_mk, ↓still_ite]

@[simp] theorem State.boundaries_still (s : State) (c : Nat) :
    (State.boundaries s c).still = s.still := by
  simp only [State.boundaries]
  (repeat' split) <;> simp [↓still_mk, ↓still_ite]

@[simp] theorem State.powerFactor_still (s : State) (p : Int) (v2 : Nat) (i2 : Nat) :
    (State.powerFactor s p v2 i2).2.still = s.still := by
  simp only [State.powerFactor]
  (repeat' split) <;> simp [↓still_mk, ↓still_ite]

@[simp] theorem State.measure_still (s : State) (c : Nat) (volts : List Int) (amps : List Int) (t : Ns) :
    (State.measure s c volts amps t).2.2.still = s.still := by
  simp only [State.measure]
  (repeat' split) <;> simp [↓still_mk, ↓still_ite]

@[simp] theorem State.measureCircuit_still (s : State) (c : Nat) (x : CycleData) (volts : List Int) (t : Ns) (noSync : Bool) :
    (State.measureCircuit s c x volts t noSync).still = s.still := by
  simp only [State.measureCircuit]
  (repeat' split) <;> simp [↓still_mk, ↓still_ite]

@[simp] theorem State.meterCycle_still (s : State) (input : Nat) (x : CycleData) :
    (State.meterCycle s input x).still = s.still := by
  simp only [State.meterCycle]
  (repeat' split) <;> simp [↓still_mk, ↓still_ite]

@[simp] theorem State.pqRaise_still (s : State) (e : PqEvent) :
    (State.pqRaise s e).still = s.still := by
  simp only [State.pqRaise]
  (repeat' split) <;> simp [↓still_mk, ↓still_ite]

@[simp] theorem State.pqKind_still (s : State) (kind : Nat) :
    (State.pqKind s kind).still = s.still := by
  simp only [State.pqKind]
  (repeat' split) <;> simp [↓still_mk, ↓still_ite]

@[simp] theorem State.halfCycle_still (s : State) (windows : List HalfWindow) :
    (State.halfCycle s windows).still = s.still := by
  simp only [State.halfCycle]
  (repeat' split) <;> simp [↓still_mk, ↓still_ite]

@[simp] theorem State.ledgerHand_still (s : State) :
    (State.ledgerHand s).still = s.still := by
  simp only [State.ledgerHand]
  (repeat' split) <;> simp [↓still_mk, ↓still_ite]

@[simp] theorem State.meterRestore_still (s : State) (bad : List Nat) :
    (State.meterRestore s bad).still = s.still := by
  simp only [State.meterRestore]
  (repeat' split) <;> simp [↓still_mk, ↓still_ite]

/-! ## PromOps -/

@[simp] theorem State.setPeerLane_still (s : State) (l : PeerLane) :
    (State.setPeerLane s l).still = s.still := by
  simp only [State.setPeerLane]
  (repeat' split) <;> simp [↓still_mk, ↓still_ite]

@[simp] theorem State.peerPut_still (s : State) (l : PeerLane) (opcode : Nat) (payload : List Byte) (handover : Option Nat) :
    (State.peerPut s l opcode payload handover).still = s.still := by
  simp only [State.peerPut]
  (repeat' split) <;> simp [↓still_mk, ↓still_ite]

@[simp] theorem State.flushPeersFrom_still (s : State) (l : List Item) :
    (State.flushPeersFrom s l).still = s.still := by
  induction l generalizing s with
  | nil => rfl
  | cons it l ih =>
    simp only [State.flushPeersFrom]
    rw [ih]
    (repeat' split) <;> simp [↓still_mk, ↓still_ite]

@[simp] theorem State.flushPeers_still (s : State) :
    (State.flushPeers s).still = s.still := by
  simp only [State.flushPeers]
  (repeat' split) <;> first
    | (simp [↓still_mk, ↓still_ite]; done)
    | (refine still_foldl _ (fun _ _ => ?_) _ _; (repeat' split) <;> simp [↓still_mk, ↓still_ite]; done)
    | (simp [↓still_mk, ↓still_ite]; refine still_foldl _ (fun _ _ => ?_) _ _; (repeat' split) <;> simp [↓still_mk, ↓still_ite]; done)

@[simp] theorem State.gather_still (s : State) (p : PushRec) :
    (State.gather s p).still = s.still := by
  simp only [State.gather]
  (repeat' split) <;> simp [↓still_mk, ↓still_ite]

@[simp] theorem State.putPeer_still (s : State) (it : Item) (payload : List Byte) :
    (State.putPeer s it payload).still = s.still := by
  simp only [State.putPeer]
  (repeat' split) <;> simp [↓still_mk, ↓still_ite]

@[simp] theorem State.peerSend_still (s : State) (m : Mac) (opcode : Nat) (handover : Nat) (payload : List Byte) :
    (State.peerSend s m opcode handover payload).still = s.still := by
  simp only [State.peerSend]
  (repeat' split) <;> simp [↓still_mk, ↓still_ite]

@[simp] theorem State.progHist_still (s : State) (stamp : Ns) (place : Pid) (type : Nat) (body : List Byte) :
    (State.progHist s stamp place type body).still = s.still := by
  simp only [State.progHist]
  (repeat' split) <;> simp [↓still_mk, ↓still_ite]

@[simp] theorem State.trackRecord_still (s : State) (t : Track) (event : Nat) (stamp : Ns) :
    (State.trackRecord s t event stamp).still = s.still := by
  simp only [State.trackRecord]
  (repeat' split) <;> simp [↓still_mk, ↓still_ite]

@[simp] theorem State.promLoad_still (s : State) (refused : Nat) (late : Nat) (deferred : Nat) :
    (State.promLoad s refused late deferred).still = s.still := by
  simp only [State.promLoad]
  (repeat' split) <;> simp [↓still_mk, ↓still_ite]

@[simp] theorem State.openBatch_still (s : State) (number : Nat) (launch : Ns) (settled : Option Ns) :
    (State.openBatch s number launch settled).still = s.still := by
  simp only [State.openBatch]
  (repeat' split) <;> simp [↓still_mk, ↓still_ite]

@[simp] theorem State.settleBatch_still (s : State) (number : Nat) (launch : Ns) :
    (State.settleBatch s number launch).still = s.still := by
  simp only [State.settleBatch]
  (repeat' split) <;> simp [↓still_mk, ↓still_ite]

@[simp] theorem State.onCover_still (s : State) (p : Pid) (f : PointCover → PointCover) :
    (State.onCover s p f).still = s.still := by
  simp only [State.onCover]
  (repeat' split) <;> simp [↓still_mk, ↓still_ite]

@[simp] theorem State.turn_still (s : State) (p : Pid) (up : Bool) (t : Ns) :
    (State.turn s p up t).still = s.still := by
  simp only [State.turn]
  (repeat' split) <;> simp [↓still_mk, ↓still_ite]

@[simp] theorem State.fall_still (s : State) (graph : Nat) (flow : Nat) (origin : Ns) (p : Pid) (launch : Ns) :
    (State.fall s graph flow origin p launch).1.still = s.still := by
  simp only [State.fall]
  (repeat' split) <;> simp [↓still_mk, ↓still_ite]

@[simp] theorem State.openPoint_still (s : State) (graph : Nat) (flow : Nat) (origin : Ns) (p : Pid) (number : Nat) (nominal : Ns) :
    (State.openPoint s graph flow origin p number nominal).1.still = s.still := by
  simp only [State.openPoint]
  (repeat' split) <;> simp [↓still_mk, ↓still_ite]

@[simp] theorem State.closePoint_still (s : State) (graph : Nat) (flow : Nat) (origin : Ns) (p : Pid) (number : Nat) (nominal : Ns) :
    (State.closePoint s graph flow origin p number nominal).1.still = s.still := by
  simp only [State.closePoint]
  (repeat' split) <;> simp [↓still_mk, ↓still_ite]

@[simp] theorem State.pushInside_still (s : State) (flow : Nat) (origin : Ns) (body : Body) (atOnce : State × List PushRec)
    (h : atOnce.1.still = s.still) : (State.pushInside s flow origin body atOnce).1.still = s.still := by
  simp only [State.pushInside]
  (repeat' split) <;> simp [↓still_mk, ↓still_ite, h]

@[simp] theorem State.pushCover_still (s : State) (origin : Ns) (p : Pid) (number : Nat) (opens : Bool) (at_ : Ns) :
    (State.pushCover s origin p number opens at_).1.still = s.still := by
  simp only [State.pushCover]
  refine State.pushInside_still _ _ _ _ _ ?_
  split <;> simp

@[simp] theorem State.pushCovers_still (s : State) (origin : Ns) (ps : List Pid) (number : Nat) (opens : Bool) (at_ : Ns) :
    (State.pushCovers s origin ps number opens at_).1.still = s.still := by
  exact still_foldl_fst _ (fun x a => by simp) _ _

@[simp] theorem State.onTrack_still (s : State) (n : Nat) (f : Track → Track) :
    (State.onTrack s n f).still = s.still := by
  simp only [State.onTrack]
  (repeat' split) <;> simp [↓still_mk, ↓still_ite]

@[simp] theorem State.cancelHandover_still (s : State) (h : Handover) (reason : Nat) (launch : Ns) :
    (State.cancelHandover s h reason launch).still = s.still := by
  simp only [State.cancelHandover]
  (repeat' split) <;> simp [↓still_mk, ↓still_ite]

@[simp] theorem State.cancelAll_still (s : State) (l : List Handover) (reason : Nat) (launch : Ns) :
    (State.cancelAll s l reason launch).still = s.still := by
  simp only [State.cancelAll]
  (repeat' split) <;> simp [↓still_mk, ↓still_ite]

@[simp] theorem State.handoverThrough_still (s : State) (t : Track) (launch : Ns) (x : Nat × Int × Int) :
    (State.handoverThrough s t launch x).still = s.still := by
  simp only [State.handoverThrough]
  (repeat' split) <;> simp [↓still_mk, ↓still_ite]

@[simp] theorem State.handoverPart_still (s : State) (t : Track) (portals : List (Nat × Int × Int)) (launch : Ns) :
    (State.handoverPart s t portals launch).still = s.still := by
  simp only [State.handoverPart]
  (repeat' split) <;> simp [↓still_mk, ↓still_ite]

@[simp] theorem State.batch_still (s : State) (n : Nat) (origin : Ns) (tb : Ns) :
    (State.batch s n origin tb).1.still = s.still := by
  simp only [State.batch]
  (repeat' split) <;> simp [↓still_mk, ↓still_ite]

@[simp] theorem State.endTrack_still (s : State) (n : Nat) (origin : Ns) (at_ : Ns) (event : Nat) (reason : Nat) (taken : Option Nat := none) :
    (State.endTrack s n origin at_ event reason taken).1.still = s.still := by
  simp only [State.endTrack]
  (repeat' split) <;> simp [↓still_mk, ↓still_ite]

@[simp] theorem State.sendTaken_still (s : State) (h : Handover) (stamp : Ns) :
    (State.sendTaken s h stamp).still = s.still := by
  simp only [State.sendTaken]
  (repeat' split) <;> simp [↓still_mk, ↓still_ite]

@[simp] theorem State.coverLoose_still (s : State) (origin : Ns) (ps : List Pid) (until_ : Ns) (launch : Ns) (settled : Option Ns) (handover : Option (Mac × Nat)) :
    (State.coverLoose s origin ps until_ launch settled handover).1.still = s.still := by
  simp only [State.coverLoose]
  (repeat' split) <;> simp [↓still_mk, ↓still_ite]

@[simp] theorem State.bear_still (s : State) (n : Nat) (d : Detection) (sect : Nat) (q : Int) :
    (State.bear s n d sect q).1.still = s.still := by
  simp only [State.bear]
  (repeat' split) <;> simp [↓still_mk, ↓still_ite]

@[simp] theorem State.openTrack_still (s : State) (d : Detection) (sect : Nat) (q : Int) :
    (State.openTrack s d sect q).1.still = s.still := by
  simp only [State.openTrack]
  (repeat' split) <;> simp [↓still_mk, ↓still_ite]

@[simp] theorem State.passOn_still (s : State) (d : Detection) (sect : Nat) (q : Int) :
    (State.passOn s d sect q).1.still = s.still := by
  simp only [State.passOn]
  (repeat' split) <;> simp [↓still_mk, ↓still_ite]

@[simp] theorem State.detectOnTrack_still (s : State) (n : Nat) (d : Detection) (straggler : Bool) :
    (State.detectOnTrack s n d straggler).1.still = s.still := by
  simp only [State.detectOnTrack]
  (repeat' split) <;> simp [↓still_mk, ↓still_ite]

@[simp] theorem State.tick_still (s : State) (n : Nat) (t : Ns) :
    (State.tick s n t).1.still = s.still := by
  simp only [State.tick]
  (repeat' split) <;> simp [↓still_mk, ↓still_ite]

@[simp] theorem State.coverShadow_still (s : State) (n : Nat) (origin : Ns) (h : Handover) :
    (State.coverShadow s n origin h).1.still = s.still := by
  simp only [State.coverShadow]
  (repeat' split) <;> simp [↓still_mk, ↓still_ite]

@[simp] theorem State.shadowUpdate_still (s : State) (n : Nat) (origin : Ns) (mac : Mac) (p : List Byte) :
    (State.shadowUpdate s n origin mac p).1.still = s.still := by
  simp only [State.shadowUpdate]
  (repeat' split) <;> simp [↓still_mk, ↓still_ite]

@[simp] theorem State.handedOver_still (s : State) (n : Nat) (origin : Ns) (mac : Mac) (id : Nat) :
    (State.handedOver s n origin mac id).1.still = s.still := by
  simp only [State.handedOver]
  (repeat' split) <;> simp [↓still_mk, ↓still_ite]

@[simp] theorem State.shadowCancel_still (s : State) (n : Nat) (mac : Mac) (p : List Byte) :
    (State.shadowCancel s n mac p).1.still = s.still := by
  simp only [State.shadowCancel]
  (repeat' split) <;> simp [↓still_mk, ↓still_ite]

@[simp] theorem State.cutTrack_still (s : State) (n : Nat) (reason : Nat) :
    (State.cutTrack s n reason).still = s.still := by
  simp only [State.cutTrack]
  (repeat' split) <;> simp [↓still_mk, ↓still_ite]

@[simp] theorem State.graphChange_still (s : State) (sections : List Nat) (junctions : List Nat) (points : List Pid) (spots : List (Nat × Int)) :
    (State.graphChange s sections junctions points spots).still = s.still := by
  simp only [State.graphChange]
  (repeat' split) <;> simp [↓still_mk, ↓still_ite]

/-! ## BackstepOps -/

@[simp] theorem State.setHold_still (s : State) (key : Nat) (l : List Work) :
    (State.setHold s key l).still = s.still := by
  simp only [State.setHold]
  (repeat' split) <;> simp [↓still_mk, ↓still_ite]

@[simp] theorem State.trim_still (s : State) :
    (State.trim s).still = s.still := by
  simp only [State.trim]
  (repeat' split) <;> simp [↓still_mk, ↓still_ite]

@[simp] theorem State.bsLoad_still (s : State) (stragglers : Nat) (capped : Nat) (unprotected : Nat) (early : Nat) :
    (State.bsLoad s stragglers capped unprotected early).still = s.still := by
  simp only [State.bsLoad]
  (repeat' split) <;> simp [↓still_mk, ↓still_ite]

@[simp] theorem State.commitFrom_still (fuel : Nat) (s : State) :
    (State.commitFrom fuel s).still = s.still := by
  induction fuel generalizing s with
  | zero => rfl
  | succ fuel ih =>
    simp only [State.commitFrom]
    (repeat' split)
    · rfl
    · rfl
    · rw [ih]
      simp [↓still_mk, ↓still_ite]

@[simp] theorem State.commitEarly_still (s : State) : (State.commitEarly s).still = s.still := by
  simp only [State.commitEarly]
  simp

@[simp] theorem State.onFlow_still (s : State) (key : Nat) (f : FlowState → FlowState) :
    (State.onFlow s key f).still = s.still := by
  simp only [State.onFlow]
  (repeat' split) <;> simp [↓still_mk, ↓still_ite]

@[simp] theorem State.setLog_still (s : State) (key : Nat) (l : List LogEntry) :
    (State.setLog s key l).still = s.still := by
  simp only [State.setLog]
  (repeat' split) <;> simp [↓still_mk, ↓still_ite]

@[simp] theorem State.setCkpts_still (s : State) (key : Nat) (l : List Checkpoint) :
    (State.setCkpts s key l).still = s.still := by
  simp only [State.setCkpts]
  (repeat' split) <;> simp [↓still_mk, ↓still_ite]

@[simp] theorem State.checkpoint_still (s : State) (key : Nat) (stamp : Ns) (serial : Nat) :
    (State.checkpoint s key stamp serial).still = s.still := by
  simp only [State.checkpoint]
  (repeat' split) <;> simp [↓still_mk, ↓still_ite]

@[simp] theorem State.restoreStandard_still (s : State) (key : Nat) (c : Checkpoint) :
    (State.restoreStandard s key c).still = s.still := by
  simp only [State.restoreStandard]
  (repeat' split) <;> simp [↓still_mk, ↓still_ite]

@[simp] theorem State.restore_still (s : State) (key : Nat) (c : Checkpoint) :
    (State.restore s key c).still = s.still := by
  simp only [State.restore]
  (repeat' split) <;> simp [↓still_mk, ↓still_ite]

@[simp] theorem State.countMeeting_still (s : State) (graph : Nat) (m : Meeting) :
    (State.countMeeting s graph m).still = s.still := by
  simp only [State.countMeeting]
  (repeat' split) <;> simp [↓still_mk, ↓still_ite]

@[simp] theorem State.joinWork_still (s : State) (key : Nat) (r : Replay) (w : Work) :
    (State.joinWork s key r w).still = s.still := by
  simp only [State.joinWork]
  (repeat' split) <;> simp [↓still_mk, ↓still_ite]

@[simp] theorem State.replayTick_still (s : State) (key : Nat) :
    (State.replayTick s key).still = s.still := by
  simp only [State.replayTick]
  (repeat' split) <;> simp [↓still_mk, ↓still_ite]

@[simp] theorem State.takeBack_still (s : State) (ps : List PushRec) :
    (State.takeBack s ps).1.still = s.still := by
  refine still_foldl_fst _ (fun x a => ?_) _ _
  dsimp only
  (repeat' split) <;> simp [↓still_mk, ↓still_ite]

@[simp] theorem State.rewind_still (s : State) (key : Nat) (c : Checkpoint) (extra : List Work) (drop : List Nat) (late : Ns) (queue : Nat) :
    (State.rewind s key c extra drop late queue).still = s.still := by
  simp only [State.rewind]
  (repeat' split) <;> simp [↓still_mk, ↓still_ite]

@[simp] theorem State.corrective_still (s : State) (graph : Nat) (flow : Nat) (p : Pid) (trigger : Ns) (was : Nat) :
    (State.corrective s graph flow p trigger was).still = s.still := by
  simp only [State.corrective]
  (repeat' split) <;> simp [↓still_mk, ↓still_ite]

@[simp] theorem State.settleLaunch_still (s : State) (graph : Nat) (flow : Nat) (late : Ns) (p : Pid) (new : List DriveCmd) (t : Ns) :
    (State.settleLaunch s graph flow late p new t).still = s.still := by
  simp only [State.settleLaunch]
  (repeat' split) <;> simp [↓still_mk, ↓still_ite]

@[simp] theorem State.settlePoint_still (s : State) (graph : Nat) (flow : Nat) (late : Ns) (p : Pid) (old : List DriveCmd) (new : List DriveCmd) :
    (State.settlePoint s graph flow late p old new).still = s.still := by
  simp only [State.settlePoint]
  (repeat' split) <;> first
    | (simp [↓still_mk, ↓still_ite]; done)
    | (refine still_foldl _ (fun _ _ => ?_) _ _; (repeat' split) <;> simp [↓still_mk, ↓still_ite]; done)
    | (simp [↓still_mk, ↓still_ite]; refine still_foldl _ (fun _ _ => ?_) _ _; (repeat' split) <;> simp [↓still_mk, ↓still_ite]; done)

@[simp] theorem State.retractRecord_still (s : State) (graph : Nat) (flow : Nat) (stamp : Ns) (place : Pid) (type : Nat) (body : List Byte) :
    (State.retractRecord s graph flow stamp place type body).still = s.still := by
  simp only [State.retractRecord]
  (repeat' split) <;> simp [↓still_mk, ↓still_ite]

@[simp] theorem State.keepEffect_still (s : State) :
    (State.keepEffect s).still = s.still := by
  simp only [State.keepEffect]
  (repeat' split) <;> simp [↓still_mk, ↓still_ite]

theorem State.dropHeld_still {s t : State} {key : Nat} {it : Item} (h : s.dropHeld key it = some t) : t.still = s.still := by
  simp only [State.dropHeld] at h
  split at h
  · cases h
  · cases h
    (repeat' split) <;> simp [↓still_mk, ↓still_ite]

@[simp] theorem State.cascade_still (s : State) (p : PushRec) (late : Ns) :
    (State.cascade s p late).1.still = s.still := by
  simp only [State.cascade]
  (repeat' split) <;> first | (simp [↓still_mk, ↓still_ite]; done) | exact State.dropHeld_still ‹_›

@[simp] theorem State.withdraw_still (s : State) (m : Mac) (id : Nat) (late : Ns) :
    (State.withdraw s m id late).still = s.still := by
  simp only [State.withdraw]
  (repeat' split) <;> simp [↓still_mk, ↓still_ite]

@[simp] theorem State.retract_still (s : State) (graph : Nat) (flow : Nat) (late : Ns) (gone : List Nat) (kept : List Nat) (p : PushRec) :
    (State.retract s graph flow late gone kept p).1.still = s.still := by
  simp only [State.retract]
  (repeat' split) <;> simp [↓still_mk, ↓still_ite]

@[simp] theorem State.deliverAgain_still (s : State) (kept : List Nat) (p : PushRec) :
    (State.deliverAgain s kept p).still = s.still := by
  simp only [State.deliverAgain]
  (repeat' split) <;> simp [↓still_mk, ↓still_ite]

@[simp] theorem State.reconcile_still (s : State) (key : Nat) (r : Replay) :
    (State.reconcile s key r).still = s.still := by
  simp only [State.reconcile]
  rw [still_foldl _ (fun _ _ => by simp), still_foldl _ (fun _ _ => by simp), still_foldl_fst _ (fun _ _ => by simp),
    still_foldl _ (fun _ _ => by simp)]
  simp [↓still_mk]

@[simp] theorem State.settleReplays_still (fuel : Nat) (s : State) :
    (State.settleReplays fuel s).still = s.still := by
  induction fuel generalizing s with
  | zero => rfl
  | succ fuel ih =>
    simp only [State.settleReplays]
    split
    · rw [ih]
      simp
    · rfl

@[simp] theorem State.afterServed_still (s : State) :
    (State.afterServed s).still = s.still := by
  simp only [State.afterServed]
  rw [State.settleReplays_still, still_foldl _ (fun _ _ => by simp)]
  simp [↓still_mk]

/-! ## Engines -/

@[simp] theorem State.setEngine_still (s : State) (e : Nat) (x : Engine) :
    (State.setEngine s e x).still = s.still := by
  simp only [State.setEngine]
  (repeat' split) <;> simp [↓still_mk, ↓still_ite]

@[simp] theorem State.engineState_still (s : State) (e : Nat) :
    (State.engineState s e).still = s.still := by
  simp only [State.engineState]
  (repeat' split) <;> simp [↓still_mk, ↓still_ite]

@[simp] theorem State.enliven_still (s : State) (w : Work) :
    (State.enliven s w).2.still = s.still := by
  simp only [State.enliven]
  (repeat' split) <;> simp [↓still_mk, ↓still_ite]

@[simp] theorem State.beginItem_still (s : State) (e : Nat) (x : Engine) (w : Work) :
    (State.beginItem s e x w).still = s.still := by
  simp only [State.beginItem]
  (repeat' split) <;> simp [↓still_mk, ↓still_ite]

@[simp] theorem State.seat_still (s : State) (e : Nat) (w : Work) :
    (State.seat s e w).still = s.still := by
  simp only [State.seat]
  (repeat' split) <;> simp [↓still_mk, ↓still_ite]

@[simp] theorem State.inOrder_still (s : State) (e : Nat) (w : Work) :
    (State.inOrder s e w).still = s.still := by
  simp only [State.inOrder]
  (repeat' split) <;> simp [↓still_mk, ↓still_ite]

@[simp] theorem State.seatReplay_still (s : State) (e : Nat) (w0 : Work) :
    (State.seatReplay s e w0).still = s.still := by
  simp only [State.seatReplay]
  (repeat' split) <;> simp [↓still_mk, ↓still_ite]

@[simp] theorem State.seatFirst_still (s : State) (e : Nat) (key : Nat) :
    (State.seatFirst s e key).still = s.still := by
  simp only [State.seatFirst]
  (repeat' split) <;> simp [↓still_mk, ↓still_ite]

@[simp] theorem State.meet_still (s : State) (e : Nat) (w0 : Work) :
    (State.meet s e w0).still = s.still := by
  simp only [State.meet]
  (repeat' split) <;> simp [↓still_mk, ↓still_ite]

@[simp] theorem State.seatHeld_still (s : State) (e : Nat) (key : Nat) :
    (State.seatHeld s e key).still = s.still := by
  simp only [State.seatHeld]
  (repeat' split) <;> simp [↓still_mk, ↓still_ite]

@[simp] theorem State.joinReplay_still (s : State) (key : Nat) (r : Replay) (q : Nat) (i : Nat) (it : Item) :
    (State.joinReplay s key r q i it).still = s.still := by
  simp only [State.joinReplay]
  (repeat' split) <;> simp [↓still_mk, ↓still_ite]

@[simp] theorem State.joinReplays_still (s : State) :
    (State.joinReplays s).still = s.still := by
  refine still_foldl _ (fun s e => still_foldl _ (fun s q => still_foldl _ (fun s i => ?_) _ _) _ _) _ _
  dsimp only
  (repeat' split) <;> simp [↓still_mk, ↓still_ite]

@[simp] theorem State.countDispatch_still (s : State) (e : Nat) (replay : Bool) (forced : Bool) (missed : Bool) :
    (State.countDispatch s e replay forced missed).still = s.still := by
  simp only [State.countDispatch]
  (repeat' split) <;> simp [↓still_mk, ↓still_ite]

@[simp] theorem State.dispatchFresh_still (s : State) (e : Nat) (c : Choice) :
    (State.dispatchFresh s e c).still = s.still := by
  simp only [State.dispatchFresh]
  (repeat' split) <;> simp [↓still_mk, ↓still_ite]

@[simp] theorem State.dispatch_still (s : State) (e : Nat) :
    (State.dispatch s e).still = s.still := by
  simp only [State.dispatch]
  (repeat' split) <;> simp [↓still_mk, ↓still_ite]

@[simp] theorem State.setSlot_still (s : State) (g : Nat) (x : GraphSlot) :
    (State.setSlot s g x).still = s.still := by
  simp only [State.setSlot]
  (repeat' split) <;> simp [↓still_mk, ↓still_ite]

@[simp] theorem State.graphState_still (s : State) (g : Nat) (old : SlotState) (new : SlotState) (cause : Nat) :
    (State.graphState s g old new cause).still = s.still := by
  simp only [State.graphState]
  (repeat' split) <;> simp [↓still_mk, ↓still_ite]

@[simp] theorem State.enterSlot_still (s : State) (g : Nat) (new : SlotState) (cause : Nat) :
    (State.enterSlot s g new cause).still = s.still := by
  simp only [State.enterSlot]
  (repeat' split) <;> simp [↓still_mk, ↓still_ite]

@[simp] theorem State.coreConsumes_still (s : State) :
    (State.coreConsumes s).still = s.still := by
  simp only [State.coreConsumes]
  (repeat' split) <;> simp [↓still_mk, ↓still_ite]

@[simp] theorem State.freeStandard_still (s : State) (key : Nat) :
    (State.freeStandard s key).still = s.still := by
  simp only [State.freeStandard]
  (repeat' split) <;> simp [↓still_mk, ↓still_ite]

@[simp] theorem State.freeGraph_still (s : State) (g : Nat) (heir : Option Nat) :
    (State.freeGraph s g heir).still = s.still := by
  simp only [State.freeGraph]
  (repeat' split) <;> simp [↓still_mk, ↓still_ite]

@[simp] theorem State.stopGraph_still (s : State) (g : Nat) (new : SlotState) (cause : Nat) :
    (State.stopGraph s g new cause).still = s.still := by
  simp only [State.stopGraph]
  (repeat' split) <;> simp [↓still_mk, ↓still_ite]

@[simp] theorem State.graphFault_still (s : State) (e : Nat) (w : Work) (cause : Nat) (node : Nat) :
    (State.graphFault s e w cause node).still = s.still := by
  simp only [State.graphFault]
  (repeat' split) <;> simp [↓still_mk, ↓still_ite]

@[simp] theorem State.replayServed_still (s : State) (w : Work) (made : List PushRec) :
    (State.replayServed s w made).still = s.still := by
  simp only [State.replayServed]
  (repeat' split) <;> simp [↓still_mk, ↓still_ite]

@[simp] theorem State.freeEngine_still (s : State) (e : Nat) :
    (State.freeEngine s e).still = s.still := by
  simp only [State.freeEngine]
  (repeat' split) <;> simp [↓still_mk, ↓still_ite]

@[simp] theorem State.freeFlow_still (s : State) (w : Work) :
    (State.freeFlow s w).still = s.still := by
  simp only [State.freeFlow]
  (repeat' split) <;> simp [↓still_mk, ↓still_ite]

@[simp] theorem State.programFault_still (s : State) (e : Nat) (w : Work) (cause : Nat) (node : Nat) :
    (State.programFault s e w cause node).still = s.still := by
  simp only [State.programFault]
  (repeat' split) <;> simp [↓still_mk, ↓still_ite]

@[simp] theorem State.program_still (s : State) (w : Work) :
    (State.program s w).1.still = s.still := by
  simp only [State.program]
  (repeat' split) <;> simp [↓still_mk, ↓still_ite]

@[simp] theorem State.runProgram_still (s : State) (old : Option (Table PVal)) (w : Work) :
    (State.runProgram s old w).1.still = s.still := by
  simp only [State.runProgram]
  (repeat' split) <;> simp [↓still_mk, ↓still_ite]

@[simp] theorem State.leaveFlow_still (s : State) (w : Work) (o : ItemOutcome) :
    (State.leaveFlow s w o).still = s.still := by
  simp only [State.leaveFlow]
  (repeat' split) <;> simp [↓still_mk, ↓still_ite]

@[simp] theorem State.logServed_still (s : State) (w : Work) (pushes : List PushRec) :
    (State.logServed s w pushes).still = s.still := by
  simp only [State.logServed]
  (repeat' split) <;> simp [↓still_mk, ↓still_ite]

@[simp] theorem State.pushAll_still (s : State) (e : Nat) (w : Work) (ps : List PushRec) (pops : List Nat) :
    (State.pushAll s e w ps pops).still = s.still := by
  simp only [State.pushAll]
  (repeat' split) <;> simp [↓still_mk, ↓still_ite]

@[simp] theorem State.complete_still (s : State) (e : Nat) (o : ItemOutcome) :
    (State.complete s e o).still = s.still := by
  simp only [State.complete]
  (repeat' split) <;> simp [↓still_mk, ↓still_ite]

@[simp] theorem State.giveBack_still (s : State) (e : Nat) :
    (State.giveBack s e).1.still = s.still := by
  simp only [State.giveBack]
  (repeat' split) <;> simp [↓still_mk, ↓still_ite]

@[simp] theorem State.retire_still (s : State) (e : Nat) (kind : Nat) :
    (State.retire s e kind).1.still = s.still := by
  simp only [State.retire]
  (repeat' split) <;> simp [↓still_mk, ↓still_ite]

@[simp] theorem State.reinstate_still (s : State) (e : Nat) :
    (State.reinstate s e).still = s.still := by
  simp only [State.reinstate]
  (repeat' split) <;> simp [↓still_mk, ↓still_ite]

@[simp] theorem State.afterRetire_still (s : State) :
    (State.afterRetire s).still = s.still := by
  simp only [State.afterRetire]
  (repeat' split) <;> simp [↓still_mk, ↓still_ite]

@[simp] theorem State.loseState_still (s : State) (key : Nat) :
    (State.loseState s key).still = s.still := by
  simp only [State.loseState]
  (repeat' split) <;> simp [↓still_mk, ↓still_ite]

@[simp] theorem State.loseRecord_still (s : State) (key : Nat) (kind : Nat) :
    (State.loseRecord s key kind).still = s.still := by
  simp only [State.loseRecord]
  (repeat' split) <;> simp [↓still_mk, ↓still_ite]

@[simp] theorem State.pushTick_still (s : State) (graph : Nat) (flow : Nat) :
    (State.pushTick s graph flow).still = s.still := by
  simp only [State.pushTick]
  (repeat' split) <;> simp [↓still_mk, ↓still_ite]

@[simp] theorem State.serveTick_still (s : State) (n : Nat) (t : Ns) :
    (State.serveTick s n t).still = s.still := by
  simp only [State.serveTick]
  (repeat' split) <;> simp [↓still_mk, ↓still_ite]

/-! ## Graphs -/

@[simp] theorem State.loadGraph_still (s : State) (g : Nat) (x : GraphInfo) (code : List Byte) :
    (State.loadGraph s g x code).still = s.still := by
  simp only [State.loadGraph]
  (repeat' split) <;> simp [↓still_mk, ↓still_ite]

@[simp] theorem State.startGraph_still (s : State) (g : Nat) (t : Ns) :
    (State.startGraph s g t).still = s.still := by
  simp only [State.startGraph]
  (repeat' split) <;> simp [↓still_mk, ↓still_ite]

@[simp] theorem graphListBody_still (x0 : Req) (s : State) :
    (graphListBody x0 s).kept s := by
  simp only [graphListBody]
  (repeat' split) <;> simp [↓still_mk, ↓still_ite]

@[simp] theorem graphLoadBody_still (r : Req) (s : State) :
    (graphLoadBody r s).kept s := by
  simp only [graphLoadBody]
  (repeat' split) <;> simp [↓still_mk, ↓still_ite]

@[simp] theorem graphStartBody_still (r : Req) (s : State) :
    (graphStartBody r s).kept s := by
  simp only [graphStartBody]
  (repeat' split) <;> simp [↓still_mk, ↓still_ite]

@[simp] theorem graphStopBody_still (r : Req) (s : State) :
    (graphStopBody r s).kept s := by
  simp only [graphStopBody]
  (repeat' split) <;> simp [↓still_mk, ↓still_ite]

@[simp] theorem State.carry_still (s : State) (a : Nat) (b : Nat) :
    (State.carry s a b).still = s.still := by
  simp only [State.carry]
  (repeat' split) <;> simp [↓still_mk, ↓still_ite]

@[simp] theorem State.swapGraphs_still (s : State) (a : Nat) (b : Nat) (t : Ns) :
    (State.swapGraphs s a b t).still = s.still := by
  simp only [State.swapGraphs]
  (repeat' split) <;> simp [↓still_mk, ↓still_ite]

@[simp] theorem graphSwapBody_still (r : Req) (s : State) :
    (graphSwapBody r s).kept s := by
  simp only [graphSwapBody]
  (repeat' split) <;> simp [↓still_mk, ↓still_ite]

@[simp] theorem graphUnloadBody_still (r : Req) (s : State) :
    (graphUnloadBody r s).kept s := by
  simp only [graphUnloadBody]
  (repeat' split) <;> simp [↓still_mk, ↓still_ite]

@[simp] theorem engineStatusBody_still (x0 : Req) (s : State) :
    (engineStatusBody x0 s).kept s := by
  simp only [engineStatusBody]
  (repeat' split) <;> simp [↓still_mk, ↓still_ite]

@[simp] theorem queueStatusBody_still (r : Req) (s : State) :
    (queueStatusBody r s).kept s := by
  simp only [queueStatusBody]
  (repeat' split) <;> simp [↓still_mk, ↓still_ite]

@[simp] theorem backstepStatusBody_still (x0 : Req) (s : State) :
    (backstepStatusBody x0 s).kept s := by
  simp only [backstepStatusBody]
  (repeat' split) <;> simp [↓still_mk, ↓still_ite]

end Sys2Proof.Machine
end

