-- ==== Sys2Proof/Laws/StillServices.lean ====
section
/-!
SUPPORT. What no operation but a life cycle move changes: the identity, the life cycle and the queue of commands, for
Promenade, the plan, metering, the history, the ring, time and the recorder.
-/

set_option linter.unusedSimpArgs false
set_option linter.unnecessarySeqFocus false
set_option linter.unreachableTactic false
set_option linter.unusedTactic false

namespace Sys2Proof.Machine

/-! ## Promenade -/

@[simp] theorem busy_still (s : State) :
    (busy s).kept s := by
  simp only [busy]
  (repeat' split) <;> simp [↓still_mk, ↓still_ite]

@[simp] theorem sectionSetBody_still (r : Req) (s : State) :
    (sectionSetBody r s).kept s := by
  simp only [sectionSetBody]
  (repeat' split) <;> simp [↓still_mk, ↓still_ite]

@[simp] theorem junctionSetBody_still (r : Req) (s : State) :
    (junctionSetBody r s).kept s := by
  simp only [junctionSetBody]
  (repeat' split) <;> simp [↓still_mk, ↓still_ite]

@[simp] theorem placeSetBody_still (r : Req) (s : State) :
    (placeSetBody r s).kept s := by
  simp only [placeSetBody]
  (repeat' split) <;> first
    | (refine kept_of (State.relaunchAnswer_still _ _ _ _) ?_; simp [↓still_mk, ↓still_ite]; done)
    | (simp [↓still_mk, ↓still_ite]; done)

@[simp] theorem graphGetBody_still (r : Req) (s : State) :
    (graphGetBody r s).kept s := by
  simp only [graphGetBody]
  (repeat' split) <;> simp [↓still_mk, ↓still_ite]

@[simp] theorem graphRemoveBody_still (r : Req) (s : State) :
    (graphRemoveBody r s).kept s := by
  simp only [graphRemoveBody]
  (repeat' split) <;> simp [↓still_mk, ↓still_ite]

@[simp] theorem trackListBody_still (r : Req) (s : State) :
    (trackListBody r s).kept s := by
  simp only [trackListBody]
  (repeat' split) <;> simp [↓still_mk, ↓still_ite]

@[simp] theorem State.trackDue_still (s : State) (n : Nat) (due : Track → Option Ns) :
    (State.trackDue s n due).still = s.still := by
  simp only [State.trackDue]
  (repeat' split) <;> simp [↓still_mk, ↓still_ite]

@[simp] theorem State.sendFall_still (s : State) (p : Pid) :
    (State.sendFall s p).still = s.still := by
  simp only [State.sendFall]
  (repeat' split) <;> simp [↓still_mk, ↓still_ite]

@[simp] theorem State.renewLoose_still (s : State) (mac : Mac) (id : Nat) (ps : List Pid) (launch : Ns) :
    (State.renewLoose s mac id ps launch).still = s.still := by
  simp only [State.renewLoose]
  (repeat' split) <;> simp [↓still_mk, ↓still_ite]

@[simp] theorem State.peerItem_still (s : State) (n : Nat) (stamp : Ns) (mac : Mac) (opcode : Nat) (p : List Byte) :
    (State.peerItem s n stamp mac opcode p).still = s.still := by
  simp only [State.peerItem]
  (repeat' split) <;> simp [↓still_mk, ↓still_ite]

@[simp] theorem State.takeHandover_still (s : State) (p : List Byte) (mac : Mac) (sect : Nat) (x : Int) (fwd : Bool) (launch : Ns) :
    (State.takeHandover s p mac sect x fwd launch).2.still = s.still := by
  simp only [State.takeHandover]
  (repeat' split) <;> simp [↓still_mk, ↓still_ite]

@[simp] theorem handoverBody_still (r : Req) (s : State) :
    (handoverBody r s).kept s := by
  simp only [handoverBody]
  (repeat' split) <;> simp [↓still_mk, ↓still_ite]

@[simp] theorem State.toTrack_still (s : State) (n : Option Nat) (stamp : Ns) (mac : Mac) (opcode : Nat) (p : List Byte) :
    (State.toTrack s n stamp mac opcode p).kept s := by
  simp only [State.toTrack]
  (repeat' split) <;> simp [↓still_mk, ↓still_ite]

@[simp] theorem handoverTakenBody_still (r : Req) (s : State) :
    (handoverTakenBody r s).kept s := by
  simp only [handoverTakenBody]
  (repeat' split) <;> simp [↓still_mk, ↓still_ite]

@[simp] theorem State.cancelLoose_still (s : State) (mac : Mac) (id : Nat) (launch : Ns) :
    (State.cancelLoose s mac id launch).still = s.still := by
  simp only [State.cancelLoose]
  (repeat' split) <;> simp [↓still_mk, ↓still_ite]

@[simp] theorem handoverCancelBody_still (r : Req) (s : State) :
    (handoverCancelBody r s).kept s := by
  simp only [handoverCancelBody]
  (repeat' split) <;> simp [↓still_mk, ↓still_ite]

@[simp] theorem State.loseHandover_still (s : State) (id : Nat) :
    (State.loseHandover s id).still = s.still := by
  simp only [State.loseHandover]
  (repeat' split) <;> simp [↓still_mk, ↓still_ite]

/-! ## Plan -/

@[simp] theorem overrideSetBody_still (r : Req) (s : State) :
    (overrideSetBody r s).kept s := by
  simp only [overrideSetBody]
  (repeat' split) <;> first
    | (simp [↓still_mk, ↓still_ite]; done)
    | (refine kept_of (State.planAnswer_still ..) ?_; simp [↓still_mk, ↓still_ite]; done)

@[simp] theorem overrideClearBody_still (r : Req) (s : State) :
    (overrideClearBody r s).kept s := by
  simp only [overrideClearBody]
  (repeat' split) <;> first
    | (simp [↓still_mk, ↓still_ite]; done)
    | (refine kept_of (State.planAnswer_still ..) ?_; simp [↓still_mk, ↓still_ite]; done)

@[simp] theorem overrideListBody_still (r : Req) (s : State) :
    (overrideListBody r s).kept s := by
  simp only [overrideListBody]
  (repeat' split) <;> simp [↓still_mk, ↓still_ite]

@[simp] theorem State.reconfigure_still (s : State) (ps : List Pid) :
    (State.reconfigure s ps).still = s.still := by
  simp only [State.reconfigure]
  (repeat' split) <;> first
    | (simp [↓still_mk, ↓still_ite]; done)
    | (refine still_foldl _ (fun _ _ => ?_) _ _; (repeat' split) <;> simp [↓still_mk, ↓still_ite]; done)
    | (simp [↓still_mk, ↓still_ite]; refine still_foldl _ (fun _ _ => ?_) _ _; (repeat' split) <;> simp [↓still_mk, ↓still_ite]; done)

@[simp] theorem typeSetBody_still (r : Req) (s : State) :
    (typeSetBody r s).kept s := by
  simp only [typeSetBody]
  (repeat' split) <;> first
    | (refine kept_of (State.relaunchAnswer_still _ _ _ _) ?_; simp [↓still_mk, ↓still_ite]; done)
    | (simp [↓still_mk, ↓still_ite]; done)

@[simp] theorem typeGetBody_still (x0 : Req) (s : State) :
    (typeGetBody x0 s).kept s := by
  simp only [typeGetBody]
  (repeat' split) <;> simp [↓still_mk, ↓still_ite]

@[simp] theorem State.storeLamp_still (s : State) (l : Lamp) :
    (State.storeLamp s l).still = s.still := by
  simp only [State.storeLamp]
  rw [still_foldl]
  · (repeat' split) <;> simp [↓still_mk, ↓still_ite]
  · intros; (repeat' split) <;> simp [↓still_mk, ↓still_ite]

@[simp] theorem lampSetBody_still (r : Req) (s : State) :
    (lampSetBody r s).kept s := by
  rw [lampSetBody]
  extract_lets n ps moved t
  have e : t.still = s.still := still_foldl _ (fun s l => State.storeLamp_still s l) _ _
  clear_value n ps moved t
  split
  · simp
  · split
    · simp
    · split
      · simp
      · split
        · simp
        · refine kept_of (State.relaunchAnswer_still _ _ _ _) ?_
          rw [State.demandAll_still, State.reconfigure_still, e]

@[simp] theorem lampGetBody_still (r : Req) (s : State) :
    (lampGetBody r s).kept s := by
  simp only [lampGetBody]
  (repeat' split) <;> simp [↓still_mk, ↓still_ite]

@[simp] theorem State.removeLamp_still (s : State) (p : Pid) :
    (State.removeLamp s p).still = s.still := by
  simp only [State.removeLamp]
  (repeat' split) <;> simp [↓still_mk, ↓still_ite]

@[simp] theorem lampRemoveBody_still (r : Req) (s : State) :
    (lampRemoveBody r s).kept s := by
  simp only [lampRemoveBody]
  (repeat' split) <;> simp [↓still_mk, ↓still_ite]

@[simp] theorem targetQueryBody_still (r : Req) (s : State) :
    (targetQueryBody r s).kept s := by
  simp only [targetQueryBody]
  (repeat' split) <;> simp [↓still_mk, ↓still_ite]

@[simp] theorem nightQueryBody_still (r : Req) (s : State) :
    (nightQueryBody r s).kept s := by
  simp only [nightQueryBody]
  (repeat' split) <;> simp [↓still_mk, ↓still_ite]

@[simp] theorem diagListBody_still (r : Req) (s : State) :
    (diagListBody r s).kept s := by
  simp only [diagListBody]
  (repeat' split) <;> simp [↓still_mk, ↓still_ite]

@[simp] theorem State.onNight_still (s : State) (day : Nat) (f : Night → Night) :
    (State.onNight s day f).still = s.still := by
  simp only [State.onNight]
  (repeat' split) <;> simp [↓still_mk, ↓still_ite]

@[simp] theorem State.reviseAll_still (s : State) :
    (State.reviseAll s).still = s.still := by
  simp only [State.reviseAll]
  (repeat' split) <;> simp [↓still_mk, ↓still_ite]

@[simp] theorem State.photoOn_still (s : State) :
    (State.photoOn s).still = s.still := by
  simp only [State.photoOn]
  (repeat' split) <;> simp [↓still_mk, ↓still_ite]

@[simp] theorem State.nightDue_still (s : State) (n : Night) (t : Ns) :
    (State.nightDue s n t).still = s.still := by
  simp only [State.nightDue]
  (repeat' split) <;> simp [↓still_mk, ↓still_ite]

@[simp] theorem State.overridesDue_still (s : State) :
    (State.overridesDue s).still = s.still := by
  simp only [State.overridesDue]
  (repeat' split) <;> simp [↓still_mk, ↓still_ite]

@[simp] theorem State.planDue_still (s : State) :
    (State.planDue s).still = s.still := by
  simp only [State.planDue]
  (repeat' split) <;> simp [↓still_mk, ↓still_ite]

@[simp] theorem State.photoCounts_still (s : State) (dark : Bool) :
    (State.photoCounts s dark).still = s.still := by
  simp only [State.photoCounts]
  (repeat' split) <;> simp [↓still_mk, ↓still_ite]

@[simp] theorem State.pulse_still (s : State) (p : Pid) (ty : LampType) (chs : List Nat) (w : Ns) :
    (State.pulse s p ty chs w).still = s.still := by
  simp only [State.pulse]
  (repeat' split) <;> first
    | (simp [↓still_mk, ↓still_ite]; done)
    | (refine still_foldl _ (fun _ _ => ?_) _ _; (repeat' split) <;> simp [↓still_mk, ↓still_ite]; done)
    | (simp [↓still_mk, ↓still_ite]; refine still_foldl _ (fun _ _ => ?_) _ _; (repeat' split) <;> simp [↓still_mk, ↓still_ite]; done)

/-! ## Metering -/

@[simp] theorem State.endMinute_still (s : State) (c : Nat) (b : Ns) :
    (State.endMinute s c b).still = s.still := by
  simp only [State.endMinute]
  (repeat' split) <;> simp [↓still_mk, ↓still_ite]

@[simp] theorem State.endSecond_still (s : State) (c : Nat) (b : Ns) :
    (State.endSecond s c b).still = s.still := by
  simp only [State.endSecond]
  (repeat' split) <;> simp [↓still_mk, ↓still_ite]

@[simp] theorem State.circuitRecords_still (s : State) (c : Nat) :
    (State.circuitRecords s c).still = s.still := by
  simp only [State.circuitRecords]
  (repeat' split) <;> simp [↓still_mk, ↓still_ite]

@[simp] theorem State.segmentMinute_still (s : State) :
    (State.segmentMinute s).still = s.still := by
  simp only [State.segmentMinute]
  (repeat' split) <;> simp [↓still_mk, ↓still_ite]

@[simp] theorem State.minuteRecords_still (s : State) (input : Nat) :
    (State.minuteRecords s input).still = s.still := by
  simp only [State.minuteRecords]
  (repeat' split) <;> simp [↓still_mk, ↓still_ite]

@[simp] theorem meterTakeBody_still (r : Req) (s : State) :
    (meterTakeBody r s).kept s := by
  simp only [meterTakeBody]
  (repeat' split) <;> simp [↓still_mk, ↓still_ite]

@[simp] theorem meterReadBody_still (r : Req) (s : State) :
    (meterReadBody r s).kept s := by
  simp only [meterReadBody]
  (repeat' split) <;> simp [↓still_mk, ↓still_ite]

@[simp] theorem pqListBody_still (r : Req) (s : State) :
    (pqListBody r s).kept s := by
  simp only [pqListBody]
  (repeat' split) <;> simp [↓still_mk, ↓still_ite]

@[simp] theorem spanSetBody_still (r : Req) (s : State) :
    (spanSetBody r s).kept s := by
  simp only [spanSetBody]
  (repeat' split) <;> simp [↓still_mk, ↓still_ite]

@[simp] theorem spanGetBody_still (r : Req) (s : State) :
    (spanGetBody r s).kept s := by
  simp only [spanGetBody]
  (repeat' split) <;> simp [↓still_mk, ↓still_ite]

@[simp] theorem reconQueryBody_still (r : Req) (s : State) :
    (reconQueryBody r s).kept s := by
  simp only [reconQueryBody]
  (repeat' split) <;> simp [↓still_mk, ↓still_ite]

/-! ## History -/

@[simp] theorem State.onTier_still (s : State) (t : Nat) (f : Tier → Tier) :
    (State.onTier s t f).still = s.still := by
  simp only [State.onTier]
  (repeat' split) <;> simp [↓still_mk, ↓still_ite]

@[simp] theorem State.cursorsLose_still (s : State) (t : Nat) (cause : Nat) (gone : List Stored) :
    (State.cursorsLose s t cause gone).still = s.still := by
  simp only [State.cursorsLose]
  (repeat' split) <;> simp [↓still_mk, ↓still_ite]

@[simp] theorem State.eraseOldest_still (s : State) (t : Nat) :
    (State.eraseOldest s t).still = s.still := by
  simp only [State.eraseOldest]
  (repeat' split) <;> simp [↓still_mk, ↓still_ite]

@[simp] theorem State.trimTier_still (s : State) (t : Nat) :
    (State.trimTier s t).still = s.still := by
  simp only [State.trimTier]
  (repeat' split) <;> simp [↓still_mk, ↓still_ite]

@[simp] theorem State.shrinkTier_still (s : State) (t : Nat) :
    (State.shrinkTier s t).still = s.still := by
  simp only [State.shrinkTier]
  (repeat' split) <;> simp [↓still_mk, ↓still_ite]

@[simp] theorem State.makeRoom_still (s : State) (t : Nat) :
    (State.makeRoom s t).still = s.still := by
  simp only [State.makeRoom]
  (repeat' split) <;> simp [↓still_mk, ↓still_ite]

@[simp] theorem State.openBlock_still (s : State) (t : Nat) :
    (State.openBlock s t).still = s.still := by
  simp only [State.openBlock]
  (repeat' split) <;> simp [↓still_mk, ↓still_ite]

@[simp] theorem State.appendTo_still (s : State) (t : Nat) (r : HistRec) :
    (State.appendTo s t r).still = s.still := by
  simp only [State.appendTo]
  (repeat' split) <;> simp [↓still_mk, ↓still_ite]

@[simp] theorem State.append_still (s : State) (r : HistRec) :
    (State.append s r).still = s.still := by
  simp only [State.append]
  (repeat' split) <;> simp [↓still_mk, ↓still_ite]

@[simp] theorem State.programQueue_still (s : State) :
    (State.programQueue s).still = s.still := by
  simp only [State.programQueue]
  (repeat' split) <;> first
    | (simp [↓still_mk, ↓still_ite]; done)
    | (refine still_foldl _ (fun _ _ => ?_) _ _; (repeat' split) <;> simp [↓still_mk, ↓still_ite]; done)
    | (simp [↓still_mk, ↓still_ite]; refine still_foldl _ (fun _ _ => ?_) _ _; (repeat' split) <;> simp [↓still_mk, ↓still_ite]; done)

@[simp] theorem State.stallGaps_still (s : State) :
    (State.stallGaps s).still = s.still := by
  simp only [State.stallGaps]
  (repeat' split) <;> simp [↓still_mk, ↓still_ite]

@[simp] theorem State.shrinkOne_still (s : State) :
    (State.shrinkOne s).still = s.still := by
  simp only [State.shrinkOne]
  (repeat' split) <;> simp [↓still_mk, ↓still_ite]

@[simp] theorem State.moveBlock_still (s : State) (t : Nat) (b : Block) (retire : Bool) :
    (State.moveBlock s t b retire).still = s.still := by
  simp only [State.moveBlock]
  (repeat' split) <;> simp [↓still_mk, ↓still_ite]

@[simp] theorem State.pages_still (s : State) (package : Nat) (programmed : Nat) (read : Nat) :
    (State.pages s package programmed read).still = s.still := by
  simp only [State.pages]
  (repeat' split) <;> simp [↓still_mk, ↓still_ite]

@[simp] theorem State.mediumCounts_still (s : State) (o : MediumOutcome) :
    (State.mediumCounts s o).still = s.still := by
  simp only [State.mediumCounts]
  (repeat' split) <;> simp [↓still_mk, ↓still_ite]

@[simp] theorem State.histProgram_still (s : State) (o : MediumOutcome) (errors : List CellError) :
    (State.histProgram s o errors).still = s.still := by
  simp only [State.histProgram]
  (repeat' split) <;> simp [↓still_mk, ↓still_ite]

@[simp] theorem State.discardRecord_still (s : State) (it : Item) :
    (State.discardRecord s it).still = s.still := by
  simp only [State.discardRecord]
  (repeat' split) <;> simp [↓still_mk, ↓still_ite]

@[simp] theorem State.histRestart_still (s : State) :
    (State.histRestart s).still = s.still := by
  simp only [State.histRestart]
  (repeat' split) <;> simp [↓still_mk, ↓still_ite]

@[simp] theorem State.loseCodeword_still (s : State) (t : Nat) (b : Block) :
    (State.loseCodeword s t b).still = s.still := by
  simp only [State.loseCodeword]
  (repeat' split) <;> simp [↓still_mk, ↓still_ite]

@[simp] theorem State.onBlock_still (s : State) (t : Nat) (n : Nat) (f : Block → Block) :
    (State.onBlock s t n f).still = s.still := by
  simp only [State.onBlock]
  (repeat' split) <;> simp [↓still_mk, ↓still_ite]

@[simp] theorem State.scrub_still (s : State) (t : Nat) (b : Block) (last : Bool) (o : MediumOutcome) :
    (State.scrub s t b last o).still = s.still := by
  simp only [State.scrub]
  (repeat' split) <;> simp [↓still_mk, ↓still_ite]

@[simp] theorem State.rewrite_still (s : State) (t : Nat) (b : Block) (w : BackWork) (last : Bool) (o : MediumOutcome) :
    (State.rewrite s t b w last o).still = s.still := by
  simp only [State.rewrite]
  (repeat' split) <;> simp [↓still_mk, ↓still_ite]

@[simp] theorem State.backStep_still (s : State) (kind : ScrubKind) (t : Nat) (b : Block) (w : BackWork) (last : Bool)
    (o : MediumOutcome) : (State.backStep s kind t b w last o).still = s.still := by
  cases kind <;> simp only [State.backStep] <;> (repeat' split) <;> simp [↓still_mk, ↓still_ite]

@[simp] theorem State.blockStep_still (s : State) (kind : ScrubKind) (t : Nat) (b : Block) (o : MediumOutcome) :
    (State.blockStep s kind t b o).still = s.still := by
  rw [State.blockStep]
  exact State.backStep_still ..

@[simp] theorem State.scrubStep_still (s : State) (kind : ScrubKind) (n : Nat) (o : MediumOutcome) :
    (State.scrubStep s kind n o).still = s.still := by
  simp only [State.scrubStep]
  (repeat' split) <;> simp [↓still_mk, ↓still_ite]

@[simp] theorem State.losePackage_still (s : State) (p : Nat) (t : Nat) :
    (State.losePackage s p t).still = s.still := by
  simp only [State.losePackage]
  (repeat' split) <;> simp [↓still_mk, ↓still_ite]

@[simp] theorem State.packageFails_still (s : State) (p : Nat) :
    (State.packageFails s p).still = s.still := by
  simp only [State.packageFails]
  (repeat' split) <;> simp [↓still_mk, ↓still_ite]

@[simp] theorem State.onCursor_still (s : State) (id : Nat) (f : Cursor → Cursor) :
    (State.onCursor s id f).still = s.still := by
  simp only [State.onCursor]
  (repeat' split) <;> simp [↓still_mk, ↓still_ite]

@[simp] theorem State.replaceLost_still (s : State) (t : Nat) (r : Stored) :
    (State.replaceLost s t r).still = s.still := by
  simp only [State.replaceLost]
  (repeat' split) <;> simp [↓still_mk, ↓still_ite]

@[simp] theorem State.returned_still (s : State) (id : Nat) (t : Nat) (e : Entry) :
    (State.returned s id t e).still = s.still := by
  simp only [State.returned]
  (repeat' split) <;> simp [↓still_mk, ↓still_ite]

@[simp] theorem State.countReads_still (s : State) (t : Nat) (es : List Entry) :
    (State.countReads s t es).still = s.still := by
  simp only [State.countReads]
  (repeat' split) <;> simp [↓still_mk, ↓still_ite]

@[simp] theorem histQueryBody_still (r : Req) (s : State) :
    (histQueryBody r s).kept s := by
  simp only [histQueryBody]
  (repeat' split) <;> simp [↓still_mk, ↓still_ite]

@[simp] theorem histNextBody_still (r : Req) (s : State) :
    (histNextBody r s).kept s := by
  simp only [histNextBody]
  (repeat' split) <;> simp [↓still_mk, ↓still_ite]

@[simp] theorem histCloseBody_still (r : Req) (s : State) :
    (histCloseBody r s).kept s := by
  simp only [histCloseBody]
  (repeat' split) <;> simp [↓still_mk, ↓still_ite]

@[simp] theorem State.retention_still (s : State) (t : Nat) :
    (State.retention s t).2.still = s.still := by
  simp only [State.retention]
  (repeat' split) <;> simp

@[simp] theorem State.tierStatus_still (s : State) (t : Nat) :
    (State.tierStatus s t).2.still = s.still := by
  obtain ⟨n, d, h, e⟩ := still_open (State.retention_still s t)
  simp only [State.tierStatus, h]
  exact e

@[simp] theorem histStatusBody_still (x0 : Req) (s : State) :
    (histStatusBody x0 s).kept s := by
  simp only [histStatusBody]
  (repeat' split) <;> simp [↓still_mk, ↓still_ite]

/-! ## Ring -/

@[simp] theorem State.onPort_still (s : State) (p : Port) (f : RingPort → RingPort) :
    (State.onPort s p f).still = s.still := by
  simp only [State.onPort]
  (repeat' split) <;> simp [↓still_mk, ↓still_ite]

@[simp] theorem State.judgeRing_still (s : State) :
    (State.judgeRing s).still = s.still := by
  simp only [State.judgeRing]
  (repeat' split) <;> simp [↓still_mk, ↓still_ite]

@[simp] theorem State.hear_still (s : State) (p : Port) (m : Mac) :
    (State.hear s p m).still = s.still := by
  simp only [State.hear]
  (repeat' split) <;> simp [↓still_mk, ↓still_ite]

@[simp] theorem ringHealthBody_still (x0 : Req) (s : State) :
    (ringHealthBody x0 s).kept s := by
  simp only [ringHealthBody]
  (repeat' split) <;> simp [↓still_mk, ↓still_ite]

@[simp] theorem ringPeerSetBody_still (r : Req) (s : State) :
    (ringPeerSetBody r s).kept s := by
  simp only [ringPeerSetBody]
  (repeat' split) <;> simp [↓still_mk, ↓still_ite]

@[simp] theorem ringPeerGetBody_still (x0 : Req) (s : State) :
    (ringPeerGetBody x0 s).kept s := by
  simp only [ringPeerGetBody]
  (repeat' split) <;> simp [↓still_mk, ↓still_ite]

@[simp] theorem State.frameOut_still (s : State) (p : Port) (f : RingFrame) :
    (State.frameOut s p f).still = s.still := by
  simp only [State.frameOut]
  (repeat' split) <;> simp [↓still_mk, ↓still_ite]

@[simp] theorem State.forward_still (s : State) (p : Port) (f : RingFrame) :
    (State.forward s p f).still = s.still := by
  simp only [State.forward]
  (repeat' split) <;> simp [↓still_mk, ↓still_ite]

@[simp] theorem State.endPause_still (s : State) (p : Port) :
    (State.endPause s p).still = s.still := by
  simp only [State.endPause]
  (repeat' split) <;> simp [↓still_mk, ↓still_ite]

@[simp] theorem State.addDup_still (s : State) (l : List DupEntry) (f : RingFrame) :
    (State.addDup s l f).2.still = s.still := by
  simp only [State.addDup]
  (repeat' split) <;> simp [↓still_mk, ↓still_ite]

@[simp] theorem State.forwardOnce_still (s : State) (p : Port) (f : RingFrame) :
    (State.forwardOnce s p f).still = s.still := by
  simp only [State.forwardOnce]
  (repeat' split) <;> simp [↓still_mk, ↓still_ite]

@[simp] theorem State.secondCopy_still (s : State) (p : Port) (f : RingFrame) :
    (State.secondCopy s p f).still = s.still := by
  simp only [State.secondCopy]
  (repeat' split) <;> simp [↓still_mk, ↓still_ite]

@[simp] theorem State.firstCopy_still (s : State) (p : Port) (f : RingFrame) :
    (State.firstCopy s p f).still = s.still := by
  simp only [State.firstCopy]
  (repeat' split) <;> simp [↓still_mk, ↓still_ite]

@[simp] theorem State.portHears_still (s : State) (p : Port) (bytes : Nat) :
    (State.portHears s p bytes).still = s.still := by
  simp only [State.portHears]
  (repeat' split) <;> simp [↓still_mk, ↓still_ite]

@[simp] theorem State.ownReturns_still (s : State) (p : Port) :
    (State.ownReturns s p).still = s.still := by
  simp only [State.ownReturns]
  (repeat' split) <;> simp [↓still_mk, ↓still_ite]

@[simp] theorem State.ringFrame_still (s : State) (p : Port) (f : RingFrame) :
    (State.ringFrame s p f).1.still = s.still := by
  simp only [State.ringFrame]
  (repeat' split) <;> simp [↓still_mk, ↓still_ite]

@[simp] theorem State.launch_still (s : State) (express : Bool) (at_ : Ns) (tol : Ns) (dst : Dest) (etherType : BitVec 16) (supervision : Bool) (lsdu : List Byte) :
    (State.launch s express at_ tol dst etherType supervision lsdu).still = s.still := by
  simp only [State.launch]
  (repeat' split) <;> simp [↓still_mk, ↓still_ite]

@[simp] theorem State.launchFrame_still (s : State) (p : Port) (c : TrafficClass) :
    (State.launchFrame s p c).still = s.still := by
  simp only [State.launchFrame]
  (repeat' split) <;> simp [↓still_mk, ↓still_ite]

@[simp] theorem State.linkChange_still (s : State) (p : Port) (info : LinkInfo) :
    (State.linkChange s p info).still = s.still := by
  simp only [State.linkChange]
  (repeat' split) <;> simp [↓still_mk, ↓still_ite]

/-! ## Time -/

@[simp] theorem State.noteValidity_still (s : State) :
    (State.noteValidity s).still = s.still := by
  simp only [State.noteValidity]
  (repeat' split) <;> simp [↓still_mk, ↓still_ite]

@[simp] theorem State.stepTime_still (s : State) (t : Ns) :
    (State.stepTime s t).still = s.still := by
  simp only [State.stepTime]
  (repeat' split) <;> simp [↓still_mk, ↓still_ite]

@[simp] theorem State.timeTo_still (s : State) (new : TimeState) :
    (State.timeTo s new).still = s.still := by
  simp only [State.timeTo]
  (repeat' split) <;> simp [↓still_mk, ↓still_ite]

@[simp] theorem State.selectMaster_still (s : State) :
    (State.selectMaster s).still = s.still := by
  simp only [State.selectMaster]
  (repeat' split) <;> simp [↓still_mk, ↓still_ite]

@[simp] theorem State.ptpOut_still (s : State) (o : Port) (kind : Nat) (correction : Int) (seq : BitVec 16) :
    (State.ptpOut s o kind correction seq).still = s.still := by
  simp only [State.ptpOut]
  (repeat' split) <;> simp [↓still_mk, ↓still_ite]

@[simp] theorem State.servo_still (s : State) :
    (State.servo s).still = s.still := by
  simp only [State.servo]
  (repeat' split) <;> simp [↓still_mk, ↓still_ite]

@[simp] theorem State.outlier_still (s : State) (o : Int) :
    (State.outlier s o).still = s.still := by
  simp only [State.outlier]
  (repeat' split) <;> simp [↓still_mk, ↓still_ite]

@[simp] theorem State.feedServo_still (s : State) (o : Int) :
    (State.feedServo s o).still = s.still := by
  simp only [State.feedServo]
  (repeat' split) <;> simp [↓still_mk, ↓still_ite]

@[simp] theorem State.switchPort_still (s : State) (p : Port) :
    (State.switchPort s p).still = s.still := by
  simp only [State.switchPort]
  (repeat' split) <;> simp [↓still_mk, ↓still_ite]

@[simp] theorem State.usableSync_still (s : State) (p : Port) (seq : BitVec 16) (o : Int) (interval : Ns) :
    (State.usableSync s p seq o interval).still = s.still := by
  simp only [State.usableSync]
  (repeat' split) <;> simp [↓still_mk, ↓still_ite]

@[simp] theorem State.takeOffset_still (s : State) (p : Port) (master : BitVec 64) (seq : BitVec 16) (t1 : Int) (corr : Int) (ingress : Int) (interval : Ns) :
    (State.takeOffset s p master seq t1 corr ingress interval).still = s.still := by
  simp only [State.takeOffset]
  (repeat' split) <;> simp [↓still_mk, ↓still_ite]

@[simp] theorem State.syncArrives_still (s : State) (p : Port) (m : SyncMsg) :
    (State.syncArrives s p m).still = s.still := by
  simp only [State.syncArrives]
  (repeat' split) <;> simp [↓still_mk, ↓still_ite]

@[simp] theorem State.followUp_still (s : State) (p : Port) (m : FollowUpMsg) :
    (State.followUp s p m).still = s.still := by
  simp only [State.followUp]
  (repeat' split) <;> simp [↓still_mk, ↓still_ite]

@[simp] theorem timeStatusBody_still (x0 : Req) (s : State) :
    (timeStatusBody x0 s).kept s := by
  simp only [timeStatusBody]
  (repeat' split) <;> simp [↓still_mk, ↓still_ite]

@[simp] theorem State.seedTime_still (s : State) (t : Ns) :
    (State.seedTime s t).still = s.still := by
  simp only [State.seedTime]
  (repeat' split) <;> simp [↓still_mk, ↓still_ite]

@[simp] theorem timeSeedBody_still (r : Req) (s : State) :
    (timeSeedBody r s).kept s := by
  simp only [timeSeedBody]
  (repeat' split) <;> simp [↓still_mk, ↓still_ite]

@[simp] theorem State.announceSelf_still (s : State) :
    (State.announceSelf s).still = s.still := by
  simp only [State.announceSelf]
  (repeat' split) <;> simp [↓still_mk, ↓still_ite]

@[simp] theorem State.ppsAlign_still (s : State) :
    (State.ppsAlign s).still = s.still := by
  simp only [State.ppsAlign]
  (repeat' split) <;> simp [↓still_mk, ↓still_ite]

@[simp] theorem State.ppsSeed_still (s : State) :
    (State.ppsSeed s).still = s.still := by
  simp only [State.ppsSeed]
  (repeat' split) <;> simp [↓still_mk, ↓still_ite]

/-! ## HostLink -/

@[simp] theorem State.hlReturn_still (s : State) (t : HlTx) (bytes : List Byte) :
    (State.hlReturn s t bytes).still = s.still := by
  simp only [State.hlReturn]
  (repeat' split) <;> simp [↓still_mk, ↓still_ite]

@[simp] theorem State.hlAppend_still (s : State) (bytes : List Byte) :
    (State.hlAppend s bytes).still = s.still := by
  simp only [State.hlAppend]
  (repeat' split) <;> simp [↓still_mk, ↓still_ite]

@[simp] theorem State.hlConsume_still (s : State) (t : HlTx) (n : Nat) :
    (State.hlConsume s t n).still = s.still := by
  simp only [State.hlConsume]
  (repeat' split) <;> simp [↓still_mk, ↓still_ite]

@[simp] theorem State.hlClear_still (s : State) :
    (State.hlClear s).still = s.still := by
  simp only [State.hlClear]
  (repeat' split) <;> simp [↓still_mk, ↓still_ite]

@[simp] theorem State.hlRing_still (s : State) :
    (State.hlRing s).still = s.still := by
  simp only [State.hlRing]
  (repeat' split) <;> simp [↓still_mk, ↓still_ite]

@[simp] theorem State.hlPop_still (s : State) :
    (State.hlPop s).still = s.still := by
  simp only [State.hlPop]
  (repeat' split) <;> simp [↓still_mk, ↓still_ite]

@[simp] theorem State.hlLinkReset_still (s : State) :
    (State.hlLinkReset s).still = s.still := by
  simp only [State.hlLinkReset]
  (repeat' split) <;> simp [↓still_mk, ↓still_ite]

@[simp] theorem State.hlModuleReset_still (s : State) :
    (State.hlModuleReset s).still = s.still := by
  simp only [State.hlModuleReset]
  (repeat' split) <;> simp [↓still_mk, ↓still_ite]

@[simp] theorem State.hlReservedCheck_still (s : State) (offset : Nat) (old : Word) (new : Word) (writable : Word) :
    (State.hlReservedCheck s offset old new writable).still = s.still := by
  simp only [State.hlReservedCheck]
  (repeat' split) <;> simp [↓still_mk, ↓still_ite]

@[simp] theorem State.hlWriteWord_still (s : State) (offset : Nat) (v : Word) :
    (State.hlWriteWord s offset v).still = s.still := by
  simp only [State.hlWriteWord]
  (repeat' split) <;> simp [↓still_mk, ↓still_ite]

@[simp] theorem State.hlWriteBurst_still (s : State) (offset : Nat) (l : List Word) :
    (State.hlWriteBurst s offset l).still = s.still := by
  induction l generalizing s offset with
  | nil => rfl
  | cons v l ih =>
    simp only [State.hlWriteBurst]
    rw [ih]
    split <;> simp

@[simp] theorem State.hlLatch_still (s : State) (offset : Nat) :
    (State.hlLatch s offset).still = s.still := by
  simp only [State.hlLatch]
  (repeat' split) <;> simp [↓still_mk, ↓still_ite]

@[simp] theorem State.hlBurst_still (s : State) (offset : Nat) (n : Nat) :
    (State.hlBurst s offset n).2.still = s.still := by
  refine still_foldl_snd _ (fun x a => ?_) _ _
  dsimp only
  split <;> simp

@[simp] theorem State.hlReadTx_still (s : State) (b : HlRead) :
    (State.hlReadTx s b).still = s.still := by
  simp only [State.hlReadTx]
  (repeat' split) <;> simp [↓still_mk, ↓still_ite]

@[simp] theorem State.parityParam_still (s : State) (id : Nat) (index : Nat) :
    (State.parityParam s id index).still = s.still := by
  simp only [State.parityParam]
  (repeat' split) <;> simp [↓still_mk, ↓still_ite]

@[simp] theorem State.coreError_still (s : State) (corrected : Bool) :
    (State.coreError s corrected).still = s.still := by
  simp only [State.coreError]
  (repeat' split) <;> simp [↓still_mk, ↓still_ite]

@[simp] theorem State.parityWindow_still (s : State) (f : ParityFail) :
    (State.parityWindow s f).still = s.still := by
  simp only [State.parityWindow]
  (repeat' split) <;> simp [↓still_mk, ↓still_ite]

/-! ## Recorder -/

@[simp] theorem State.numberRecord_still (s : State) (r : RecEntry) :
    (State.numberRecord s r).2.still = s.still := by
  simp only [State.numberRecord]
  (repeat' split) <;> simp [↓still_mk, ↓still_ite]

@[simp] theorem State.mirrorPut_still (s : State) (r : RecEntry) :
    (State.mirrorPut s r).still = s.still := by
  simp only [State.mirrorPut]
  (repeat' split) <;> simp [↓still_mk, ↓still_ite]

@[simp] theorem State.mirrorWait_still (s : State) (r : RecEntry) :
    (State.mirrorWait s r).still = s.still := by
  simp only [State.mirrorWait]
  (repeat' split) <;> simp [↓still_mk, ↓still_ite]

@[simp] theorem State.regionPut_still (s : State) (r : RecEntry) :
    (State.regionPut s r).still = s.still := by
  simp only [State.regionPut]
  (repeat' split) <;> simp [↓still_mk, ↓still_ite]

@[simp] theorem State.toMram_still (s : State) (r : RecEntry) :
    (State.toMram s r).still = s.still := by
  simp only [State.toMram]
  (repeat' split) <;> simp [↓still_mk, ↓still_ite]

@[simp] theorem State.faultTo_still (s : State) (cause : Nat) (pinned : Bool) (mirrorOk : Bool) :
    (State.faultTo s cause pinned mirrorOk).still = s.still := by
  simp only [State.faultTo]
  (repeat' split) <;> simp [↓still_mk, ↓still_ite]

@[simp] theorem State.mirrorDrain_still (s : State) :
    (State.mirrorDrain s).still = s.still := by
  simp only [State.mirrorDrain]
  (repeat' split) <;> simp [↓still_mk, ↓still_ite]

@[simp] theorem State.mirrorFails_still (s : State) (pinned : Bool) :
    (State.mirrorFails s pinned).still = s.still := by
  simp only [State.mirrorFails]
  (repeat' split) <;> simp [↓still_mk, ↓still_ite]

@[simp] theorem State.mramFails_still (s : State) (pinned : Bool) (mirrorOk : Bool) :
    (State.mramFails s pinned mirrorOk).still = s.still := by
  simp only [State.mramFails]
  (repeat' split) <;> simp [↓still_mk, ↓still_ite]

@[simp] theorem State.toMirror_still (s : State) (r : RecEntry) (mirrorOk : Bool) :
    (State.toMirror s r mirrorOk).still = s.still := by
  simp only [State.toMirror]
  (repeat' split) <;> simp [↓still_mk, ↓still_ite]

@[simp] theorem State.tellOverflow_still (s : State) :
    (State.tellOverflow s).still = s.still := by
  simp only [State.tellOverflow]
  (repeat' split) <;> simp [↓still_mk, ↓still_ite]

@[simp] theorem State.dropRecord_still (s : State) (gasp : Bool) :
    (State.dropRecord s gasp).still = s.still := by
  simp only [State.dropRecord]
  (repeat' split) <;> simp [↓still_mk, ↓still_ite]

@[simp] theorem State.writeRecord_still (s : State) (readbackOk : Bool) (mirrorOk : Bool) :
    (State.writeRecord s readbackOk mirrorOk).still = s.still := by
  simp only [State.writeRecord]
  (repeat' split) <;> simp [↓still_mk, ↓still_ite]

@[simp] theorem State.mirrorCatchUp_still (s : State) :
    (State.mirrorCatchUp s).still = s.still := by
  simp only [State.mirrorCatchUp]
  (repeat' split) <;> simp [↓still_mk, ↓still_ite]

@[simp] theorem State.mirrorCopy_still (s : State) (ok : Bool) :
    (State.mirrorCopy s ok).still = s.still := by
  simp only [State.mirrorCopy]
  (repeat' split) <;> simp [↓still_mk, ↓still_ite]

@[simp] theorem State.mramRetry_still (s : State) (readbackOk : Bool) :
    (State.mramRetry s readbackOk).still = s.still := by
  simp only [State.mramRetry]
  (repeat' split) <;> simp [↓still_mk, ↓still_ite]

@[simp] theorem recReadBody_still (r : Req) (s : State) :
    (recReadBody r s).kept s := by
  simp only [recReadBody]
  (repeat' split) <;> simp [↓still_mk, ↓still_ite]

@[simp] theorem recStatusBody_still (x0 : Req) (s : State) :
    (recStatusBody x0 s).kept s := by
  simp only [recStatusBody]
  (repeat' split) <;> simp [↓still_mk, ↓still_ite]

@[simp] theorem perfReadBody_still (r : Req) (s : State) :
    (perfReadBody r s).kept s := by
  simp only [perfReadBody]
  (repeat' split) <;> simp [↓still_mk, ↓still_ite]

@[simp] theorem perfSamplesBody_still (r : Req) (s : State) :
    (perfSamplesBody r s).kept s := by
  simp only [perfSamplesBody]
  (repeat' split) <;> simp [↓still_mk, ↓still_ite]

@[simp] theorem State.perfSample_still (s : State) (c : Nat) (k : SampleCapture) :
    (State.perfSample s c k).still = s.still := by
  simp only [State.perfSample]
  (repeat' split) <;> simp [↓still_mk, ↓still_ite]

@[simp] theorem State.meterBoundary_still (s : State) (m : Nat) :
    (State.meterBoundary s m).still = s.still := by
  simp only [State.meterBoundary]
  (repeat' split) <;> simp [↓still_mk, ↓still_ite]

@[simp] theorem wmeterReadBody_still (x0 : Req) (s : State) :
    (wmeterReadBody x0 s).kept s := by
  simp only [wmeterReadBody]
  (repeat' split) <;> simp [↓still_mk, ↓still_ite]

end Sys2Proof.Machine
end

