-- ==== Sys2Proof/Laws/StillSystem.lean ====
section
/-!
SUPPORT. What no operation but a life cycle move changes: the identity, the life cycle and the queue of commands, for
the mesh, updates, power, the start, parameters and the system commands.
-/

set_option linter.unusedSimpArgs false
set_option linter.unnecessarySeqFocus false
set_option linter.unreachableTactic false
set_option linter.unusedTactic false

namespace Sys2Proof.Machine

/-! ## Mesh -/

@[simp] theorem State.mapNode_still (s : State) (e : Eui) (p : Pid) :
    (State.mapNode s e p).still = s.still := by
  simp only [State.mapNode]
  (repeat' split) <;> first
    | (simp [↓still_mk, ↓still_ite]; done)
    | (refine still_foldl _ (fun _ _ => ?_) _ _; (repeat' split) <;> simp [↓still_mk, ↓still_ite]; done)
    | (simp [↓still_mk, ↓still_ite]; refine still_foldl _ (fun _ _ => ?_) _ _; (repeat' split) <;> simp [↓still_mk, ↓still_ite]; done)

@[simp] theorem nodeMapSetBody_still (r : Req) (s : State) :
    (nodeMapSetBody r s).kept s := by
  simp only [nodeMapSetBody]
  (repeat' split) <;> simp [↓still_mk, ↓still_ite]

@[simp] theorem nodeMapGetBody_still (r : Req) (s : State) :
    (nodeMapGetBody r s).kept s := by
  simp only [nodeMapGetBody]
  (repeat' split) <;> simp [↓still_mk, ↓still_ite]

@[simp] theorem nodeMapRemoveBody_still (r : Req) (s : State) :
    (nodeMapRemoveBody r s).kept s := by
  simp only [nodeMapRemoveBody]
  (repeat' split) <;> simp [↓still_mk, ↓still_ite]

@[simp] theorem nodeListBody_still (r : Req) (s : State) :
    (nodeListBody r s).kept s := by
  simp only [nodeListBody]
  (repeat' split) <;> simp [↓still_mk, ↓still_ite]

@[simp] theorem radioStatusBody_still (x0 : Req) (s : State) :
    (radioStatusBody x0 s).kept s := by
  simp only [radioStatusBody]
  (repeat' split) <;> simp [↓still_mk, ↓still_ite]

@[simp] theorem nodeProbeBody_still (r : Req) (s : State) :
    (nodeProbeBody r s).kept s := by
  simp only [nodeProbeBody]
  (repeat' split) <;> simp [↓still_mk, ↓still_ite]

@[simp] theorem nodeLeaveBody_still (r : Req) (s : State) :
    (nodeLeaveBody r s).kept s := by
  simp only [nodeLeaveBody]
  (repeat' split) <;> simp [↓still_mk, ↓still_ite]

@[simp] theorem State.pushJoin_still (s : State) (n : Node) (enc : Bool) (el : List Byte) :
    (State.pushJoin s n enc el).still = s.still := by
  simp only [State.pushJoin]
  (repeat' split) <;> simp [↓still_mk, ↓still_ite]

@[simp] theorem State.acceptNode_still (s : State) (n : Node) (rejoin : Bool) :
    (State.acceptNode s n rejoin).still = s.still := by
  simp only [State.acceptNode]
  (repeat' split) <;> simp [↓still_mk, ↓still_ite]

@[simp] theorem State.denyJoin_still (s : State) (e : Eui) (short : Nat) (radio : Nat) (rssi : Int) (reason : Nat) :
    (State.denyJoin s e short radio rssi reason).still = s.still := by
  simp only [State.denyJoin]
  (repeat' split) <;> simp [↓still_mk, ↓still_ite]

@[simp] theorem State.admitNode_still (s : State) (e : Eui) (ctr : Nat) (rssi : Int) (rejoin : Bool) (b : List Byte) :
    (State.admitNode s e ctr rssi rejoin b).still = s.still := by
  simp only [State.admitNode]
  (repeat' split) <;> simp [↓still_mk, ↓still_ite]

@[simp] theorem State.joinReq_still (s : State) (radio : Nat) (rssi : Int) (pdu : List Byte) (body : List Byte) :
    (State.joinReq s radio rssi pdu body).still = s.still := by
  have c := State.nodeKey_still s (euiAt body 0)
  simp only [State.joinReq]
  generalize s.nodeKey (euiAt body 0) = k at c
  rcases k with ⟨k, u⟩
  simp only [] at c
  simp only [← c]
  (repeat' split) <;> simp_all [↓still_mk, ↓still_ite]

@[simp] theorem State.onDetect_still (s : State) (radio : Nat) (n : Node) (b : List Byte) :
    (State.onDetect s radio n b).still = s.still := by
  simp only [State.onDetect]
  (repeat' split) <;> simp [↓still_mk, ↓still_ite]

@[simp] theorem State.judgeImage_still (s : State) (n : Node) (stamp : Ns) :
    (State.judgeImage s n stamp).still = s.still := by
  simp only [State.judgeImage]
  (repeat' split) <;> simp [↓still_mk, ↓still_ite]

@[simp] theorem State.channelTest_still (s : State) (p : Pid) (ch result : Nat) (stamp : Ns) :
    (State.channelTest s p ch result stamp).still = s.still := by
  simp only [State.channelTest]
  split <;> simp

@[simp] theorem State.onStatus_still (s : State) (n : Node) (b : List Byte) :
    (State.onStatus s n b).still = s.still := by
  simp only [State.onStatus]
  (repeat' split) <;> simp [↓still_mk, ↓still_ite]

@[simp] theorem State.onEnergy_still (s : State) (n : Node) (b : List Byte) :
    (State.onEnergy s n b).still = s.still := by
  simp only [State.onEnergy]
  (repeat' split) <;> simp [↓still_mk, ↓still_ite]

@[simp] theorem State.onAlarm_still (s : State) (n : Node) (b : List Byte) :
    (State.onAlarm s n b).still = s.still := by
  simp only [State.onAlarm]
  (repeat' split) <;> simp [↓still_mk, ↓still_ite]

@[simp] theorem State.onDriveAck_still (s : State) (n : Node) (b : List Byte) :
    (State.onDriveAck s n b).still = s.still := by
  simp only [State.onDriveAck]
  (repeat' split) <;> simp [↓still_mk, ↓still_ite]

@[simp] theorem State.onProbeReply_still (s : State) (n : Node) (b : List Byte) :
    (State.onProbeReply s n b).still = s.still := by
  simp only [State.onProbeReply]
  (repeat' split) <;> simp [↓still_mk, ↓still_ite]

@[simp] theorem State.onImageStatus_still (s : State) (n : Node) (b : List Byte) :
    (State.onImageStatus s n b).still = s.still := by
  simp only [State.onImageStatus]
  (repeat' split) <;> simp [↓still_mk, ↓still_ite]

@[simp] theorem State.onRejoin_still (s : State) (n : Node) (radio : Nat) (ctr : Nat) (rssi : Int) (b : List Byte) :
    (State.onRejoin s n radio ctr rssi b).still = s.still := by
  simp only [State.onRejoin]
  (repeat' split) <;> simp [↓still_mk, ↓still_ite]

@[simp] theorem State.onElement_still (s : State) (radio : Nat) (ctr : Nat) (rssi : Int) (e : Eui) (el : Nat × List Byte) :
    (State.onElement s radio ctr rssi e el).still = s.still := by
  simp only [State.onElement]
  (repeat' split) <;> simp [↓still_mk, ↓still_ite]

@[simp] theorem State.readPdu_still (s : State) (pdu : List Byte) :
    (State.readPdu s pdu).2.still = s.still := by
  simp only [State.readPdu]
  split
  · rfl
  · rename_i n _
    have c := State.nodeKey_still s n.eui
    generalize s.nodeKey n.eui = k at c
    rcases k with ⟨k, u⟩
    rcases k <;> exact c

@[simp] theorem State.onPdu_still (s : State) (radio : Nat) (f : UplinkFrame) (pdu : List Byte) :
    (State.onPdu s radio f pdu).still = s.still := by
  rcases h : s.readPdu pdu with ⟨k, u⟩
  have c := still_snd h (State.readPdu_still ..)
  simp only [State.onPdu, h]
  (repeat' split) <;> simp_all [↓still_mk, ↓still_ite]

@[simp] theorem State.sendAck_still (s : State) (r : Nat) (f : UplinkFrame) :
    (State.sendAck s r f).still = s.still := by
  simp only [State.sendAck]
  (repeat' split) <;> simp [↓still_mk, ↓still_ite]

@[simp] theorem State.deliver_still (s : State) (r : Nat) (f : UplinkFrame) (n : Option Node) :
    (State.deliver s r f n).still = s.still := by
  simp only [State.deliver]
  (repeat' split) <;> simp [↓still_mk, ↓still_ite]

@[simp] theorem State.uplink_still (s : State) (r : Nat) (f : UplinkFrame) :
    (State.uplink s r f).still = s.still := by
  simp only [State.uplink]
  (repeat' split) <;> simp [↓still_mk, ↓still_ite]

@[simp] theorem State.air_still (s : State) (r : Nat) (node : Nat) (pdus : List (List Byte)) :
    (State.air s r node pdus).still = s.still := by
  simp only [State.air]
  (repeat' split) <;> simp [↓still_mk, ↓still_ite]

@[simp] theorem State.fly_still (s : State) (r : Nat) (busy : Bool) (other : Bool) (f : Flight) :
    (State.fly s r busy other f).still = s.still := by
  simp only [State.fly]
  (repeat' split) <;> simp [↓still_mk, ↓still_ite]

@[simp] theorem State.newFlight_still (s : State) (n : Node) (pdu : List Byte × Nat) :
    (State.newFlight s n pdu).2.still = s.still := by
  simp only [State.newFlight]
  (repeat' split) <;> simp [↓still_mk, ↓still_ite]

@[simp] theorem State.noteSent_still (s : State) (d : DriveCmd) :
    (State.noteSent s d).still = s.still := by
  simp only [State.noteSent]
  (repeat' split) <;> simp [↓still_mk, ↓still_ite]

@[simp] theorem State.takeDrive_still (s : State) (c : DriveCmd) (waiting : List DriveCmd) :
    (State.takeDrive s c waiting).2.still = s.still := by
  simp only [State.takeDrive]
  split
  · rfl
  · split
    · rename_i h
      exact still_snd h (State.makePdu_still ..)
    · rename_i h
      have c := still_snd h (State.makePdu_still ..)
      rw [State.newFlight_still, still_foldl _ (fun _ _ => by simp [↓still_mk]), State.purge_still, c]

@[simp] theorem State.driveNext_still (s : State) (r : Nat) (other : Bool) :
    (State.driveNext s r other).2.still = s.still := by
  simp only [State.driveNext]
  (repeat' split) <;> simp [↓still_mk, ↓still_ite]

@[simp] theorem State.giveUp_still (s : State) (r : Nat) :
    (State.giveUp s r).still = s.still := by
  simp only [State.giveUp]
  (repeat' split) <;> first
    | (simp [↓still_mk, ↓still_ite]; done)
    | (refine still_foldl _ (fun _ _ => ?_) _ _; (repeat' split) <;> simp [↓still_mk, ↓still_ite]; done)
    | (simp [↓still_mk, ↓still_ite]; refine still_foldl _ (fun _ _ => ?_) _ _; (repeat' split) <;> simp [↓still_mk, ↓still_ite]; done)

theorem State.takeOther_still (s : State) (r : Nat) :
    ∀ x, State.takeOther s r = some x → x.2.still = s.still := by
  simp only [State.takeOther]
  intro x
  split
  · simp
  · split
    · simp
    · split
      · rename_i h
        have c := still_snd h (State.makePdu_still ..)
        rintro ⟨⟩
        simpa using c
      · rename_i h
        have c := still_snd h (State.makePdu_still ..)
        rintro ⟨⟩
        simpa using c

theorem State.takeNode_still (s : State) (r : Nat) :
    ∀ x, State.takeNode s r = some x → x.2.still = s.still := by
  simp only [State.takeNode]
  intro x
  split
  · split
    · rename_i h
      have c := still_snd h (State.makePdu_still ..)
      rintro ⟨⟩
      simp only [c, State.nodeState_still]
      (repeat' split) <;> simp [↓still_mk, ↓still_ite]
    · rename_i h
      have c := still_snd h (State.makePdu_still ..)
      rintro ⟨⟩
      simp only [State.newFlight_still, c, State.nodeState_still]
      (repeat' split) <;> simp [↓still_mk, ↓still_ite]
  · split
    · split
      · rename_i h
        have c := still_snd h (State.makePdu_still ..)
        rintro ⟨⟩
        simpa using c
      · rename_i h
        have c := still_snd h (State.makePdu_still ..)
        rintro ⟨⟩
        simpa using c
    · simp

theorem State.takeImage_still (s : State) (r : Nat) :
    ∀ x, State.takeImage s r = some x → x.2.still = s.still := by
  simp only [State.takeImage]
  (repeat' split) <;> simp [↓still_mk, ↓still_ite]

@[simp] theorem State.otherNext_still (s : State) (r : Nat) (other : Bool) :
    (State.otherNext s r other).2.still = s.still := by
  simp only [State.otherNext]
  split
  · simp
  · split
    · rename_i h; rw [State.takeOther_still _ _ _ h]; simp
    · split
      · rename_i h; rw [State.takeNode_still _ _ _ h]; simp
      · simp

@[simp] theorem State.endBroadcasts_still (s : State) :
    (State.endBroadcasts s).still = s.still := by
  simp only [State.endBroadcasts]
  (repeat' split) <;> simp [↓still_mk, ↓still_ite]

theorem State.imageNext_still (s : State) (r : Nat) :
    ∀ x, State.imageNext s r = some x → x.2.still = s.still := by
  simp only [State.imageNext]
  intro x
  split
  · rintro ⟨⟩
    simp [↓still_mk]
  · intro h
    rw [State.takeImage_still _ _ _ h, State.endBroadcasts_still]
    simp [↓still_mk]

@[simp] theorem State.imageCell_still (s : State) (r : Nat) (busy : Bool) :
    (State.imageCell s r busy).still = s.still := by
  have c := State.imageNext_still s r
  simp only [State.imageCell]
  generalize s.imageNext r = o at c
  rcases o with _ | ⟨pdu, u⟩
  · simp
  · have c := c _ rfl
    simp only at c ⊢
    split <;> simp [c]

@[simp] theorem State.linkAck_still (s : State) (f : Flight) :
    (State.linkAck s f).still = s.still := by
  simp only [State.linkAck]
  (repeat' split) <;> simp [↓still_mk, ↓still_ite]

@[simp] theorem State.e2e_still (s : State) (f : Flight) :
    (State.e2e s f).still = s.still := by
  simp only [State.e2e]
  split
  · simp [↓still_mk]
  · split
    · split
      · rw [still_foldl _ (fun _ _ => by simp)]
        simp [↓still_mk]
      · rfl
    · split
      · simp [↓still_mk]
      · split
        · rename_i h
          have c := still_snd h (State.makePdu_still ..)
          simpa [↓still_mk] using c
        · rename_i h
          have c := still_snd h (State.makePdu_still ..)
          simpa [↓still_mk] using c

@[simp] theorem State.rollKey_still (s : State) (key : List Byte) :
    (State.rollKey s key).still = s.still := by
  simp only [State.rollKey]
  (repeat' split) <;> simp [↓still_mk, ↓still_ite]

/-! ## Update -/

@[simp] theorem State.updateState_still (s : State) (kind : Nat) (event : Nat) (id : Nat) :
    (State.updateState s kind event id).still = s.still := by
  simp only [State.updateState]
  (repeat' split) <;> simp [↓still_mk, ↓still_ite]

@[simp] theorem State.setInactive_still (s : State) (x : FirmwareSlot) :
    (State.setInactive s x).still = s.still := by
  simp only [State.setInactive]
  (repeat' split) <;> simp [↓still_mk, ↓still_ite]

@[simp] theorem State.headerCheck_still (s : State) (h : List Byte) :
    (State.headerCheck s h).2.still = s.still := by
  simp only [State.headerCheck]
  (repeat' split) <;> simp [↓still_mk, ↓still_ite]

@[simp] theorem State.imageFailed_still (s : State) (kind : Nat) (id : Nat) :
    (State.imageFailed s kind id).still = s.still := by
  simp only [State.imageFailed]
  (repeat' split) <;> simp [↓still_mk, ↓still_ite]

@[simp] theorem State.offerVerdict_still (s : State) (h : List Byte) :
    (State.offerVerdict s h).2.still = s.still := by
  simp only [State.offerVerdict]
  split
  · rfl
  · split
    · rfl
    · split
      · rfl
      · have c := State.headerCheck_still s h
        generalize s.headerCheck h = k at c
        rcases k with ⟨k, u⟩
        rcases k with _ | n
        · simp only []; split <;> exact c
        · exact c

@[simp] theorem State.beginReceipt_still (s : State) (h : List Byte) (payload : List Byte) (from_ : Option Mac) :
    (State.beginReceipt s h payload from_).still = s.still := by
  simp only [State.beginReceipt]
  (repeat' split) <;> simp [↓still_mk, ↓still_ite]

@[simp] theorem State.chainSend_still (s : State) (m : Mac) (opcode : Nat) (payload : List Byte) :
    (State.chainSend s m opcode payload).still = s.still := by
  simp only [State.chainSend]
  (repeat' split) <;> simp [↓still_mk, ↓still_ite]

@[simp] theorem State.flushChain_still (s : State) :
    (State.flushChain s).still = s.still := by
  simp only [State.flushChain]
  (repeat' split) <;> simp [↓still_mk, ↓still_ite]

@[simp] theorem State.offerDownstream_still (s : State) (i : Image) :
    (State.offerDownstream s i).still = s.still := by
  simp only [State.offerDownstream]
  (repeat' split) <;> simp [↓still_mk, ↓still_ite]

@[simp] theorem State.fetch_still (s : State) :
    (State.fetch s).still = s.still := by
  simp only [State.fetch]
  (repeat' split) <;> simp [↓still_mk, ↓still_ite]

@[simp] theorem State.armMissed_still (s : State) (kind : Nat) (a : Arm) :
    (State.armMissed s kind a).still = s.still := by
  simp only [State.armMissed]
  (repeat' split) <;> simp [↓still_mk, ↓still_ite]

@[simp] theorem State.resolveArm_still (s : State) (i : Image) :
    (State.resolveArm s i).still = s.still := by
  simp only [State.resolveArm]
  (repeat' split) <;> simp [↓still_mk, ↓still_ite]

@[simp] theorem State.acceptImage_still (s : State) (i : Image) :
    (State.acceptImage s i).still = s.still := by
  simp only [State.acceptImage]
  (repeat' split) <;> simp [↓still_mk, ↓still_ite]

@[simp] theorem State.cardRun_still (s : State) (c : CardRead) (l : List ImageFile) :
    (State.cardRun s c l).2.still = s.still := by
  induction l generalizing s c with
  | nil => simp [State.cardRun]
  | cons f rest ih =>
    simp only [State.cardRun]
    split
    · rfl
    · have d := State.offerVerdict_still s f.header
      generalize s.offerVerdict f.header = k at d
      rcases k with ⟨k, u⟩
      simp only [] at d
      rcases k <;> simp [ih, d]

@[simp] theorem State.cardOn_still (s : State) :
    (State.cardOn s).still = s.still := by
  simp only [State.cardOn]
  split
  · rfl
  · split
    · rfl
    · (repeat' split) <;> simp [↓still_mk, ↓still_ite]

@[simp] theorem sdScanBody_still (files : List ImageFile) (r : Req) (s : State) :
    (sdScanBody files r s).kept s := by
  simp only [sdScanBody]
  (repeat' split) <;> simp [↓still_mk, ↓still_ite]

@[simp] theorem State.cardRemoved_still (s : State) :
    (State.cardRemoved s).still = s.still := by
  simp only [State.cardRemoved]
  (repeat' split) <;> simp [↓still_mk, ↓still_ite]

@[simp] theorem State.imageReceived_still (s : State) (readbackOk : Bool) :
    (State.imageReceived s readbackOk).still = s.still := by
  simp only [State.imageReceived]
  (repeat' split) <;> simp [↓still_mk, ↓still_ite]

@[simp] theorem imageListBody_still (x0 : Req) (s : State) :
    (imageListBody x0 s).kept s := by
  simp only [imageListBody]
  (repeat' split) <;> simp [↓still_mk, ↓still_ite]

@[simp] theorem updateStatusBody_still (x0 : Req) (s : State) :
    (updateStatusBody x0 s).kept s := by
  simp only [updateStatusBody]
  (repeat' split) <;> simp [↓still_mk, ↓still_ite]

@[simp] theorem State.eraseImage_still (s : State) (id : Nat) :
    (State.eraseImage s id).still = s.still := by
  simp only [State.eraseImage]
  (repeat' split) <;> simp [↓still_mk, ↓still_ite]

@[simp] theorem imageEraseBody_still (r : Req) (s : State) :
    (imageEraseBody r s).kept s := by
  simp only [imageEraseBody]
  (repeat' split) <;> simp [↓still_mk, ↓still_ite]

@[simp] theorem State.arm_still (s : State) (kind : Nat) (id : Nat) (instant : Ns) (immediate : Bool) (pending : Bool) (rollback : Bool) :
    (State.arm s kind id instant immediate pending rollback).still = s.still := by
  simp only [State.arm]
  (repeat' split) <;> simp [↓still_mk, ↓still_ite]

@[simp] theorem State.passArm_still (s : State) (kind : Nat) (flags : Nat) (id : Nat) (instant : Nat) :
    (State.passArm s kind flags id instant).still = s.still := by
  simp only [State.passArm]
  (repeat' split) <;> simp [↓still_mk, ↓still_ite]

@[simp] theorem updateArmBody_still (r : Req) (s : State) :
    (updateArmBody r s).kept s := by
  simp only [updateArmBody]
  (repeat' split) <;> simp [↓still_mk, ↓still_ite]

@[simp] theorem updateDisarmBody_still (r : Req) (s : State) :
    (updateDisarmBody r s).kept s := by
  simp only [updateDisarmBody]
  (repeat' split) <;> simp [↓still_mk, ↓still_ite]

@[simp] theorem updateRollbackBody_still (r : Req) (s : State) :
    (updateRollbackBody r s).kept s := by
  simp only [updateRollbackBody]
  (repeat' split) <;> simp [↓still_mk, ↓still_ite]

@[simp] theorem chainOfferBody_still (r : Req) (s : State) :
    (chainOfferBody r s).kept s := by
  have c := State.offerVerdict_still s r.payload
  simp only [chainOfferBody]
  generalize s.offerVerdict r.payload = k at c
  rcases k with ⟨k, u⟩
  simp only [] at c
  rcases k <;> simp [c]

@[simp] theorem chainFetchBody_still (r : Req) (s : State) :
    (chainFetchBody r s).kept s := by
  simp only [chainFetchBody]
  (repeat' split) <;> simp [↓still_mk, ↓still_ite]

@[simp] theorem chainArmBody_still (r : Req) (s : State) :
    (chainArmBody r s).kept s := by
  simp only [chainArmBody]
  (repeat' split) <;> simp [↓still_mk, ↓still_ite]

@[simp] theorem State.handoverAnswered_still (s : State) (id : Nat) :
    (State.handoverAnswered s id).still = s.still := by
  simp only [State.handoverAnswered]
  (repeat' split) <;> simp [↓still_mk, ↓still_ite]

@[simp] theorem State.fetched_still (s : State) (m : Mac) (b : List Byte) :
    (State.fetched s m b).still = s.still := by
  simp only [State.fetched]
  (repeat' split) <;> simp [↓still_mk, ↓still_ite]

@[simp] theorem State.peerAnswered_still (s : State) (m : Mac) (msg : PeerMsg) (status : Nat) (b : List Byte) :
    (State.peerAnswered s m msg status b).still = s.still := by
  simp only [State.peerAnswered]
  (repeat' split) <;> simp [↓still_mk, ↓still_ite]

@[simp] theorem State.peerGoOn_still (s : State) :
    (State.peerGoOn s).still = s.still := by
  simp only [State.peerGoOn]
  (repeat' split) <;> simp [↓still_mk, ↓still_ite]

@[simp] theorem State.peerResponds_still (s : State) (l : PeerLane) (msg : PeerMsg) (r : Req) (status : Nat) :
    (State.peerResponds s l msg r status).still = s.still := by
  simp only [State.peerResponds]
  (repeat' split) <;> simp [↓still_mk, ↓still_ite]

@[simp] theorem State.peerResponse_still (s : State) (r : Req) (opcode : Nat) (status : Nat) :
    (State.peerResponse s r opcode status).still = s.still := by
  simp only [State.peerResponse]
  (repeat' split) <;> simp [↓still_mk, ↓still_ite]

@[simp] theorem State.peerResend_still (s : State) (peer : Mac) (lane : Nat) :
    (State.peerResend s peer lane).still = s.still := by
  simp only [State.peerResend]
  (repeat' split) <;> simp [↓still_mk, ↓still_ite]

@[simp] theorem State.switchOver_still (s : State) :
    (State.switchOver s).still = s.still := by
  simp only [State.switchOver]
  (repeat' split) <;> simp [↓still_mk, ↓still_ite]

@[simp] theorem State.confirmTrial_still (s : State) :
    (State.confirmTrial s).still = s.still := by
  simp only [State.confirmTrial]
  (repeat' split) <;> simp [↓still_mk, ↓still_ite]

@[simp] theorem State.rollBack_still (s : State) (k : Nat) :
    (State.rollBack s k).still = s.still := by
  simp only [State.rollBack]
  (repeat' split) <;> simp [↓still_mk, ↓still_ite]

/-! ## Power -/

@[simp] theorem rtcSetBody_still (r : Req) (s : State) :
    (rtcSetBody r s).kept s := by
  unfold rtcSetBody
  split
  · exact (kept_fail ..).2 rfl
  · rename_i v hv
    generalize beforeRtc v.1 = b
    rcases b
    · (repeat' split) <;> simp [↓still_mk]
    · simp

@[simp] theorem powerStatusBody_still (x0 : Req) (s : State) :
    (powerStatusBody x0 s).kept s := by
  simp only [powerStatusBody]
  (repeat' split) <;> simp [↓still_mk, ↓still_ite]

@[simp] theorem State.powerState_still (s : State) (old : Power) (new : Power) (cause : Nat) :
    (State.powerState s old new cause).still = s.still := by
  simp only [State.powerState]
  (repeat' split) <;> simp [↓still_mk, ↓still_ite]

@[simp] theorem State.enterLastGasp_still (s : State) (cause : Nat) :
    (State.enterLastGasp s cause).still = s.still := by
  simp only [State.enterLastGasp]
  (repeat' split) <;> simp [↓still_mk, ↓still_ite]

@[simp] theorem powerHoldBody_still (r : Req) (s : State) :
    (powerHoldBody r s).kept s := by
  simp only [powerHoldBody]
  (repeat' split) <;> simp [↓still_mk, ↓still_ite]

@[simp] theorem State.brownOut_still (s : State) :
    (State.brownOut s).still = s.still := by
  simp only [State.brownOut]
  (repeat' split) <;> simp [↓still_mk, ↓still_ite]

@[simp] theorem State.loseSlow_still (s : State) :
    (State.loseSlow s).still = s.still := by
  simp only [State.loseSlow]
  (repeat' split) <;> simp [↓still_mk, ↓still_ite]

@[simp] theorem State.fatalRecord_still (s : State) :
    (State.fatalRecord s).still = s.still := by
  simp only [State.fatalRecord]
  (repeat' split) <;> simp [↓still_mk, ↓still_ite]

@[simp] theorem State.rtcKnown_still (s : State) (before : Bool) :
    (State.rtcKnown s before).still = s.still := by
  simp only [State.rtcKnown]
  (repeat' split) <;> simp [↓still_mk, ↓still_ite]

@[simp] theorem State.rtcLoad_still (s : State) (x : RtcSetReq) :
    (State.rtcLoad s x).still = s.still := by
  simp only [State.rtcLoad]
  (repeat' split) <;> simp [↓still_mk, ↓still_ite]

@[simp] theorem State.rtcDisciplined_still (s : State) :
    (State.rtcDisciplined s).still = s.still := by
  simp only [State.rtcDisciplined]
  (repeat' split) <;> simp [↓still_mk, ↓still_ite]

@[simp] theorem State.rtcTick_still (s : State) :
    (State.rtcTick s).still = s.still := by
  simp only [State.rtcTick]
  (repeat' split) <;> simp [↓still_mk, ↓still_ite]

@[simp] theorem State.rtcSecond_still (s : State) :
    (State.rtcSecond s).still = s.still := by
  simp only [State.rtcSecond]
  (repeat' split) <;> simp [↓still_mk, ↓still_ite]

/-! ## Start -/

@[simp] theorem State.bootFirmware_still (s : State) (found : StartReport) :
    (State.bootFirmware s found).still = s.still := by
  simp only [State.bootFirmware]
  (repeat' split) <;> simp [↓still_mk, ↓still_ite]

@[simp] theorem State.startArms_still (s : State) :
    (State.startArms s).still = s.still := by
  simp only [State.startArms]
  (repeat' split) <;> simp [↓still_mk, ↓still_ite]

@[simp] theorem State.startParams_still (s : State) (k : Nat) (found : StartReport) :
    (State.startParams s k found).still = s.still := by
  simp only [State.startParams]
  (repeat' split) <;> simp [↓still_mk, ↓still_ite]

@[simp] theorem State.recoverSlot_still (s : State) (x : Nat × Bool) :
    (State.recoverSlot s x).still = s.still := by
  simp only [State.recoverSlot]
  (repeat' split) <;> simp [↓still_mk, ↓still_ite]

@[simp] theorem State.startKeys_still (s : State) (found : StartReport) :
    (State.startKeys s found).still = s.still := by
  simp only [State.startKeys]
  (repeat' split) <;> simp [↓still_mk, ↓still_ite]

@[simp] theorem State.startEngines_still (s : State) (k : Nat) (found : StartReport) :
    (State.startEngines s k found).still = s.still := by
  simp only [State.startEngines]
  (repeat' split) <;> simp [↓still_mk, ↓still_ite]

@[simp] theorem State.startSlot_still (s : State) (g : Nat) (x : GraphSlot) :
    (State.startSlot s g x).still = s.still := by
  simp only [State.startSlot]
  (repeat' split) <;> simp [↓still_mk, ↓still_ite]

@[simp] theorem State.startGraphs_still (s : State) :
    (State.startGraphs s).still = s.still := by
  simp only [State.startGraphs]
  (repeat' split) <;> simp [↓still_mk, ↓still_ite]

@[simp] theorem State.startFlows_still (s : State) (k : Nat) (found : StartReport) :
    (State.startFlows s k found).still = s.still := by
  simp only [State.startFlows]
  (repeat' split) <;> simp [↓still_mk, ↓still_ite]

@[simp] theorem State.startPlan_still (s : State) :
    (State.startPlan s).still = s.still := by
  simp only [State.startPlan]
  (repeat' split) <;> simp [↓still_mk, ↓still_ite]

@[simp] theorem State.startMesh_still (s : State) (k : Nat) (found : StartReport) :
    (State.startMesh s k found).still = s.still := by
  simp only [State.startMesh]
  (repeat' split) <;> simp [↓still_mk, ↓still_ite]

@[simp] theorem State.startMeter_still (s : State) (k : Nat) (found : StartReport) :
    (State.startMeter s k found).still = s.still := by
  simp only [State.startMeter]
  (repeat' split) <;> simp [↓still_mk, ↓still_ite]

@[simp] theorem State.startChain_still (s : State) :
    (State.startChain s).still = s.still := by
  simp only [State.startChain]
  (repeat' split) <;> simp [↓still_mk, ↓still_ite]

@[simp] theorem State.startRing_still (s : State) (k : Nat) (found : StartReport) :
    (State.startRing s k found).still = s.still := by
  simp only [State.startRing]
  (repeat' split) <;> simp [↓still_mk, ↓still_ite]

@[simp] theorem State.startTime_still (s : State) :
    (State.startTime s).still = s.still := by
  simp only [State.startTime]
  (repeat' split) <;> simp [↓still_mk, ↓still_ite]

@[simp] theorem State.startRecorder_still (s : State) (k : Nat) (found : StartReport) :
    (State.startRecorder s k found).still = s.still := by
  simp only [State.startRecorder]
  (repeat' split) <;> simp [↓still_mk, ↓still_ite]

@[simp] theorem State.startLink_still (s : State) :
    (State.startLink s).still = s.still := by
  simp only [State.startLink]
  (repeat' split) <;> simp [↓still_mk, ↓still_ite]

@[simp] theorem State.startUpdates_still (s : State) :
    (State.startUpdates s).still = s.still := by
  simp only [State.startUpdates]
  (repeat' split) <;> simp [↓still_mk, ↓still_ite]

@[simp] theorem State.startCounts_still (s : State) (k : Nat) :
    (State.startCounts s k).still = s.still := by
  simp only [State.startCounts]
  (repeat' split) <;> simp [↓still_mk, ↓still_ite]

@[simp] theorem State.recordReset_still (s : State) :
    (State.recordReset s).still = s.still := by
  simp only [State.recordReset]
  (repeat' split) <;> simp [↓still_mk, ↓still_ite]

@[simp] theorem State.startLight_still (s : State) :
    (State.startLight s).still = s.still := by
  simp only [State.startLight]
  (repeat' split) <;> simp [↓still_mk, ↓still_ite]

@[simp] theorem State.starts_still (s : State) (k : Nat) (found : StartReport) :
    (State.starts s k found).still = s.still := by
  simp only [State.starts]
  (repeat' split) <;> simp [↓still_mk, ↓still_ite]

@[simp] theorem State.start_still (s : State) (found : StartReport) :
    (State.start s found).still = s.still := by
  simp only [State.start]
  (repeat' split) <;> simp [↓still_mk, ↓still_ite]

/-! ## ParamView -/

theorem retainMore_still (x : List PVal × State) (t : Nat) : (retainMore x t).2.still = x.2.still := by
  obtain ⟨n, d, h, e⟩ := still_open (State.retention_still x.2 t)
  simp only [retainMore, h]
  exact e

@[simp] theorem State.shownAll_still (s : State) (r : ParamRow) :
    (State.shownAll s r).2.still = s.still := by
  unfold State.shownAll
  split
  · exact still_foldl_snd retainMore retainMore_still _ _
  · rfl

@[simp] theorem State.paramEntry_still (s : State) (r : ParamRow) :
    (State.paramEntry s r).2.still = s.still := by
  simp only [State.paramEntry]
  (repeat' split) <;> simp [↓still_mk, ↓still_ite]

@[simp] theorem paramGetBody_still (r : Req) (s : State) :
    (paramGetBody r s).kept s := by
  simp only [paramGetBody]
  (repeat' split) <;> first
    | (simp; done)
    | exact still_foldl_snd _ (fun x a => by simp) _ _

@[simp] theorem paramSetBody_still (r : Req) (s : State) :
    (paramSetBody r s).kept s := by
  simp only [paramSetBody]
  (repeat' split) <;> simp [↓still_mk, ↓still_ite]

/-! ## Commit -/

@[simp] theorem State.rePrefix_still (s : State) (old : Nat) :
    (State.rePrefix s old).still = s.still := by
  simp only [State.rePrefix]
  (repeat' split) <;> simp [↓still_mk, ↓still_ite]

@[simp] theorem State.recordMetrology_still (s : State) (before : State) (class_ : Nat) (keys : List Nat) :
    (State.recordMetrology s before class_ keys).still = s.still := by
  simp only [State.recordMetrology]
  (repeat' split) <;> simp [↓still_mk, ↓still_ite]

@[simp] theorem State.clearCounters_still (s : State) (keys : List Nat) :
    (State.clearCounters s keys).still = s.still := by
  simp only [State.clearCounters]
  (repeat' split) <;> simp [↓still_mk, ↓still_ite]

@[simp] theorem State.lightFollows_still (s : State) (keys : List Nat) :
    (State.lightFollows s keys).still = s.still := by
  simp only [State.lightFollows]
  (repeat' split) <;> simp [↓still_mk, ↓still_ite]

@[simp] theorem State.slowFollows_still (s : State) (before : State) (ids : List Nat) :
    (State.slowFollows s before ids).still = s.still := by
  simp only [State.slowFollows]
  (repeat' split) <;> simp [↓still_mk, ↓still_ite]

@[simp] theorem State.unitsFollow_still (s : State) (before : State) (keys : List Nat) :
    (State.unitsFollow s before keys).still = s.still := by
  simp only [State.unitsFollow]
  (repeat' split) <;> simp [↓still_mk, ↓still_ite]

@[simp] theorem State.follows_still (s : State) (before : State) (class_ : Nat) (keys : List Nat) :
    (State.follows s before class_ keys).still = s.still := by
  simp only [State.follows]
  (repeat' split) <;> simp [↓still_mk, ↓still_ite]

@[simp] theorem State.applied_still (s : State) :
    (State.applied s).still = s.still := by
  simp only [State.applied]
  (repeat' split) <;> simp [↓still_mk, ↓still_ite]

@[simp] theorem State.writeStore_still (s : State) (vals : Table PVal) :
    (State.writeStore s vals).still = s.still := by
  simp only [State.writeStore]
  (repeat' split) <;> simp [↓still_mk, ↓still_ite]

@[simp] theorem State.keepOld_still (s : State) :
    (State.keepOld s).still = s.still := by
  simp only [State.keepOld]
  (repeat' split) <;> simp [↓still_mk, ↓still_ite]

@[simp] theorem State.commit_still (s : State) (class_ : Nat) :
    (State.commit s class_).still = s.still := by
  simp only [State.commit]
  (repeat' split) <;> simp [↓still_mk, ↓still_ite]

@[simp] theorem State.adoptRate_still (s : State) :
    (State.adoptRate s).still = s.still := by
  simp only [State.adoptRate]
  (repeat' split) <;> simp [↓still_mk, ↓still_ite]

theorem State.commitAnswer_still (s : State) (after : State) (r : Req) (payload : List Byte) (h : after.still = s.still) :
    (State.commitAnswer s after r payload).kept s := by
  simp only [State.commitAnswer]
  (repeat' split) <;> simp [↓still_mk, ↓still_ite, h]

@[simp] theorem paramCommitBody_still (r : Req) (s : State) :
    (paramCommitBody r s).kept s := by
  simp only [paramCommitBody]
  (repeat' split) <;> first | (simp; done) | exact State.commitAnswer_still _ _ _ _ (by simp)

/-! ## System -/

@[simp] theorem healthBody_still (x0 : Req) (s : State) :
    (healthBody x0 s).kept s := by
  simp only [healthBody]
  (repeat' split) <;> simp [↓still_mk, ↓still_ite]

@[simp] theorem warmResetBody_still (r : Req) (s : State) :
    (warmResetBody r s).kept s := by
  simp only [warmResetBody]
  (repeat' split) <;> simp [↓still_mk, ↓still_ite]

@[simp] theorem State.transition_still (s : State) (floor : Claim) (ep : Option Endpoint) (bound : Bool) :
    (State.transition s floor ep bound).still = s.still := by
  simp only [State.transition]
  (repeat' split) <;> simp [↓still_mk, ↓still_ite]

@[simp] theorem State.bindTo_still (s : State) (c : Claim) (ep : Endpoint) :
    (State.bindTo s c ep).kept s := by
  simp only [State.bindTo]
  (repeat' split) <;> simp [↓still_mk, ↓still_ite]

@[simp] theorem bindBody_still (r : Req) (s : State) :
    (bindBody r s).kept s := by
  simp only [bindBody]
  (repeat' split) <;> simp [↓still_mk, ↓still_ite]

@[simp] theorem State.unbind_still (s : State) (cause : Nat) (payload : List Byte) :
    (State.unbind s cause payload).kept s := by
  simp only [State.unbind]
  (repeat' split) <;> simp [↓still_mk, ↓still_ite]

@[simp] theorem releaseBody_still (r : Req) (s : State) :
    (releaseBody r s).kept s := by
  simp only [releaseBody]
  (repeat' split) <;> simp [↓still_mk, ↓still_ite]

@[simp] theorem forceReleaseBody_still (x0 : Req) (s : State) :
    (forceReleaseBody x0 s).kept s := by
  simp only [forceReleaseBody]
  (repeat' split) <;> simp [↓still_mk, ↓still_ite]

@[simp] theorem subscribeBody_still (r : Req) (s : State) :
    (subscribeBody r s).kept s := by
  simp only [subscribeBody]
  (repeat' split) <;> simp [↓still_mk, ↓still_ite]

@[simp] theorem sessionCloseBody_still (r : Req) (s : State) :
    (sessionCloseBody r s).kept s := by
  simp only [sessionCloseBody]
  (repeat' split) <;> simp [↓still_mk, ↓still_ite]

@[simp] theorem State.noticesLost_still (s : State) (ep : Endpoint) :
    (State.noticesLost s ep).still = s.still := by
  simp only [State.noticesLost]
  (repeat' split) <;> simp [↓still_mk, ↓still_ite]

@[simp] theorem State.acked_still (s : State) (ep : Endpoint) (n : Nat) :
    (State.acked s ep n).still = s.still := by
  simp only [State.acked]
  (repeat' split) <;> simp [↓still_mk, ↓still_ite]

@[simp] theorem State.noticeAck_still (s : State) (r : Req) :
    (State.noticeAck s r).still = s.still := by
  simp only [State.noticeAck]
  (repeat' split) <;> simp [↓still_mk, ↓still_ite]

@[simp] theorem State.interim_still (s : State) (ep : Endpoint) (n : Nat) :
    (State.interim s ep n).still = s.still := by
  simp only [State.interim]
  (repeat' split) <;> simp [↓still_mk, ↓still_ite]

@[simp] theorem State.resendNotices_still (s : State) (ep : Endpoint) :
    (State.resendNotices s ep).still = s.still := by
  simp only [State.resendNotices]
  (repeat' split) <;> simp [↓still_mk, ↓still_ite]

/-! ## Receive -/

@[simp] theorem State.crcDiscard_still (s : State) (src : Source) :
    (State.crcDiscard s src).still = s.still := by
  simp only [State.crcDiscard]
  (repeat' split) <;> simp [↓still_mk, ↓still_ite]

end Sys2Proof.Machine
end

