-- ==== Sys2Proof/Laws/Moves.lean ====
section
/-!
SUPPORT. What one command may do to the identity, the life cycle and the queue: nothing, but that a life cycle may move as
Table 14.5 says.
-/

set_option linter.unusedSimpArgs false
set_option linter.unnecessarySeqFocus false
set_option linter.unreachableTactic false
set_option linter.unusedTactic false

namespace Sys2Proof.Machine

/-- What holds of a step's two ends. -/
def Moves (s t : State) : Prop :=
  t.id = s.id ∧ t.pending = s.pending ∧ lifecycleMoves s.ks.lifecycle t.ks.lifecycle

theorem Moves.of_still {s t : State} (h : t.still = s.still) : Moves s t := by
  simp only [State.still, Prod.mk.injEq] at h
  exact ⟨h.1, h.2.2, .inl h.2.1⟩

theorem Moves.before {s u t : State} (h : u.still = s.still) (m : Moves u t) : Moves s t := by
  simp only [State.still, Prod.mk.injEq] at h
  obtain ⟨a, b, c⟩ := m
  exact ⟨a.trans h.1, b.trans h.2.2, h.2.1 ▸ c⟩

theorem Moves.after {s u t : State} (m : Moves s u) (h : t.still = u.still) : Moves s t := by
  simp only [State.still, Prod.mk.injEq] at h
  obtain ⟨a, b, c⟩ := m
  exact ⟨h.1.trans a, h.2.2.trans b, h.2.1.symm ▸ c⟩

/-- A result that moves as a step may. -/
def Result.moves (x : Result) (s : State) : Prop :=
  match x with
  | .done _ _ t => Moves s t
  | .doneThen _ _ t after => Moves s t ∧ ∀ u, (after u).still = u.still
  | .wait t => Moves s t

theorem Result.moves.of_kept {x : Result} {s : State} (h : x.kept s) : x.moves s := by
  rcases x with _ | _ | _
  · exact .of_still h
  · exact ⟨.of_still h.1, h.2⟩
  · exact .of_still h

theorem conclude_moves {s₀ s : State} {c : Command} {r : Req} {l : Lane} {x : Result} (h : x.moves s) :
    Moves s (s₀.conclude c r l x) := by
  rcases x with ⟨st, p, t⟩ | ⟨st, p, t, f⟩ | t
  · refine Moves.after h ?_
    simp only [State.conclude]
    split <;> simp
  · refine Moves.after h.1 ?_
    simp only [State.conclude]
    rw [h.2]
    split <;> simp
  · exact Moves.after h (by simp [State.conclude])

theorem accept_moves {c : Command} (hc : ∀ r s, (c.body r s).moves s) (s : State) (r : Req) (l : Lane) :
    Moves s (s.accept c r l) := by
  simp only [State.accept]
  split
  · split
    · exact .before (by simp) (conclude_moves (s := s.bump 0x70F6) (.of_kept (by simp)))
    · exact conclude_moves (.of_kept (by simp))
  · split
    · exact .of_still (by simp)
    · split
      · exact .of_still (by simp)
      · split
        · exact .of_still (by simp)
        · exact conclude_moves (hc r s)

theorem onLane_moves {c : Command} (hc : ∀ r s, (c.body r s).moves s) (s : State) (r : Req) : Moves s (s.onLane c r) := by
  simp only [State.onLane]
  split
  · split <;> exact .of_still (by simp)
  · exact .of_still (by simp)
  · exact .of_still (by simp)
  · exact .of_still (by simp)
  · split
    · exact .of_still (by simp)
    · exact .before (by simp) (accept_moves hc _ r _)

theorem request_moves {c : Command} (hc : ∀ r s, (c.body r s).moves s) (s : State) (r : Req) : Moves s (s.request c r) := by
  simp only [State.request]
  split
  · exact .of_still (by simp)
  · split
    · exact .of_still (by simp [↓still_mk])
    · split
      · exact .of_still (by simp)
      · split
        · exact .of_still (by simp)
        · exact .before (by simp) (onLane_moves hc _ r)

theorem shotas_moves {c : Command} (hc : ∀ r s, (c.body r s).moves s) {r : Req} {s t : State} (h : shotas c r s = .next t) :
    Moves s t := by
  unfold shotas at h
  injection h with h
  subst h
  exact .after (.before (State.begin_still s r.dt) (request_moves hc _ r)) (by simp)

theorem event_goes {dt : Ns} {f : State → State} (hf : ∀ s, Moves s (f s)) {s t : State} (h : event dt f s = .next t) :
    Moves s t := by
  unfold event at h
  injection h with h
  subst h
  split
  · exact .after (.before (by simp) (hf (s.begin dt))) (by simp)
  · exact .of_still (by simp)

theorem event_moves {dt : Ns} {f : State → State} (hf : ∀ s, (f s).still = s.still) {s t : State} (h : event dt f s = .next t) :
    Moves s t := event_goes (fun s => .of_still (hf s)) h

theorem always_moves {dt : Ns} {f : State → State} (hf : ∀ s, (f s).still = s.still) {s t : State}
    (h : always dt f s = .next t) : Moves s t := by
  unfold always at h
  injection h with h
  subst h
  exact .of_still (by simp [hf])

theorem island_moves {dt : Ns} {f : State → State} (hf : ∀ s, (f s).still = s.still) {s t : State}
    (h : island dt f s = .next t) : Moves s t := by
  unfold island at h
  injection h with h
  subst h
  split <;> exact .of_still (by simp [hf])

theorem circuitForceCommand_keeps (r : Req) (s : State) : (circuitForceCommand.body r s).moves s := .of_kept (by simp [circuitForceCommand])
theorem circuitStatusCommand_keeps (r : Req) (s : State) : (circuitStatusCommand.body r s).moves s := .of_kept (by simp [circuitStatusCommand])
theorem latchStatusCommand_keeps (r : Req) (s : State) : (latchStatusCommand.body r s).moves s := .of_kept (by simp [latchStatusCommand])
theorem keyWriteCommand_keeps (r : Req) (s : State) : (keyWriteCommand.body r s).moves s := .of_kept (by simp [keyWriteCommand])
theorem keyEraseCommand_keeps (r : Req) (s : State) : (keyEraseCommand.body r s).moves s := .of_kept (by simp [keyEraseCommand])
theorem keyDisableCommand_keeps (r : Req) (s : State) : (keyDisableCommand.body r s).moves s := .of_kept (by simp [keyDisableCommand])
theorem keyDeriveCommand_keeps (r : Req) (s : State) : (keyDeriveCommand.body r s).moves s := .of_kept (by simp [keyDeriveCommand])
theorem keyStatusCommand_keeps (r : Req) (s : State) : (keyStatusCommand.body r s).moves s := .of_kept (by simp [keyStatusCommand])
theorem attestCommand_keeps (r : Req) (s : State) : (attestCommand.body r s).moves s := .of_kept (by simp [attestCommand])
theorem graphListCommand_keeps (r : Req) (s : State) : (graphListCommand.body r s).moves s := .of_kept (by simp [graphListCommand])
theorem graphLoadCommand_keeps (r : Req) (s : State) : (graphLoadCommand.body r s).moves s := .of_kept (by simp [graphLoadCommand])
theorem graphStartCommand_keeps (r : Req) (s : State) : (graphStartCommand.body r s).moves s := .of_kept (by simp [graphStartCommand])
theorem graphStopCommand_keeps (r : Req) (s : State) : (graphStopCommand.body r s).moves s := .of_kept (by simp [graphStopCommand])
theorem graphSwapCommand_keeps (r : Req) (s : State) : (graphSwapCommand.body r s).moves s := .of_kept (by simp [graphSwapCommand])
theorem graphUnloadCommand_keeps (r : Req) (s : State) : (graphUnloadCommand.body r s).moves s := .of_kept (by simp [graphUnloadCommand])
theorem engineStatusCommand_keeps (r : Req) (s : State) : (engineStatusCommand.body r s).moves s := .of_kept (by simp [engineStatusCommand])
theorem queueStatusCommand_keeps (r : Req) (s : State) : (queueStatusCommand.body r s).moves s := .of_kept (by simp [queueStatusCommand])
theorem backstepStatusCommand_keeps (r : Req) (s : State) : (backstepStatusCommand.body r s).moves s := .of_kept (by simp [backstepStatusCommand])
theorem sectionSetCommand_keeps (r : Req) (s : State) : (sectionSetCommand.body r s).moves s := .of_kept (by simp [sectionSetCommand])
theorem junctionSetCommand_keeps (r : Req) (s : State) : (junctionSetCommand.body r s).moves s := .of_kept (by simp [junctionSetCommand])
theorem placeSetCommand_keeps (r : Req) (s : State) : (placeSetCommand.body r s).moves s := .of_kept (by simp [placeSetCommand])
theorem graphGetCommand_keeps (r : Req) (s : State) : (graphGetCommand.body r s).moves s := .of_kept (by simp [graphGetCommand])
theorem graphRemoveCommand_keeps (r : Req) (s : State) : (graphRemoveCommand.body r s).moves s := .of_kept (by simp [graphRemoveCommand])
theorem trackListCommand_keeps (r : Req) (s : State) : (trackListCommand.body r s).moves s := .of_kept (by simp [trackListCommand])
theorem handoverCommand_keeps (r : Req) (s : State) : (handoverCommand.body r s).moves s := .of_kept (by simp [handoverCommand])
theorem handoverTakenCommand_keeps (r : Req) (s : State) : (handoverTakenCommand.body r s).moves s := .of_kept (by simp [handoverTakenCommand])
theorem handoverCancelCommand_keeps (r : Req) (s : State) : (handoverCancelCommand.body r s).moves s := .of_kept (by simp [handoverCancelCommand])
theorem overrideSetCommand_keeps (r : Req) (s : State) : (overrideSetCommand.body r s).moves s := .of_kept (by simp [overrideSetCommand])
theorem overrideClearCommand_keeps (r : Req) (s : State) : (overrideClearCommand.body r s).moves s := .of_kept (by simp [overrideClearCommand])
theorem overrideListCommand_keeps (r : Req) (s : State) : (overrideListCommand.body r s).moves s := .of_kept (by simp [overrideListCommand])
theorem typeSetCommand_keeps (r : Req) (s : State) : (typeSetCommand.body r s).moves s := .of_kept (by simp [typeSetCommand])
theorem typeGetCommand_keeps (r : Req) (s : State) : (typeGetCommand.body r s).moves s := .of_kept (by simp [typeGetCommand])
theorem lampSetCommand_keeps (r : Req) (s : State) : (lampSetCommand.body r s).moves s := .of_kept (by simp [lampSetCommand])
theorem lampGetCommand_keeps (r : Req) (s : State) : (lampGetCommand.body r s).moves s := .of_kept (by simp [lampGetCommand])
theorem lampRemoveCommand_keeps (r : Req) (s : State) : (lampRemoveCommand.body r s).moves s := .of_kept (by simp [lampRemoveCommand])
theorem targetQueryCommand_keeps (r : Req) (s : State) : (targetQueryCommand.body r s).moves s := .of_kept (by simp [targetQueryCommand])
theorem nightQueryCommand_keeps (r : Req) (s : State) : (nightQueryCommand.body r s).moves s := .of_kept (by simp [nightQueryCommand])
theorem diagListCommand_keeps (r : Req) (s : State) : (diagListCommand.body r s).moves s := .of_kept (by simp [diagListCommand])
theorem meterTakeCommand_keeps (r : Req) (s : State) : (meterTakeCommand.body r s).moves s := .of_kept (by simp [meterTakeCommand])
theorem meterReadCommand_keeps (r : Req) (s : State) : (meterReadCommand.body r s).moves s := .of_kept (by simp [meterReadCommand])
theorem pqListCommand_keeps (r : Req) (s : State) : (pqListCommand.body r s).moves s := .of_kept (by simp [pqListCommand])
theorem spanSetCommand_keeps (r : Req) (s : State) : (spanSetCommand.body r s).moves s := .of_kept (by simp [spanSetCommand])
theorem spanGetCommand_keeps (r : Req) (s : State) : (spanGetCommand.body r s).moves s := .of_kept (by simp [spanGetCommand])
theorem reconQueryCommand_keeps (r : Req) (s : State) : (reconQueryCommand.body r s).moves s := .of_kept (by simp [reconQueryCommand])
theorem histQueryCommand_keeps (r : Req) (s : State) : (histQueryCommand.body r s).moves s := .of_kept (by simp [histQueryCommand])
theorem histNextCommand_keeps (r : Req) (s : State) : (histNextCommand.body r s).moves s := .of_kept (by simp [histNextCommand])
theorem histCloseCommand_keeps (r : Req) (s : State) : (histCloseCommand.body r s).moves s := .of_kept (by simp [histCloseCommand])
theorem histStatusCommand_keeps (r : Req) (s : State) : (histStatusCommand.body r s).moves s := .of_kept (by simp [histStatusCommand])
theorem ringHealthCommand_keeps (r : Req) (s : State) : (ringHealthCommand.body r s).moves s := .of_kept (by simp [ringHealthCommand])
theorem ringPeerSetCommand_keeps (r : Req) (s : State) : (ringPeerSetCommand.body r s).moves s := .of_kept (by simp [ringPeerSetCommand])
theorem ringPeerGetCommand_keeps (r : Req) (s : State) : (ringPeerGetCommand.body r s).moves s := .of_kept (by simp [ringPeerGetCommand])
theorem timeStatusCommand_keeps (r : Req) (s : State) : (timeStatusCommand.body r s).moves s := .of_kept (by simp [timeStatusCommand])
theorem timeSeedCommand_keeps (r : Req) (s : State) : (timeSeedCommand.body r s).moves s := .of_kept (by simp [timeSeedCommand])
theorem recReadCommand_keeps (r : Req) (s : State) : (recReadCommand.body r s).moves s := .of_kept (by simp [recReadCommand])
theorem recStatusCommand_keeps (r : Req) (s : State) : (recStatusCommand.body r s).moves s := .of_kept (by simp [recStatusCommand])
theorem perfReadCommand_keeps (r : Req) (s : State) : (perfReadCommand.body r s).moves s := .of_kept (by simp [perfReadCommand])
theorem perfSamplesCommand_keeps (r : Req) (s : State) : (perfSamplesCommand.body r s).moves s := .of_kept (by simp [perfSamplesCommand])
theorem wmeterReadCommand_keeps (r : Req) (s : State) : (wmeterReadCommand.body r s).moves s := .of_kept (by simp [wmeterReadCommand])
theorem nodeMapSetCommand_keeps (r : Req) (s : State) : (nodeMapSetCommand.body r s).moves s := .of_kept (by simp [nodeMapSetCommand])
theorem nodeMapGetCommand_keeps (r : Req) (s : State) : (nodeMapGetCommand.body r s).moves s := .of_kept (by simp [nodeMapGetCommand])
theorem nodeMapRemoveCommand_keeps (r : Req) (s : State) : (nodeMapRemoveCommand.body r s).moves s := .of_kept (by simp [nodeMapRemoveCommand])
theorem nodeListCommand_keeps (r : Req) (s : State) : (nodeListCommand.body r s).moves s := .of_kept (by simp [nodeListCommand])
theorem radioStatusCommand_keeps (r : Req) (s : State) : (radioStatusCommand.body r s).moves s := .of_kept (by simp [radioStatusCommand])
theorem nodeProbeCommand_keeps (r : Req) (s : State) : (nodeProbeCommand.body r s).moves s := .of_kept (by simp [nodeProbeCommand])
theorem nodeLeaveCommand_keeps (r : Req) (s : State) : (nodeLeaveCommand.body r s).moves s := .of_kept (by simp [nodeLeaveCommand])
theorem imageListCommand_keeps (r : Req) (s : State) : (imageListCommand.body r s).moves s := .of_kept (by simp [imageListCommand])
theorem updateStatusCommand_keeps (r : Req) (s : State) : (updateStatusCommand.body r s).moves s := .of_kept (by simp [updateStatusCommand])
theorem imageEraseCommand_keeps (r : Req) (s : State) : (imageEraseCommand.body r s).moves s := .of_kept (by simp [imageEraseCommand])
theorem updateArmCommand_keeps (r : Req) (s : State) : (updateArmCommand.body r s).moves s := .of_kept (by simp [updateArmCommand])
theorem updateDisarmCommand_keeps (r : Req) (s : State) : (updateDisarmCommand.body r s).moves s := .of_kept (by simp [updateDisarmCommand])
theorem updateRollbackCommand_keeps (r : Req) (s : State) : (updateRollbackCommand.body r s).moves s := .of_kept (by simp [updateRollbackCommand])
theorem chainOfferCommand_keeps (r : Req) (s : State) : (chainOfferCommand.body r s).moves s := .of_kept (by simp [chainOfferCommand])
theorem chainFetchCommand_keeps (r : Req) (s : State) : (chainFetchCommand.body r s).moves s := .of_kept (by simp [chainFetchCommand])
theorem chainArmCommand_keeps (r : Req) (s : State) : (chainArmCommand.body r s).moves s := .of_kept (by simp [chainArmCommand])
theorem rtcGetCommand_keeps (r : Req) (s : State) : (rtcGetCommand.body r s).moves s := .of_kept (by simp [rtcGetCommand])
theorem rtcSetCommand_keeps (r : Req) (s : State) : (rtcSetCommand.body r s).moves s := .of_kept (by simp [rtcSetCommand])
theorem powerStatusCommand_keeps (r : Req) (s : State) : (powerStatusCommand.body r s).moves s := .of_kept (by simp [powerStatusCommand])
theorem powerHoldCommand_keeps (r : Req) (s : State) : (powerHoldCommand.body r s).moves s := .of_kept (by simp [powerHoldCommand])
theorem paramGetCommand_keeps (r : Req) (s : State) : (paramGetCommand.body r s).moves s := .of_kept (by simp [paramGetCommand])
theorem paramSetCommand_keeps (r : Req) (s : State) : (paramSetCommand.body r s).moves s := .of_kept (by simp [paramSetCommand])
theorem paramAbortCommand_keeps (r : Req) (s : State) : (paramAbortCommand.body r s).moves s := .of_kept (by simp [paramAbortCommand])
theorem paramCommitCommand_keeps (r : Req) (s : State) : (paramCommitCommand.body r s).moves s := .of_kept (by simp [paramCommitCommand])
theorem identifyCommand_keeps (r : Req) (s : State) : (identifyCommand.body r s).moves s := .of_kept (by simp [identifyCommand])
theorem healthCommand_keeps (r : Req) (s : State) : (healthCommand.body r s).moves s := .of_kept (by simp [healthCommand])
theorem warmResetCommand_keeps (r : Req) (s : State) : (warmResetCommand.body r s).moves s := .of_kept (by simp [warmResetCommand])
theorem bindCommand_keeps (r : Req) (s : State) : (bindCommand.body r s).moves s := .of_kept (by simp [bindCommand])
theorem releaseCommand_keeps (r : Req) (s : State) : (releaseCommand.body r s).moves s := .of_kept (by simp [releaseCommand])
theorem forceReleaseCommand_keeps (r : Req) (s : State) : (forceReleaseCommand.body r s).moves s := .of_kept (by simp [forceReleaseCommand])
theorem subscribeCommand_keeps (r : Req) (s : State) : (subscribeCommand.body r s).moves s := .of_kept (by simp [subscribeCommand])
theorem sessionCloseCommand_keeps (r : Req) (s : State) : (sessionCloseCommand.body r s).moves s := .of_kept (by simp [sessionCloseCommand])

theorem setLifecycle_moves (s : State) (new : Nat) (h : lifecycleMoves s.ks.lifecycle new) : Moves s (s.setLifecycle new) := by
  have m : Moves s { s with ks.lifecycle := new } := ⟨rfl, rfl, h⟩
  simp only [State.setLifecycle]
  split <;> exact .after m (by simp)

theorem lifecycleSetCommand_keeps (r : Req) (s : State) : (lifecycleSetCommand.body r s).moves s := by
  change (lifecycleSetBody r s).moves s
  simp only [lifecycleSetBody]
  split
  · exact .of_kept (by simp)
  · split
    · rename_i h
      refine setLifecycle_moves s _ ?_
      generalize fld r.payload 0 1 = n at *
      simp only [State.lifecycleAllows] at h
      split at h <;> simp_all [lifecycleMoves]
    · exact .of_kept (by simp)

theorem execLifecycleSet_moves {r : Req} {s t : State} (h : execLifecycleSet r s = .next t) : Moves s t :=
  shotas_moves lifecycleSetCommand_keeps h

theorem catalogue_moves : ∀ c ∈ catalogue, ∀ r s, (c.body r s).moves s := by
  intro c hc
  simp only [catalogue, List.cons_append, List.nil_append, List.mem_cons, List.not_mem_nil, or_false] at hc
  rcases hc with rfl | rfl | rfl | rfl | rfl | rfl | rfl | rfl | rfl | rfl | rfl | rfl | rfl | rfl | rfl | rfl | rfl | rfl | rfl | rfl | rfl | rfl | rfl | rfl | rfl | rfl | rfl | rfl | rfl | rfl | rfl | rfl | rfl | rfl | rfl | rfl | rfl | rfl | rfl | rfl | rfl | rfl | rfl | rfl | rfl | rfl | rfl | rfl | rfl | rfl | rfl | rfl | rfl | rfl | rfl | rfl | rfl | rfl | rfl | rfl | rfl | rfl | rfl | rfl | rfl | rfl | rfl | rfl | rfl | rfl | rfl | rfl | rfl | rfl | rfl | rfl | rfl | rfl | rfl | rfl | rfl | rfl | rfl | rfl | rfl | rfl | rfl | rfl | rfl | rfl | rfl
  · exact identifyCommand_keeps
  · exact healthCommand_keeps
  · exact paramGetCommand_keeps
  · exact paramSetCommand_keeps
  · exact paramCommitCommand_keeps
  · exact paramAbortCommand_keeps
  · exact warmResetCommand_keeps
  · exact bindCommand_keeps
  · exact releaseCommand_keeps
  · exact forceReleaseCommand_keeps
  · exact subscribeCommand_keeps
  · exact sessionCloseCommand_keeps
  · exact overrideSetCommand_keeps
  · exact overrideClearCommand_keeps
  · exact overrideListCommand_keeps
  · exact typeSetCommand_keeps
  · exact typeGetCommand_keeps
  · exact lampSetCommand_keeps
  · exact lampGetCommand_keeps
  · exact lampRemoveCommand_keeps
  · exact targetQueryCommand_keeps
  · exact nightQueryCommand_keeps
  · exact diagListCommand_keeps
  · exact sectionSetCommand_keeps
  · exact junctionSetCommand_keeps
  · exact placeSetCommand_keeps
  · exact graphGetCommand_keeps
  · exact graphRemoveCommand_keeps
  · exact trackListCommand_keeps
  · exact handoverCommand_keeps
  · exact handoverTakenCommand_keeps
  · exact handoverCancelCommand_keeps
  · exact graphListCommand_keeps
  · exact graphLoadCommand_keeps
  · exact graphStartCommand_keeps
  · exact graphStopCommand_keeps
  · exact graphSwapCommand_keeps
  · exact graphUnloadCommand_keeps
  · exact engineStatusCommand_keeps
  · exact queueStatusCommand_keeps
  · exact backstepStatusCommand_keeps
  · exact nodeMapSetCommand_keeps
  · exact nodeMapGetCommand_keeps
  · exact nodeMapRemoveCommand_keeps
  · exact nodeListCommand_keeps
  · exact nodeProbeCommand_keeps
  · exact nodeLeaveCommand_keeps
  · exact radioStatusCommand_keeps
  · exact meterTakeCommand_keeps
  · exact meterReadCommand_keeps
  · exact pqListCommand_keeps
  · exact spanSetCommand_keeps
  · exact spanGetCommand_keeps
  · exact reconQueryCommand_keeps
  · exact circuitForceCommand_keeps
  · exact circuitStatusCommand_keeps
  · exact latchStatusCommand_keeps
  · exact ringHealthCommand_keeps
  · exact ringPeerSetCommand_keeps
  · exact ringPeerGetCommand_keeps
  · exact timeStatusCommand_keeps
  · exact timeSeedCommand_keeps
  · exact histQueryCommand_keeps
  · exact histNextCommand_keeps
  · exact histCloseCommand_keeps
  · exact histStatusCommand_keeps
  · exact recReadCommand_keeps
  · exact recStatusCommand_keeps
  · exact perfReadCommand_keeps
  · exact perfSamplesCommand_keeps
  · exact wmeterReadCommand_keeps
  · exact keyWriteCommand_keeps
  · exact keyEraseCommand_keeps
  · exact keyDisableCommand_keeps
  · exact keyDeriveCommand_keeps
  · exact keyStatusCommand_keeps
  · exact attestCommand_keeps
  · exact lifecycleSetCommand_keeps
  · exact imageListCommand_keeps
  · exact updateArmCommand_keeps
  · exact updateDisarmCommand_keeps
  · exact updateRollbackCommand_keeps
  · exact updateStatusCommand_keeps
  · exact imageEraseCommand_keeps
  · exact chainOfferCommand_keeps
  · exact chainFetchCommand_keeps
  · exact chainArmCommand_keeps
  · exact rtcGetCommand_keeps
  · exact rtcSetCommand_keeps
  · exact powerStatusCommand_keeps
  · exact powerHoldCommand_keeps

theorem commandOf_moves {s : State} {op : Nat} {c : Command} (h : s.commandOf op = some c) (r : Req) (u : State) :
    (c.body r u).moves u := by
  simp only [State.commandOf] at h
  split at h
  · injection h with h
    subst h
    exact .of_kept (kept_of (sdScanBody_still ..) (by simp [↓still_mk]))
  · exact catalogue_moves c (List.mem_of_find?_eq_some h) r u

theorem receive_moves (s : State) (src : Source) (bytes : List Byte) : Moves s (s.receive src bytes) := by
  simp only [State.receive]
  split
  · exact .of_still (by simp)
  · split
    · exact .of_still (by simp [↓still_mk])
    · split
      · exact .of_still (by simp)
      · split
        · exact .of_still (by simp)
        · split
          · exact .of_still (by simp)
          · split
            · exact .of_still (by simp)
            · refine request_moves (fun r u => ?_) _ _
              rcases h : s.commandOf (fld (messageOf src ((framed src bytes).getD [])) 8 2) with _ | c
              · exact .of_kept (by simp [unsupportedCommand])
              · exact commandOf_moves h r u

@[simp] theorem State.probeOver_still (s : State) (ep : Endpoint) (n : Nat) : (s.probeOver ep n).still = s.still := by
  simp only [State.probeOver]
  split <;> simp [↓still_mk]

theorem completes_moves (s : State) (ep : Endpoint) (n : Nat) : Moves s (s.completes ep n) := by
  simp only [State.completes]
  split
  · exact .of_still rfl
  · split
    · exact .of_still (by simp)
    · split
      · exact .of_still (by simp)
      · split
        · exact .of_still rfl
        · rename_i h
          exact conclude_moves (commandOf_moves h _ _)

theorem execUnsupportedOpcode_moves {dt : Ns} {src : Source} {message : List Byte} {s t : State}
    (h : execUnsupportedOpcode dt src message s = .next t) : Moves s t := by
  unfold execUnsupportedOpcode at h
  injection h with h
  subst h
  exact .after (.before (State.begin_still s dt) (receive_moves _ src message)) (by simp)

theorem execHlBufferTaken_moves {dt : Ns} {s t : State} (h : execHlBufferTaken dt s = .next t) : Moves s t := by
  unfold execHlBufferTaken at h
  refine event_goes (fun s => ?_) h
  split
  · exact .before (by simp [↓still_mk]) (receive_moves _ _ _)
  · exact .of_still rfl

theorem execRingFrameReceive_moves {dt : Ns} {port : Port} {frame : RingFrame} {s t : State}
    (h : execRingFrameReceive dt port frame s = .next t) : Moves s t := by
  unfold execRingFrameReceive at h
  refine event_goes (fun s => ?_) h
  simp only []
  split
  · exact .before (by simp) (receive_moves _ _ _)
  · exact .of_still (by simp)

theorem execFinalResponse_moves {dt : Ns} {ep : Endpoint} {lane : Byte} {s t : State}
    (h : execFinalResponse dt ep lane s = .next t) : Moves s t :=
  event_goes (fun s => completes_moves s ep lane.toNat) h

theorem execIdentify_moves {r : Req} {s : State} {t : State}
    (h : execIdentify r s = .next t) : Moves s t := by
  exact shotas_moves identifyCommand_keeps h

theorem execHealth_moves {r : Req} {s : State} {t : State}
    (h : execHealth r s = .next t) : Moves s t := by
  exact shotas_moves healthCommand_keeps h

theorem execParamGet_moves {r : Req} {s : State} {t : State}
    (h : execParamGet r s = .next t) : Moves s t := by
  exact shotas_moves paramGetCommand_keeps h

theorem execParamSet_moves {r : Req} {s : State} {t : State}
    (h : execParamSet r s = .next t) : Moves s t := by
  exact shotas_moves paramSetCommand_keeps h

theorem execParamCommit_moves {r : Req} {s : State} {t : State}
    (h : execParamCommit r s = .next t) : Moves s t := by
  exact shotas_moves paramCommitCommand_keeps h

theorem execParamAbort_moves {r : Req} {s : State} {t : State}
    (h : execParamAbort r s = .next t) : Moves s t := by
  exact shotas_moves paramAbortCommand_keeps h

theorem execWarmReset_moves {r : Req} {s : State} {t : State}
    (h : execWarmReset r s = .next t) : Moves s t := by
  exact shotas_moves warmResetCommand_keeps h

theorem execBind_moves {r : Req} {s : State} {t : State}
    (h : execBind r s = .next t) : Moves s t := by
  exact shotas_moves bindCommand_keeps h

theorem execRelease_moves {r : Req} {s : State} {t : State}
    (h : execRelease r s = .next t) : Moves s t := by
  exact shotas_moves releaseCommand_keeps h

theorem execForceRelease_moves {r : Req} {s : State} {t : State}
    (h : execForceRelease r s = .next t) : Moves s t := by
  exact shotas_moves forceReleaseCommand_keeps h

theorem execSubscribe_moves {r : Req} {s : State} {t : State}
    (h : execSubscribe r s = .next t) : Moves s t := by
  exact shotas_moves subscribeCommand_keeps h

theorem execSessionClose_moves {r : Req} {s : State} {t : State}
    (h : execSessionClose r s = .next t) : Moves s t := by
  exact shotas_moves sessionCloseCommand_keeps h

theorem execNoticeAck_moves {r : Req} {s : State} {t : State}
    (h : execNoticeAck r s = .next t) : Moves s t := by
  unfold execNoticeAck at h
  cases h
  exact .of_still (by simp)

theorem execOverrideSet_moves {r : Req} {s : State} {t : State}
    (h : execOverrideSet r s = .next t) : Moves s t := by
  exact shotas_moves overrideSetCommand_keeps h

theorem execOverrideClear_moves {r : Req} {s : State} {t : State}
    (h : execOverrideClear r s = .next t) : Moves s t := by
  exact shotas_moves overrideClearCommand_keeps h

theorem execOverrideList_moves {r : Req} {s : State} {t : State}
    (h : execOverrideList r s = .next t) : Moves s t := by
  exact shotas_moves overrideListCommand_keeps h

theorem execTypeSet_moves {r : Req} {s : State} {t : State}
    (h : execTypeSet r s = .next t) : Moves s t := by
  exact shotas_moves typeSetCommand_keeps h

theorem execTypeGet_moves {r : Req} {s : State} {t : State}
    (h : execTypeGet r s = .next t) : Moves s t := by
  exact shotas_moves typeGetCommand_keeps h

theorem execLampSet_moves {r : Req} {s : State} {t : State}
    (h : execLampSet r s = .next t) : Moves s t := by
  exact shotas_moves lampSetCommand_keeps h

theorem execLampGet_moves {r : Req} {s : State} {t : State}
    (h : execLampGet r s = .next t) : Moves s t := by
  exact shotas_moves lampGetCommand_keeps h

theorem execLampRemove_moves {r : Req} {s : State} {t : State}
    (h : execLampRemove r s = .next t) : Moves s t := by
  exact shotas_moves lampRemoveCommand_keeps h

theorem execTargetQuery_moves {r : Req} {s : State} {t : State}
    (h : execTargetQuery r s = .next t) : Moves s t := by
  exact shotas_moves targetQueryCommand_keeps h

theorem execNightQuery_moves {r : Req} {s : State} {t : State}
    (h : execNightQuery r s = .next t) : Moves s t := by
  exact shotas_moves nightQueryCommand_keeps h

theorem execDiagList_moves {r : Req} {s : State} {t : State}
    (h : execDiagList r s = .next t) : Moves s t := by
  exact shotas_moves diagListCommand_keeps h

theorem execSectionSet_moves {r : Req} {s : State} {t : State}
    (h : execSectionSet r s = .next t) : Moves s t := by
  exact shotas_moves sectionSetCommand_keeps h

theorem execJunctionSet_moves {r : Req} {s : State} {t : State}
    (h : execJunctionSet r s = .next t) : Moves s t := by
  exact shotas_moves junctionSetCommand_keeps h

theorem execPlaceSet_moves {r : Req} {s : State} {t : State}
    (h : execPlaceSet r s = .next t) : Moves s t := by
  exact shotas_moves placeSetCommand_keeps h

theorem execGraphGet_moves {r : Req} {s : State} {t : State}
    (h : execGraphGet r s = .next t) : Moves s t := by
  exact shotas_moves graphGetCommand_keeps h

theorem execGraphRemove_moves {r : Req} {s : State} {t : State}
    (h : execGraphRemove r s = .next t) : Moves s t := by
  exact shotas_moves graphRemoveCommand_keeps h

theorem execTrackList_moves {r : Req} {s : State} {t : State}
    (h : execTrackList r s = .next t) : Moves s t := by
  exact shotas_moves trackListCommand_keeps h

theorem execHandover_moves {r : Req} {s : State} {t : State}
    (h : execHandover r s = .next t) : Moves s t := by
  exact shotas_moves handoverCommand_keeps h

theorem execHandoverTaken_moves {r : Req} {s : State} {t : State}
    (h : execHandoverTaken r s = .next t) : Moves s t := by
  exact shotas_moves handoverTakenCommand_keeps h

theorem execHandoverCancel_moves {r : Req} {s : State} {t : State}
    (h : execHandoverCancel r s = .next t) : Moves s t := by
  exact shotas_moves handoverCancelCommand_keeps h

theorem execPeerResponse_moves {r : Req} {opcode : Nat} {status : Nat} {s : State} {t : State}
    (h : execPeerResponse r opcode status s = .next t) : Moves s t := by
  unfold execPeerResponse at h
  cases h
  exact .of_still (by simp)

theorem execGraphList_moves {r : Req} {s : State} {t : State}
    (h : execGraphList r s = .next t) : Moves s t := by
  exact shotas_moves graphListCommand_keeps h

theorem execGraphLoad_moves {r : Req} {s : State} {t : State}
    (h : execGraphLoad r s = .next t) : Moves s t := by
  exact shotas_moves graphLoadCommand_keeps h

theorem execGraphStart_moves {r : Req} {s : State} {t : State}
    (h : execGraphStart r s = .next t) : Moves s t := by
  exact shotas_moves graphStartCommand_keeps h

theorem execGraphStop_moves {r : Req} {s : State} {t : State}
    (h : execGraphStop r s = .next t) : Moves s t := by
  exact shotas_moves graphStopCommand_keeps h

theorem execGraphSwap_moves {r : Req} {s : State} {t : State}
    (h : execGraphSwap r s = .next t) : Moves s t := by
  exact shotas_moves graphSwapCommand_keeps h

theorem execGraphUnload_moves {r : Req} {s : State} {t : State}
    (h : execGraphUnload r s = .next t) : Moves s t := by
  exact shotas_moves graphUnloadCommand_keeps h

theorem execEngineStatus_moves {r : Req} {s : State} {t : State}
    (h : execEngineStatus r s = .next t) : Moves s t := by
  exact shotas_moves engineStatusCommand_keeps h

theorem execQueueStatus_moves {r : Req} {s : State} {t : State}
    (h : execQueueStatus r s = .next t) : Moves s t := by
  exact shotas_moves queueStatusCommand_keeps h

theorem execBackstepStatus_moves {r : Req} {s : State} {t : State}
    (h : execBackstepStatus r s = .next t) : Moves s t := by
  exact shotas_moves backstepStatusCommand_keeps h

theorem execNodeMapSet_moves {r : Req} {s : State} {t : State}
    (h : execNodeMapSet r s = .next t) : Moves s t := by
  exact shotas_moves nodeMapSetCommand_keeps h

theorem execNodeMapGet_moves {r : Req} {s : State} {t : State}
    (h : execNodeMapGet r s = .next t) : Moves s t := by
  exact shotas_moves nodeMapGetCommand_keeps h

theorem execNodeMapRemove_moves {r : Req} {s : State} {t : State}
    (h : execNodeMapRemove r s = .next t) : Moves s t := by
  exact shotas_moves nodeMapRemoveCommand_keeps h

theorem execNodeList_moves {r : Req} {s : State} {t : State}
    (h : execNodeList r s = .next t) : Moves s t := by
  exact shotas_moves nodeListCommand_keeps h

theorem execNodeProbe_moves {r : Req} {s : State} {t : State}
    (h : execNodeProbe r s = .next t) : Moves s t := by
  exact shotas_moves nodeProbeCommand_keeps h

theorem execNodeLeave_moves {r : Req} {s : State} {t : State}
    (h : execNodeLeave r s = .next t) : Moves s t := by
  exact shotas_moves nodeLeaveCommand_keeps h

theorem execRadioStatus_moves {r : Req} {s : State} {t : State}
    (h : execRadioStatus r s = .next t) : Moves s t := by
  exact shotas_moves radioStatusCommand_keeps h

theorem execMeterTake_moves {r : Req} {s : State} {t : State}
    (h : execMeterTake r s = .next t) : Moves s t := by
  exact shotas_moves meterTakeCommand_keeps h

theorem execMeterRead_moves {r : Req} {s : State} {t : State}
    (h : execMeterRead r s = .next t) : Moves s t := by
  exact shotas_moves meterReadCommand_keeps h

theorem execPqList_moves {r : Req} {s : State} {t : State}
    (h : execPqList r s = .next t) : Moves s t := by
  exact shotas_moves pqListCommand_keeps h

theorem execSpanSet_moves {r : Req} {s : State} {t : State}
    (h : execSpanSet r s = .next t) : Moves s t := by
  exact shotas_moves spanSetCommand_keeps h

theorem execSpanGet_moves {r : Req} {s : State} {t : State}
    (h : execSpanGet r s = .next t) : Moves s t := by
  exact shotas_moves spanGetCommand_keeps h

theorem execReconQuery_moves {r : Req} {s : State} {t : State}
    (h : execReconQuery r s = .next t) : Moves s t := by
  exact shotas_moves reconQueryCommand_keeps h

theorem execCircuitForce_moves {r : Req} {s : State} {t : State}
    (h : execCircuitForce r s = .next t) : Moves s t := by
  exact shotas_moves circuitForceCommand_keeps h

theorem execCircuitStatus_moves {r : Req} {s : State} {t : State}
    (h : execCircuitStatus r s = .next t) : Moves s t := by
  exact shotas_moves circuitStatusCommand_keeps h

theorem execLatchStatus_moves {r : Req} {s : State} {t : State}
    (h : execLatchStatus r s = .next t) : Moves s t := by
  exact shotas_moves latchStatusCommand_keeps h

theorem execRingHealth_moves {r : Req} {s : State} {t : State}
    (h : execRingHealth r s = .next t) : Moves s t := by
  exact shotas_moves ringHealthCommand_keeps h

theorem execRingPeerSet_moves {r : Req} {s : State} {t : State}
    (h : execRingPeerSet r s = .next t) : Moves s t := by
  exact shotas_moves ringPeerSetCommand_keeps h

theorem execRingPeerGet_moves {r : Req} {s : State} {t : State}
    (h : execRingPeerGet r s = .next t) : Moves s t := by
  exact shotas_moves ringPeerGetCommand_keeps h

theorem execTimeStatus_moves {r : Req} {s : State} {t : State}
    (h : execTimeStatus r s = .next t) : Moves s t := by
  exact shotas_moves timeStatusCommand_keeps h

theorem execTimeSeed_moves {r : Req} {s : State} {t : State}
    (h : execTimeSeed r s = .next t) : Moves s t := by
  exact shotas_moves timeSeedCommand_keeps h

theorem execHistQuery_moves {r : Req} {s : State} {t : State}
    (h : execHistQuery r s = .next t) : Moves s t := by
  exact shotas_moves histQueryCommand_keeps h

theorem execHistNext_moves {r : Req} {s : State} {t : State}
    (h : execHistNext r s = .next t) : Moves s t := by
  exact shotas_moves histNextCommand_keeps h

theorem execHistClose_moves {r : Req} {s : State} {t : State}
    (h : execHistClose r s = .next t) : Moves s t := by
  exact shotas_moves histCloseCommand_keeps h

theorem execHistStatus_moves {r : Req} {s : State} {t : State}
    (h : execHistStatus r s = .next t) : Moves s t := by
  exact shotas_moves histStatusCommand_keeps h

theorem execRecRead_moves {r : Req} {s : State} {t : State}
    (h : execRecRead r s = .next t) : Moves s t := by
  exact shotas_moves recReadCommand_keeps h

theorem execRecStatus_moves {r : Req} {s : State} {t : State}
    (h : execRecStatus r s = .next t) : Moves s t := by
  exact shotas_moves recStatusCommand_keeps h

theorem execPerfRead_moves {r : Req} {s : State} {t : State}
    (h : execPerfRead r s = .next t) : Moves s t := by
  exact shotas_moves perfReadCommand_keeps h

theorem execPerfSamples_moves {r : Req} {s : State} {t : State}
    (h : execPerfSamples r s = .next t) : Moves s t := by
  exact shotas_moves perfSamplesCommand_keeps h

theorem execWmeterRead_moves {r : Req} {s : State} {t : State}
    (h : execWmeterRead r s = .next t) : Moves s t := by
  exact shotas_moves wmeterReadCommand_keeps h

theorem execKeyWrite_moves {r : Req} {s : State} {t : State}
    (h : execKeyWrite r s = .next t) : Moves s t := by
  exact shotas_moves keyWriteCommand_keeps h

theorem execKeyErase_moves {r : Req} {s : State} {t : State}
    (h : execKeyErase r s = .next t) : Moves s t := by
  exact shotas_moves keyEraseCommand_keeps h

theorem execKeyDisable_moves {r : Req} {s : State} {t : State}
    (h : execKeyDisable r s = .next t) : Moves s t := by
  exact shotas_moves keyDisableCommand_keeps h

theorem execKeyDerive_moves {r : Req} {s : State} {t : State}
    (h : execKeyDerive r s = .next t) : Moves s t := by
  exact shotas_moves keyDeriveCommand_keeps h

theorem execKeyStatus_moves {r : Req} {s : State} {t : State}
    (h : execKeyStatus r s = .next t) : Moves s t := by
  exact shotas_moves keyStatusCommand_keeps h

theorem execAttest_moves {r : Req} {s : State} {t : State}
    (h : execAttest r s = .next t) : Moves s t := by
  exact shotas_moves attestCommand_keeps h

theorem execImageList_moves {r : Req} {s : State} {t : State}
    (h : execImageList r s = .next t) : Moves s t := by
  exact shotas_moves imageListCommand_keeps h

theorem execUpdateArm_moves {r : Req} {s : State} {t : State}
    (h : execUpdateArm r s = .next t) : Moves s t := by
  exact shotas_moves updateArmCommand_keeps h

theorem execUpdateDisarm_moves {r : Req} {s : State} {t : State}
    (h : execUpdateDisarm r s = .next t) : Moves s t := by
  exact shotas_moves updateDisarmCommand_keeps h

theorem execUpdateRollback_moves {r : Req} {s : State} {t : State}
    (h : execUpdateRollback r s = .next t) : Moves s t := by
  exact shotas_moves updateRollbackCommand_keeps h

theorem execUpdateStatus_moves {r : Req} {s : State} {t : State}
    (h : execUpdateStatus r s = .next t) : Moves s t := by
  exact shotas_moves updateStatusCommand_keeps h

theorem execImageErase_moves {r : Req} {s : State} {t : State}
    (h : execImageErase r s = .next t) : Moves s t := by
  exact shotas_moves imageEraseCommand_keeps h

theorem execSdScan_moves {r : Req} {files : List ImageFile} {s : State} {t : State}
    (h : execSdScan r files s = .next t) : Moves s t := by
  exact shotas_moves (fun r s => .of_kept (by simp [sdScanCommand, unsupportedCommand])) h

theorem execChainOffer_moves {r : Req} {s : State} {t : State}
    (h : execChainOffer r s = .next t) : Moves s t := by
  exact shotas_moves chainOfferCommand_keeps h

theorem execChainFetch_moves {r : Req} {s : State} {t : State}
    (h : execChainFetch r s = .next t) : Moves s t := by
  exact shotas_moves chainFetchCommand_keeps h

theorem execChainArm_moves {r : Req} {s : State} {t : State}
    (h : execChainArm r s = .next t) : Moves s t := by
  exact shotas_moves chainArmCommand_keeps h

theorem execRtcGet_moves {r : Req} {s : State} {t : State}
    (h : execRtcGet r s = .next t) : Moves s t := by
  exact shotas_moves rtcGetCommand_keeps h

theorem execRtcSet_moves {r : Req} {s : State} {t : State}
    (h : execRtcSet r s = .next t) : Moves s t := by
  exact shotas_moves rtcSetCommand_keeps h

theorem execPowerStatus_moves {r : Req} {s : State} {t : State}
    (h : execPowerStatus r s = .next t) : Moves s t := by
  exact shotas_moves powerStatusCommand_keeps h

theorem execPowerHold_moves {r : Req} {s : State} {t : State}
    (h : execPowerHold r s = .next t) : Moves s t := by
  exact shotas_moves powerHoldCommand_keeps h

theorem execInterimResponse_moves {dt : Ns} {ep : Endpoint} {lane : Byte} {s : State} {t : State}
    (h : execInterimResponse dt ep lane s = .next t) : Moves s t := by
  unfold execInterimResponse at h
  exact event_moves (fun s => by
    try simp only []
    (repeat' split) <;> simp [↓still_mk, ↓still_ite]) h

theorem execUartFrameTimeout_moves {dt : Ns} {_frame : List Byte} {age : Ns} {s : State} {t : State}
    (h : execUartFrameTimeout dt _frame age s = .next t) : Moves s t := by
  unfold execUartFrameTimeout at h
  exact event_moves (fun s => by
    try simp only []
    (repeat' split) <;> simp [↓still_mk, ↓still_ite]) h

theorem execSessionLapse_moves {dt : Ns} {ep : Endpoint} {s : State} {t : State}
    (h : execSessionLapse dt ep s = .next t) : Moves s t := by
  unfold execSessionLapse at h
  exact event_moves (fun s => by
    try simp only []
    (repeat' split) <;> simp [↓still_mk, ↓still_ite]) h

theorem execNoticeResend_moves {dt : Ns} {ep : Endpoint} {s : State} {t : State}
    (h : execNoticeResend dt ep s = .next t) : Moves s t := by
  unfold execNoticeResend at h
  exact event_moves (fun s => by
    try simp only []
    (repeat' split) <;> simp [↓still_mk, ↓still_ite]) h

theorem execStagingTimeout_moves {dt : Ns} {s : State} {t : State}
    (h : execStagingTimeout dt s = .next t) : Moves s t := by
  unfold execStagingTimeout at h
  exact event_moves (fun s => by
    try simp only []
    (repeat' split) <;> simp [↓still_mk, ↓still_ite]) h

theorem execWarmResetDue_moves {dt : Ns} {s : State} {t : State}
    (h : execWarmResetDue dt s = .next t) : Moves s t := by
  unfold execWarmResetDue at h
  exact event_moves (fun s => by
    try simp only []
    (repeat' split) <;> simp [↓still_mk, ↓still_ite]) h

theorem execSnapshotLapse_moves {dt : Ns} {ep : Endpoint} {s : State} {t : State}
    (h : execSnapshotLapse dt ep s = .next t) : Moves s t := by
  unfold execSnapshotLapse at h
  exact event_moves (fun s => by
    try simp only []
    (repeat' split) <;> simp [↓still_mk, ↓still_ite]) h

theorem execCursorIdle_moves {dt : Ns} {cursor : Nat} {s : State} {t : State}
    (h : execCursorIdle dt cursor s = .next t) : Moves s t := by
  unfold execCursorIdle at h
  exact event_moves (fun s => by
    try simp only []
    (repeat' split) <;> simp [↓still_mk, ↓still_ite]) h

theorem execHlCmdApertureWrite_moves {dt : Ns} {tx : HlTx} {bytes : List Byte} {s : State} {t : State}
    (h : execHlCmdApertureWrite dt tx bytes s = .next t) : Moves s t := by
  unfold execHlCmdApertureWrite at h
  exact event_moves (fun s => by
    try simp only []
    (repeat' split) <;> simp [↓still_mk, ↓still_ite]) h

theorem execHlRspApertureRead_moves {dt : Ns} {tx : HlTx} {count : Nat} {s : State} {t : State}
    (h : execHlRspApertureRead dt tx count s = .next t) : Moves s t := by
  unfold execHlRspApertureRead at h
  exact event_moves (fun s => by
    try simp only []
    (repeat' split) <;> simp [↓still_mk, ↓still_ite]) h

theorem execRing_moves {dt : Ns} {tx : HlTx} {clearToo : Bool} {s : State} {t : State}
    (h : execRing dt tx clearToo s = .next t) : Moves s t := by
  unfold execRing at h
  exact event_moves (fun s => by
    try simp only []
    (repeat' split) <;> simp [↓still_mk, ↓still_ite]) h

theorem execClear_moves {dt : Ns} {tx : HlTx} {s : State} {t : State}
    (h : execClear dt tx s = .next t) : Moves s t := by
  unfold execClear at h
  exact event_moves (fun s => by
    try simp only []
    (repeat' split) <;> simp [↓still_mk, ↓still_ite]) h

theorem execPop_moves {dt : Ns} {tx : HlTx} {s : State} {t : State}
    (h : execPop dt tx s = .next t) : Moves s t := by
  unfold execPop at h
  exact event_moves (fun s => by
    try simp only []
    (repeat' split) <;> simp [↓still_mk, ↓still_ite]) h

theorem execLinkReset_moves {dt : Ns} {tx : HlTx} {moduleToo : Bool} {s : State} {t : State}
    (h : execLinkReset dt tx moduleToo s = .next t) : Moves s t := by
  unfold execLinkReset at h
  exact event_moves (fun s => by
    try simp only []
    (repeat' split) <;> simp [↓still_mk, ↓still_ite]) h

theorem execModuleReset_moves {dt : Ns} {tx : HlTx} {s : State} {t : State}
    (h : execModuleReset dt tx s = .next t) : Moves s t := by
  unfold execModuleReset at h
  exact event_moves (fun s => by
    try simp only []
    (repeat' split) <;> simp [↓still_mk, ↓still_ite]) h

theorem execSdTimeRead_moves {dt : Ns} {burst : HlRead} {s : State} {t : State}
    (h : execSdTimeRead dt burst s = .next t) : Moves s t := by
  unfold execSdTimeRead at h
  exact event_moves (fun s => by
    try simp only []
    (repeat' split) <;> simp [↓still_mk, ↓still_ite]) h

theorem execHlNowLoRead_moves {dt : Ns} {burst : HlRead} {s : State} {t : State}
    (h : execHlNowLoRead dt burst s = .next t) : Moves s t := by
  unfold execHlNowLoRead at h
  exact event_moves (fun s => by
    try simp only []
    (repeat' split) <;> simp [↓still_mk, ↓still_ite]) h

theorem execRegisterWrite_moves {dt : Ns} {tx : HlTx} {values : List Word} {bits : Nat} {s : State} {t : State}
    (h : execRegisterWrite dt tx values bits s = .next t) : Moves s t := by
  unfold execRegisterWrite at h
  exact event_moves (fun s => by
    try simp only []
    (repeat' split) <;> simp [↓still_mk, ↓still_ite]) h

theorem execParityScan_moves {dt : Ns} {fails : List ParityFail} {s : State} {t : State}
    (h : execParityScan dt fails s = .next t) : Moves s t := by
  unfold execParityScan at h
  exact event_moves (fun s => by
    try simp only []
    (repeat' split) <;> simp [↓still_mk, ↓still_ite]) h

theorem execItemDispatch_moves {dt : Ns} {engine : Nat} {errors : List CellError} {s : State} {t : State}
    (h : execItemDispatch dt engine errors s = .next t) : Moves s t := by
  unfold execItemDispatch at h
  exact event_moves (fun s => by
    try simp only []
    (repeat' split) <;> simp [↓still_mk, ↓still_ite]) h

theorem execItemComplete_moves {dt : Ns} {engine : Nat} {o : ItemOutcome} {s : State} {t : State}
    (h : execItemComplete dt engine o s = .next t) : Moves s t := by
  unfold execItemComplete at h
  exact event_moves (fun s => by
    try simp only []
    (repeat' split) <;> simp [↓still_mk, ↓still_ite]) h

theorem execItemOpsLimit_moves {dt : Ns} {engine : Nat} {node : Nat} {s : State} {t : State}
    (h : execItemOpsLimit dt engine node s = .next t) : Moves s t := by
  unfold execItemOpsLimit at h
  exact event_moves (fun s => by
    try simp only []
    (repeat' split) <;> simp [↓still_mk, ↓still_ite]) h

theorem execEngineStall_moves {dt : Ns} {engine : Nat} {retestPasses : Bool} {s : State} {t : State}
    (h : execEngineStall dt engine retestPasses s = .next t) : Moves s t := by
  unfold execEngineStall at h
  exact event_moves (fun s => by
    try simp only []
    (repeat' split) <;> simp [↓still_mk, ↓still_ite]) h

theorem execEngineMemoryError_moves {dt : Ns} {engine : Nat} {s : State} {t : State}
    (h : execEngineMemoryError dt engine s = .next t) : Moves s t := by
  unfold execEngineMemoryError at h
  exact event_moves (fun s => by
    try simp only []
    (repeat' split) <;> simp [↓still_mk, ↓still_ite]) h

theorem execEngineRetest_moves {dt : Ns} {engine : Nat} {passes : Bool} {s : State} {t : State}
    (h : execEngineRetest dt engine passes s = .next t) : Moves s t := by
  unfold execEngineRetest at h
  exact event_moves (fun s => by
    try simp only []
    (repeat' split) <;> simp [↓still_mk, ↓still_ite]) h

theorem execFlowStateError_moves {dt : Ns} {graph : Nat} {flow : Nat} {error : FlowError} {s : State} {t : State}
    (h : execFlowStateError dt graph flow error s = .next t) : Moves s t := by
  unfold execFlowStateError at h
  exact event_moves (fun s => by
    try simp only []
    (repeat' split) <;> simp [↓still_mk, ↓still_ite]) h

theorem execAlarmDue_moves {dt : Ns} {graph : Nat} {flow : Nat} {s : State} {t : State}
    (h : execAlarmDue dt graph flow s = .next t) : Moves s t := by
  unfold execAlarmDue at h
  exact event_moves (fun s => by
    try simp only []
    (repeat' split) <;> simp [↓still_mk, ↓still_ite]) h

theorem execDispatchBoundary_moves {dt : Ns} {graph : Nat} {s : State} {t : State}
    (h : execDispatchBoundary dt graph s = .next t) : Moves s t := by
  unfold execDispatchBoundary at h
  exact event_moves (fun s => by
    try simp only []
    (repeat' split) <;> simp [↓still_mk, ↓still_ite]) h

theorem execQueueLevelSecondEnd_moves {dt : Ns} {queue : Nat} {s : State} {t : State}
    (h : execQueueLevelSecondEnd dt queue s = .next t) : Moves s t := by
  unfold execQueueLevelSecondEnd at h
  exact event_moves (fun s => by
    try simp only []
    (repeat' split) <;> simp [↓still_mk, ↓still_ite]) h

theorem execPaceLowerStep_moves {dt : Ns} {s : State} {t : State}
    (h : execPaceLowerStep dt s = .next t) : Moves s t := by
  unfold execPaceLowerStep at h
  exact event_moves (fun s => by
    try simp only []
    (repeat' split) <;> simp [↓still_mk, ↓still_ite]) h

theorem execReviseMissed_moves {dt : Ns} {point : Pid} {launch : Ns} {s : State} {t : State}
    (h : execReviseMissed dt point launch s = .next t) : Moves s t := by
  unfold execReviseMissed at h
  exact event_moves (fun s => by
    try simp only []
    (repeat' split) <;> simp [↓still_mk, ↓still_ite]) h

theorem execTrackTick_moves {dt : Ns} {track : Nat} {s : State} {t : State}
    (h : execTrackTick dt track s = .next t) : Moves s t := by
  unfold execTrackTick at h
  exact event_moves (fun s => by
    try simp only []
    (repeat' split) <;> simp [↓still_mk, ↓still_ite]) h

theorem execTrackCoastTimeout_moves {dt : Ns} {track : Nat} {s : State} {t : State}
    (h : execTrackCoastTimeout dt track s = .next t) : Moves s t := by
  unfold execTrackCoastTimeout at h
  exact event_moves (fun s => by
    try simp only []
    (repeat' split) <;> simp [↓still_mk, ↓still_ite]) h

theorem execTentativeTimeout_moves {dt : Ns} {track : Nat} {s : State} {t : State}
    (h : execTentativeTimeout dt track s = .next t) : Moves s t := by
  unfold execTentativeTimeout at h
  exact event_moves (fun s => by
    try simp only []
    (repeat' split) <;> simp [↓still_mk, ↓still_ite]) h

theorem execShadowTimeout_moves {dt : Ns} {track : Nat} {s : State} {t : State}
    (h : execShadowTimeout dt track s = .next t) : Moves s t := by
  unfold execShadowTimeout at h
  exact event_moves (fun s => by
    try simp only []
    (repeat' split) <;> simp [↓still_mk, ↓still_ite]) h

theorem execUntrackedCoverExpiry_moves {dt : Ns} {s : State} {t : State}
    (h : execUntrackedCoverExpiry dt s = .next t) : Moves s t := by
  unfold execUntrackedCoverExpiry at h
  exact event_moves (fun s => by
    try simp only []
    (repeat' split) <;> simp [↓still_mk, ↓still_ite]) h

theorem execHoldExpiry_moves {dt : Ns} {point : Pid} {s : State} {t : State}
    (h : execHoldExpiry dt point s = .next t) : Moves s t := by
  unfold execHoldExpiry at h
  exact event_moves (fun s => by
    try simp only []
    (repeat' split) <;> simp [↓still_mk, ↓still_ite]) h

theorem execFlapHoldExpiry_moves {dt : Ns} {point : Pid} {s : State} {t : State}
    (h : execFlapHoldExpiry dt point s = .next t) : Moves s t := by
  unfold execFlapHoldExpiry at h
  exact event_moves (fun s => by
    try simp only []
    (repeat' split) <;> simp [↓still_mk, ↓still_ite]) h

theorem execFallDeferExpiry_moves {dt : Ns} {point : Pid} {s : State} {t : State}
    (h : execFallDeferExpiry dt point s = .next t) : Moves s t := by
  unfold execFallDeferExpiry at h
  exact event_moves (fun s => by
    try simp only []
    (repeat' split) <;> simp [↓still_mk, ↓still_ite]) h

theorem execHandoverCrossing_moves {dt : Ns} {id : Nat} {s : State} {t : State}
    (h : execHandoverCrossing dt id s = .next t) : Moves s t := by
  unfold execHandoverCrossing at h
  exact event_moves (fun s => by
    try simp only []
    (repeat' split) <;> simp [↓still_mk, ↓still_ite]) h

theorem execPeerResend_moves {dt : Ns} {peer : Mac} {lane : Byte} {s : State} {t : State}
    (h : execPeerResend dt peer lane s = .next t) : Moves s t := by
  unfold execPeerResend at h
  exact event_moves (fun s => by
    try simp only []
    (repeat' split) <;> simp [↓still_mk, ↓still_ite]) h

theorem execNightResolve_moves {dt : Ns} {s : State} {t : State}
    (h : execNightResolve dt s = .next t) : Moves s t := by
  unfold execNightResolve at h
  exact event_moves (fun s => by
    try simp only []
    (repeat' split) <;> simp [↓still_mk, ↓still_ite]) h

theorem execPlanCommandDue_moves {dt : Ns} {s : State} {t : State}
    (h : execPlanCommandDue dt s = .next t) : Moves s t := by
  unfold execPlanCommandDue at h
  exact event_moves (fun s => by
    try simp only []
    (repeat' split) <;> simp [↓still_mk, ↓still_ite]) h

theorem execPhotoDebounce_moves {dt : Ns} {s : State} {t : State}
    (h : execPhotoDebounce dt s = .next t) : Moves s t := by
  unfold execPhotoDebounce at h
  exact event_moves (fun s => by
    try simp only []
    (repeat' split) <;> simp [↓still_mk, ↓still_ite]) h

theorem execPhotoWindowExpiry_moves {dt : Ns} {s : State} {t : State}
    (h : execPhotoWindowExpiry dt s = .next t) : Moves s t := by
  unfold execPhotoWindowExpiry at h
  exact event_moves (fun s => by
    try simp only []
    (repeat' split) <;> simp [↓still_mk, ↓still_ite]) h

theorem execOverrideEnd_moves {dt : Ns} {handle : Nat} {s : State} {t : State}
    (h : execOverrideEnd dt handle s = .next t) : Moves s t := by
  unfold execOverrideEnd at h
  exact event_moves (fun s => by
    try simp only []
    (repeat' split) <;> simp [↓still_mk, ↓still_ite]) h

theorem execCircuitDemandDue_moves {dt : Ns} {circuit : Nat} {s : State} {t : State}
    (h : execCircuitDemandDue dt circuit s = .next t) : Moves s t := by
  unfold execCircuitDemandDue at h
  exact event_moves (fun s => by
    try simp only []
    (repeat' split) <;> simp [↓still_mk, ↓still_ite]) h

theorem execDiagDue_moves {dt : Ns} {point : Pid} {channel : Nat} {s : State} {t : State}
    (h : execDiagDue dt point channel s = .next t) : Moves s t := by
  unfold execDiagDue at h
  exact event_moves (fun s => by
    try simp only []
    (repeat' split) <;> simp [↓still_mk, ↓still_ite]) h

theorem execUndiagnosed_moves {dt : Ns} {point : Pid} {channel : Nat} {s : State} {t : State}
    (h : execUndiagnosed dt point channel s = .next t) : Moves s t := by
  unfold execUndiagnosed at h
  exact event_moves (fun s => by
    try simp only []
    (repeat' split) <;> simp [↓still_mk, ↓still_ite]) h

theorem execLateDiscard_moves {dt : Ns} {point : Pid} {launch : Ns} {s : State} {t : State}
    (h : execLateDiscard dt point launch s = .next t) : Moves s t := by
  unfold execLateDiscard at h
  exact event_moves (fun s => by
    try simp only []
    (repeat' split) <;> simp [↓still_mk, ↓still_ite]) h

theorem execUplinkFrame_moves {dt : Ns} {radio : Nat} {frame : UplinkFrame} {s : State} {t : State}
    (h : execUplinkFrame dt radio frame s = .next t) : Moves s t := by
  unfold execUplinkFrame at h
  exact event_moves (fun s => by
    try simp only []
    (repeat' split) <;> simp [↓still_mk, ↓still_ite]) h

theorem execNodeAckReceive_moves {dt : Ns} {radio : Nat} {frame : Nat} {s : State} {t : State}
    (h : execNodeAckReceive dt radio frame s = .next t) : Moves s t := by
  unfold execNodeAckReceive at h
  exact event_moves (fun s => by
    try simp only []
    (repeat' split) <;> simp [↓still_mk, ↓still_ite]) h

theorem execBeaconCell_moves {dt : Ns} {radio : Nat} {use : CellUse} {s : State} {t : State}
    (h : execBeaconCell dt radio use s = .next t) : Moves s t := by
  unfold execBeaconCell at h
  exact event_moves (fun s => by
    try simp only []
    (repeat' split) <;> try simp [↓still_mk, ↓still_ite]
    all_goals (refine still_snd (by assumption) ?_; simp)
    all_goals (refine still_snd (by assumption) ?_; simp)) h

theorem execDriveCell_moves {dt : Ns} {radio : Nat} {use : CellUse} {s : State} {t : State}
    (h : execDriveCell dt radio use s = .next t) : Moves s t := by
  unfold execDriveCell at h
  exact event_moves (fun s => by
    try simp only []
    (repeat' split) <;> try simp [↓still_mk, ↓still_ite]
    all_goals (refine still_snd (by assumption) ?_; simp)
    all_goals (refine still_snd (by assumption) ?_; simp)) h

theorem execOtherDownlinkCell_moves {dt : Ns} {radio : Nat} {use : CellUse} {s : State} {t : State}
    (h : execOtherDownlinkCell dt radio use s = .next t) : Moves s t := by
  unfold execOtherDownlinkCell at h
  exact event_moves (fun s => by
    try simp only []
    (repeat' split) <;> try simp [↓still_mk, ↓still_ite]
    all_goals (refine still_snd (by assumption) ?_; simp)
    all_goals (refine still_snd (by assumption) ?_; simp)) h

theorem execE2eResend_moves {dt : Ns} {frame : Nat} {s : State} {t : State}
    (h : execE2eResend dt frame s = .next t) : Moves s t := by
  unfold execE2eResend at h
  exact event_moves (fun s => by
    try simp only []
    (repeat' split) <;> simp [↓still_mk, ↓still_ite]) h

theorem execNodeSilent_moves {dt : Ns} {point : Pid} {s : State} {t : State}
    (h : execNodeSilent dt point s = .next t) : Moves s t := by
  unfold execNodeSilent at h
  exact event_moves (fun s => by
    try simp only []
    (repeat' split) <;> simp [↓still_mk, ↓still_ite]) h

theorem execKeyRoll_moves {dt : Ns} {key : List Byte} {s : State} {t : State}
    (h : execKeyRoll dt key s = .next t) : Moves s t := by
  unfold execKeyRoll at h
  exact event_moves (fun s => by
    try simp only []
    (repeat' split) <;> simp [↓still_mk, ↓still_ite]) h

theorem execNetkeyActivation_moves {dt : Ns} {s : State} {t : State}
    (h : execNetkeyActivation dt s = .next t) : Moves s t := by
  unfold execNetkeyActivation at h
  exact event_moves (fun s => by
    try simp only []
    (repeat' split) <;> simp [↓still_mk, ↓still_ite]) h

theorem execOldKeyDiscard_moves {dt : Ns} {s : State} {t : State}
    (h : execOldKeyDiscard dt s = .next t) : Moves s t := by
  unfold execOldKeyDiscard at h
  exact event_moves (fun s => by
    try simp only []
    (repeat' split) <;> simp [↓still_mk, ↓still_ite]) h

theorem execRadioSelfTestFail_moves {dt : Ns} {radio : Nat} {s : State} {t : State}
    (h : execRadioSelfTestFail dt radio s = .next t) : Moves s t := by
  unfold execRadioSelfTestFail at h
  exact event_moves (fun s => by
    try simp only []
    (repeat' split) <;> simp [↓still_mk, ↓still_ite]) h

theorem execActivationBroadcast_moves {dt : Ns} {kind : Nat} {s : State} {t : State}
    (h : execActivationBroadcast dt kind s = .next t) : Moves s t := by
  unfold execActivationBroadcast at h
  exact event_moves (fun s => by
    try simp only []
    (repeat' split) <;> simp [↓still_mk, ↓still_ite]) h

theorem execMeterCycleEnd_moves {dt : Ns} {input : Nat} {cycle : CycleData} {s : State} {t : State}
    (h : execMeterCycleEnd dt input cycle s = .next t) : Moves s t := by
  unfold execMeterCycleEnd at h
  exact island_moves (fun s => by
    try simp only []
    (repeat' split) <;> simp [↓still_mk, ↓still_ite]) h

theorem execHalfCycleWindow_moves {dt : Ns} {windows : List HalfWindow} {s : State} {t : State}
    (h : execHalfCycleWindow dt windows s = .next t) : Moves s t := by
  unfold execHalfCycleWindow at h
  exact island_moves (fun s => by
    try simp only []
    (repeat' split) <;> simp [↓still_mk, ↓still_ite]) h

theorem execPqEventOpenTimeout_moves {dt : Ns} {kind : Nat} {s : State} {t : State}
    (h : execPqEventOpenTimeout dt kind s = .next t) : Moves s t := by
  unfold execPqEventOpenTimeout at h
  exact island_moves (fun s => by
    try simp only []
    (repeat' split) <;> simp [↓still_mk, ↓still_ite]) h

theorem execFrequencyInterval_moves {dt : Ns} {input : Nat} {s : State} {t : State}
    (h : execFrequencyInterval dt input s = .next t) : Moves s t := by
  unfold execFrequencyInterval at h
  exact island_moves (fun s => by
    try simp only []
    (repeat' split) <;> simp [↓still_mk, ↓still_ite]) h

theorem execLedgerBoundary_moves {dt : Ns} {s : State} {t : State}
    (h : execLedgerBoundary dt s = .next t) : Moves s t := by
  unfold execLedgerBoundary at h
  exact island_moves (fun s => by
    try simp only []
    (repeat' split) <;> simp [↓still_mk, ↓still_ite]) h

theorem execMeterCheckpoint_moves {dt : Ns} {s : State} {t : State}
    (h : execMeterCheckpoint dt s = .next t) : Moves s t := by
  unfold execMeterCheckpoint at h
  exact island_moves (fun s => by
    try simp only []
    (repeat' split) <;> simp [↓still_mk, ↓still_ite]) h

theorem execCalibrationStart_moves {dt : Ns} {converter : Nat} {s : State} {t : State}
    (h : execCalibrationStart dt converter s = .next t) : Moves s t := by
  unfold execCalibrationStart at h
  exact island_moves (fun s => by
    try simp only []
    (repeat' split) <;> simp [↓still_mk, ↓still_ite]) h

theorem execCalibrationForced_moves {dt : Ns} {converter : Nat} {s : State} {t : State}
    (h : execCalibrationForced dt converter s = .next t) : Moves s t := by
  unfold execCalibrationForced at h
  exact island_moves (fun s => by
    try simp only []
    (repeat' split) <;> simp [↓still_mk, ↓still_ite]) h

theorem execRecWaitExpiry_moves {dt : Ns} {circuit : Nat} {s : State} {t : State}
    (h : execRecWaitExpiry dt circuit s = .next t) : Moves s t := by
  unfold execRecWaitExpiry at h
  exact event_moves (fun s => by
    try simp only []
    (repeat' split) <;> simp [↓still_mk, ↓still_ite]) h

theorem execChainCycle_moves {dt : Ns} {words : List (BitVec 128)} {s : State} {t : State}
    (h : execChainCycle dt words s = .next t) : Moves s t := by
  unfold execChainCycle at h
  exact event_moves (fun s => by
    try simp only []
    (repeat' split) <;> simp [↓still_mk, ↓still_ite]) h

theorem execDwellExpiry_moves {dt : Ns} {circuit : Nat} {s : State} {t : State}
    (h : execDwellExpiry dt circuit s = .next t) : Moves s t := by
  unfold execDwellExpiry at h
  exact event_moves (fun s => by
    try simp only []
    (repeat' split) <;> simp [↓still_mk, ↓still_ite]) h

theorem execInrushExpiry_moves {dt : Ns} {s : State} {t : State}
    (h : execInrushExpiry dt s = .next t) : Moves s t := by
  unfold execInrushExpiry at h
  exact event_moves (fun s => by
    try simp only []
    (repeat' split) <;> simp [↓still_mk, ↓still_ite]) h

theorem execCircuitForceEnd_moves {dt : Ns} {circuit : Nat} {s : State} {t : State}
    (h : execCircuitForceEnd dt circuit s = .next t) : Moves s t := by
  unfold execCircuitForceEnd at h
  exact event_moves (fun s => by
    try simp only []
    (repeat' split) <;> simp [↓still_mk, ↓still_ite]) h

theorem execSecondCopyTimeout_moves {dt : Ns} {src : Mac} {hsrSeq : BitVec 16} {s : State} {t : State}
    (h : execSecondCopyTimeout dt src hsrSeq s = .next t) : Moves s t := by
  unfold execSecondCopyTimeout at h
  exact event_moves (fun s => by
    try simp only []
    (repeat' split) <;> simp [↓still_mk, ↓still_ite]) h

theorem execSupervisionSend_moves {dt : Ns} {s : State} {t : State}
    (h : execSupervisionSend dt s = .next t) : Moves s t := by
  unfold execSupervisionSend at h
  exact event_moves (fun s => by
    try simp only []
    (repeat' split) <;> simp [↓still_mk, ↓still_ite]) h

theorem execSupervisionTimeout_moves {dt : Ns} {s : State} {t : State}
    (h : execSupervisionTimeout dt s = .next t) : Moves s t := by
  unfold execSupervisionTimeout at h
  exact event_moves (fun s => by
    try simp only []
    (repeat' split) <;> simp [↓still_mk, ↓still_ite]) h

theorem execPeerDelayExchange_moves {dt : Ns} {port : Port} {s : State} {t : State}
    (h : execPeerDelayExchange dt port s = .next t) : Moves s t := by
  unfold execPeerDelayExchange at h
  exact event_moves (fun s => by
    try simp only []
    (repeat' split) <;> simp [↓still_mk, ↓still_ite]) h

theorem execSync_moves {dt : Ns} {port : Port} {m : SyncMsg} {s : State} {t : State}
    (h : execSync dt port m s = .next t) : Moves s t := by
  unfold execSync at h
  exact event_moves (fun s => by
    try simp only []
    (repeat' split) <;> simp [↓still_mk, ↓still_ite]) h

theorem execFollowUp_moves {dt : Ns} {port : Port} {m : FollowUpMsg} {s : State} {t : State}
    (h : execFollowUp dt port m s = .next t) : Moves s t := by
  unfold execFollowUp at h
  exact event_moves (fun s => by
    try simp only []
    (repeat' split) <;> simp [↓still_mk, ↓still_ite]) h

theorem execFollowUpHoldExpiry_moves {dt : Ns} {s : State} {t : State}
    (h : execFollowUpHoldExpiry dt s = .next t) : Moves s t := by
  unfold execFollowUpHoldExpiry at h
  exact event_moves (fun s => by
    try simp only []
    (repeat' split) <;> simp [↓still_mk, ↓still_ite]) h

theorem execAnnounce_moves {dt : Ns} {port : Port} {m : AnnounceMsg} {s : State} {t : State}
    (h : execAnnounce dt port m s = .next t) : Moves s t := by
  unfold execAnnounce at h
  exact event_moves (fun s => by
    try simp only []
    (repeat' split) <;> simp [↓still_mk, ↓still_ite]) h

theorem execSyncMissTimeout_moves {dt : Ns} {s : State} {t : State}
    (h : execSyncMissTimeout dt s = .next t) : Moves s t := by
  unfold execSyncMissTimeout at h
  exact event_moves (fun s => by
    try simp only []
    (repeat' split) <;> simp [↓still_mk, ↓still_ite]) h

theorem execHoldoverTimeout_moves {dt : Ns} {s : State} {t : State}
    (h : execHoldoverTimeout dt s = .next t) : Moves s t := by
  unfold execHoldoverTimeout at h
  exact event_moves (fun s => by
    try simp only []
    (repeat' split) <;> simp [↓still_mk, ↓still_ite]) h

theorem execPpsInEdge_moves {dt : Ns} {highNs : Ns} {s : State} {t : State}
    (h : execPpsInEdge dt highNs s = .next t) : Moves s t := by
  unfold execPpsInEdge at h
  exact event_moves (fun s => by
    try simp only []
    (repeat' split) <;> simp [↓still_mk, ↓still_ite]) h

theorem execPpsInMissing_moves {dt : Ns} {s : State} {t : State}
    (h : execPpsInMissing dt s = .next t) : Moves s t := by
  unfold execPpsInMissing at h
  exact event_moves (fun s => by
    try simp only []
    (repeat' split) <;> simp [↓still_mk, ↓still_ite]) h

theorem execStampExtendRead_moves {dt : Ns} {s : State} {t : State}
    (h : execStampExtendRead dt s = .next t) : Moves s t := by
  unfold execStampExtendRead at h
  exact event_moves (fun s => by
    try simp only []
    (repeat' split) <;> simp [↓still_mk, ↓still_ite]) h

theorem execLinkChange_moves {dt : Ns} {port : Port} {info : LinkInfo} {s : State} {t : State}
    (h : execLinkChange dt port info s = .next t) : Moves s t := by
  unfold execLinkChange at h
  exact event_moves (fun s => by
    try simp only []
    (repeat' split) <;> simp [↓still_mk, ↓still_ite]) h

theorem execPause_moves {dt : Ns} {port : Port} {quanta : BitVec 16} {s : State} {t : State}
    (h : execPause dt port quanta s = .next t) : Moves s t := by
  unfold execPause at h
  exact event_moves (fun s => by
    try simp only []
    (repeat' split) <;> simp [↓still_mk, ↓still_ite]) h

theorem execPauseExpiry_moves {dt : Ns} {port : Port} {s : State} {t : State}
    (h : execPauseExpiry dt port s = .next t) : Moves s t := by
  unfold execPauseExpiry at h
  exact event_moves (fun s => by
    try simp only []
    (repeat' split) <;> simp [↓still_mk, ↓still_ite]) h

theorem execMacMergeVerify_moves {dt : Ns} {port : Port} {answered : Bool} {s : State} {t : State}
    (h : execMacMergeVerify dt port answered s = .next t) : Moves s t := by
  unfold execMacMergeVerify at h
  exact event_moves (fun s => by
    try simp only []
    (repeat' split) <;> simp [↓still_mk, ↓still_ite]) h

theorem execLpiEntry_moves {dt : Ns} {port : Port} {s : State} {t : State}
    (h : execLpiEntry dt port s = .next t) : Moves s t := by
  unfold execLpiEntry at h
  exact event_moves (fun s => by
    try simp only []
    (repeat' split) <;> simp [↓still_mk, ↓still_ite]) h

theorem execSpeedLowerEval_moves {dt : Ns} {port : Port} {load : LinkLoad} {s : State} {t : State}
    (h : execSpeedLowerEval dt port load s = .next t) : Moves s t := by
  unfold execSpeedLowerEval at h
  exact event_moves (fun s => by
    try simp only []
    (repeat' split) <;> simp [↓still_mk, ↓still_ite]) h

theorem execRenegotiation_moves {dt : Ns} {port : Port} {s : State} {t : State}
    (h : execRenegotiation dt port s = .next t) : Moves s t := by
  unfold execRenegotiation at h
  exact event_moves (fun s => by
    try simp only []
    (repeat' split) <;> simp [↓still_mk, ↓still_ite]) h

theorem execLaunchQueueFrame_moves {dt : Ns} {port : Port} {cls : TrafficClass} {s : State} {t : State}
    (h : execLaunchQueueFrame dt port cls s = .next t) : Moves s t := by
  unfold execLaunchQueueFrame at h
  exact event_moves (fun s => by
    try simp only []
    (repeat' split) <;> simp [↓still_mk, ↓still_ite]) h

theorem execHistProgram_moves {dt : Ns} {outcome : AppendOutcome} {s : State} {t : State}
    (h : execHistProgram dt outcome s = .next t) : Moves s t := by
  unfold execHistProgram at h
  exact event_moves (fun s => by
    try simp only []
    (repeat' split) <;> simp [↓still_mk, ↓still_ite]) h

theorem execWriteStallTimeout_moves {dt : Ns} {s : State} {t : State}
    (h : execWriteStallTimeout dt s = .next t) : Moves s t := by
  unfold execWriteStallTimeout at h
  exact event_moves (fun s => by
    try simp only []
    (repeat' split) <;> simp [↓still_mk, ↓still_ite]) h

theorem execScrubStep_moves {dt : Ns} {kind : ScrubKind} {block : Nat} {outcome : MediumOutcome} {s : State} {t : State}
    (h : execScrubStep dt kind block outcome s = .next t) : Moves s t := by
  unfold execScrubStep at h
  exact event_moves (fun s => by
    try simp only []
    (repeat' split) <;> simp [↓still_mk, ↓still_ite]) h

theorem execPackageFailure_moves {dt : Ns} {package : Nat} {s : State} {t : State}
    (h : execPackageFailure dt package s = .next t) : Moves s t := by
  unfold execPackageFailure at h
  exact event_moves (fun s => by
    try simp only []
    (repeat' split) <;> simp [↓still_mk, ↓still_ite]) h

theorem execRecorderWrite_moves {dt : Ns} {readbackOk : Bool} {mirrorOk : Bool} {s : State} {t : State}
    (h : execRecorderWrite dt readbackOk mirrorOk s = .next t) : Moves s t := by
  unfold execRecorderWrite at h
  exact event_moves (fun s => by
    try simp only []
    (repeat' split) <;> simp [↓still_mk, ↓still_ite]) h

theorem execMirrorCopy_moves {dt : Ns} {ok : Bool} {s : State} {t : State}
    (h : execMirrorCopy dt ok s = .next t) : Moves s t := by
  unfold execMirrorCopy at h
  exact event_moves (fun s => by
    try simp only []
    (repeat' split) <;> simp [↓still_mk, ↓still_ite]) h

theorem execMramRetry_moves {dt : Ns} {readbackOk : Bool} {s : State} {t : State}
    (h : execMramRetry dt readbackOk s = .next t) : Moves s t := by
  unfold execMramRetry at h
  exact event_moves (fun s => by
    try simp only []
    (repeat' split) <;> simp [↓still_mk, ↓still_ite]) h

theorem execPerfSample_moves {dt : Ns} {counter : Nat} {capture : SampleCapture} {s : State} {t : State}
    (h : execPerfSample dt counter capture s = .next t) : Moves s t := by
  unfold execPerfSample at h
  exact event_moves (fun s => by
    try simp only []
    (repeat' split) <;> simp [↓still_mk, ↓still_ite]) h

theorem execWindowMeterBoundary_moves {dt : Ns} {meter : Nat} {s : State} {t : State}
    (h : execWindowMeterBoundary dt meter s = .next t) : Moves s t := by
  unfold execWindowMeterBoundary at h
  exact event_moves (fun s => by
    try simp only []
    (repeat' split) <;> simp [↓still_mk, ↓still_ite]) h

theorem execShuffle_moves {dt : Ns} {masks : List (List Byte)} {s : State} {t : State}
    (h : execShuffle dt masks s = .next t) : Moves s t := by
  unfold execShuffle at h
  exact event_moves (fun s => by
    try simp only []
    (repeat' split) <;> simp [↓still_mk, ↓still_ite]) h

theorem execImageReceived_moves {dt : Ns} {readbackOk : Bool} {s : State} {t : State}
    (h : execImageReceived dt readbackOk s = .next t) : Moves s t := by
  unfold execImageReceived at h
  exact event_moves (fun s => by
    try simp only []
    (repeat' split) <;> simp [↓still_mk, ↓still_ite]) h

theorem execChainReceiveTimeout_moves {dt : Ns} {s : State} {t : State}
    (h : execChainReceiveTimeout dt s = .next t) : Moves s t := by
  unfold execChainReceiveTimeout at h
  exact event_moves (fun s => by
    try simp only []
    (repeat' split) <;> simp [↓still_mk, ↓still_ite]) h

theorem execPartialImageExpiry_moves {dt : Ns} {s : State} {t : State}
    (h : execPartialImageExpiry dt s = .next t) : Moves s t := by
  unfold execPartialImageExpiry at h
  exact event_moves (fun s => by
    try simp only []
    (repeat' split) <;> simp [↓still_mk, ↓still_ite]) h

theorem execArmMissed_moves {dt : Ns} {kind : Nat} {s : State} {t : State}
    (h : execArmMissed dt kind s = .next t) : Moves s t := by
  unfold execArmMissed at h
  exact event_moves (fun s => by
    try simp only []
    (repeat' split) <;> simp [↓still_mk, ↓still_ite]) h

theorem execSwitchOver_moves {dt : Ns} {s : State} {t : State}
    (h : execSwitchOver dt s = .next t) : Moves s t := by
  unfold execSwitchOver at h
  exact event_moves (fun s => by
    try simp only []
    (repeat' split) <;> simp [↓still_mk, ↓still_ite]) h

theorem execTrialTimeout_moves {dt : Ns} {s : State} {t : State}
    (h : execTrialTimeout dt s = .next t) : Moves s t := by
  unfold execTrialTimeout at h
  exact event_moves (fun s => by
    try simp only []
    (repeat' split) <;> simp [↓still_mk, ↓still_ite]) h

theorem execCardInsert_moves {dt : Ns} {files : List ImageFile} {s : State} {t : State}
    (h : execCardInsert dt files s = .next t) : Moves s t := by
  unfold execCardInsert at h
  exact event_moves (fun s => by
    try simp only []
    (repeat' split) <;> simp [↓still_mk, ↓still_ite]) h

theorem execCardRemove_moves {dt : Ns} {s : State} {t : State}
    (h : execCardRemove dt s = .next t) : Moves s t := by
  unfold execCardRemove at h
  exact event_moves (fun s => by
    try simp only []
    (repeat' split) <;> simp [↓still_mk, ↓still_ite]) h

theorem execLastGaspEntry_moves {dt : Ns} {vinMv : Nat} {s : State} {t : State}
    (h : execLastGaspEntry dt vinMv s = .next t) : Moves s t := by
  unfold execLastGaspEntry at h
  exact always_moves (fun s => by
    try simp only []
    (repeat' split) <;> simp [↓still_mk, ↓still_ite]) h

theorem execVinBelow4v_moves {dt : Ns} {vinMv : Nat} {vbatMv : Nat} {s : State} {t : State}
    (h : execVinBelow4v dt vinMv vbatMv s = .next t) : Moves s t := by
  unfold execVinBelow4v at h
  split at h
  · cases h
  · exact always_moves (fun s => by
    try simp only []
    (repeat' split) <;> simp [↓still_mk, ↓still_ite]) h

theorem execBrownOut_moves {dt : Ns} {vinMv : Nat} {s : State} {t : State}
    (h : execBrownOut dt vinMv s = .next t) : Moves s t := by
  unfold execBrownOut at h
  exact always_moves (fun s => by
    try simp only []
    (repeat' split) <;> simp [↓still_mk, ↓still_ite]) h

theorem execSlowDomainLost_moves {dt : Ns} {s : State} {t : State}
    (h : execSlowDomainLost dt s = .next t) : Moves s t := by
  unfold execSlowDomainLost at h
  exact always_moves (fun s => by
    try simp only []
    (repeat' split) <;> simp [↓still_mk, ↓still_ite]) h

theorem execVinReturn_moves {dt : Ns} {vinMv : Nat} {s : State} {t : State}
    (h : execVinReturn dt vinMv s = .next t) : Moves s t := by
  unfold execVinReturn at h
  split at h
  · cases h
  · exact always_moves (fun s => by
    try simp only []
    (repeat' split) <;> simp [↓still_mk, ↓still_ite]) h

theorem execNreset_moves {dt : Ns} {lowNs : Ns} {s : State} {t : State}
    (h : execNreset dt lowNs s = .next t) : Moves s t := by
  unfold execNreset at h
  exact always_moves (fun s => by
    try simp only []
    (repeat' split) <;> simp [↓still_mk, ↓still_ite]) h

theorem execWatchdog_moves {dt : Ns} {s : State} {t : State}
    (h : execWatchdog dt s = .next t) : Moves s t := by
  unfold execWatchdog at h
  exact always_moves (fun s => by
    try simp only []
    (repeat' split) <;> simp [↓still_mk, ↓still_ite]) h

theorem execStart_moves {dt : Ns} {found : StartReport} {s : State} {t : State}
    (h : execStart dt found s = .next t) : Moves s t := by
  unfold execStart at h
  exact always_moves (fun s => by
    try simp only []
    (repeat' split) <;> simp [↓still_mk, ↓still_ite]) h

theorem execPeriodicWake_moves {dt : Ns} {s : State} {t : State}
    (h : execPeriodicWake dt s = .next t) : Moves s t := by
  unfold execPeriodicWake at h
  exact always_moves (fun s => by
    try simp only []
    (repeat' split) <;> simp [↓still_mk, ↓still_ite]) h

theorem execQuietEntry_moves {dt : Ns} {s : State} {t : State}
    (h : execQuietEntry dt s = .next t) : Moves s t := by
  unfold execQuietEntry at h
  exact event_moves (fun s => by
    try simp only []
    (repeat' split) <;> simp [↓still_mk, ↓still_ite]) h

theorem execQuietExit_moves {dt : Ns} {s : State} {t : State}
    (h : execQuietExit dt s = .next t) : Moves s t := by
  unfold execQuietExit at h
  exact event_moves (fun s => by
    try simp only []
    (repeat' split) <;> simp [↓still_mk, ↓still_ite]) h

theorem execVbatSample_moves {dt : Ns} {vbatMv : Nat} {s : State} {t : State}
    (h : execVbatSample dt vbatMv s = .next t) : Moves s t := by
  unfold execVbatSample at h
  split at h
  · cases h
  · exact event_moves (fun s => by
    try simp only []
    (repeat' split) <;> simp [↓still_mk, ↓still_ite]) h

theorem execOperatingSecond_moves {dt : Ns} {s : State} {t : State}
    (h : execOperatingSecond dt s = .next t) : Moves s t := by
  unfold execOperatingSecond at h
  exact always_moves (fun s => by
    try simp only []
    (repeat' split) <;> simp [↓still_mk, ↓still_ite]) h

theorem execRtcSecond_moves {dt : Ns} {s : State} {t : State}
    (h : execRtcSecond dt s = .next t) : Moves s t := by
  unfold execRtcSecond at h
  exact always_moves (fun s => by
    try simp only []
    (repeat' split) <;> simp [↓still_mk, ↓still_ite]) h

theorem execRtcDiscipline_moves {dt : Ns} {s : State} {t : State}
    (h : execRtcDiscipline dt s = .next t) : Moves s t := by
  unfold execRtcDiscipline at h
  exact event_moves (fun s => by
    try simp only []
    (repeat' split) <;> simp [↓still_mk, ↓still_ite]) h

theorem execRtcTempCorrection_moves {dt : Ns} {celsius : Int} {s : State} {t : State}
    (h : execRtcTempCorrection dt celsius s = .next t) : Moves s t := by
  unfold execRtcTempCorrection at h
  exact always_moves (fun s => by
    try simp only []
    (repeat' split) <;> simp [↓still_mk, ↓still_ite]) h

theorem execDoorChange_moves {dt : Ns} {isOpen : Bool} {s : State} {t : State}
    (h : execDoorChange dt isOpen s = .next t) : Moves s t := by
  unfold execDoorChange at h
  exact event_moves (fun s => by
    try simp only []
    (repeat' split) <;> simp [↓still_mk, ↓still_ite]) h

theorem execPhotoChange_moves {dt : Ns} {dark : Bool} {s : State} {t : State}
    (h : execPhotoChange dt dark s = .next t) : Moves s t := by
  unfold execPhotoChange at h
  exact event_moves (fun s => by
    try simp only []
    (repeat' split) <;> simp [↓still_mk, ↓still_ite]) h

theorem execOverrideStart_moves {dt : Ns} {handle : Nat} {s : State} {t : State}
    (h : execOverrideStart dt handle s = .next t) : Moves s t := by
  unfold execOverrideStart at h
  exact event_moves (fun s => by
    try simp only []
    (repeat' split) <;> simp [↓still_mk, ↓still_ite]) h

theorem execCircuitForceStart_moves {dt : Ns} {circuit : Nat} {s : State} {t : State}
    (h : execCircuitForceStart dt circuit s = .next t) : Moves s t := by
  unfold execCircuitForceStart at h
  exact event_moves (fun s => by
    try simp only []
    (repeat' split) <;> simp [↓still_mk, ↓still_ite]) h

theorem execVpaChange_moves {dt : Ns} {vpaMv : Nat} {s : State} {t : State}
    (h : execVpaChange dt vpaMv s = .next t) : Moves s t := by
  unfold execVpaChange at h
  split at h
  · cases h
  · exact always_moves (fun s => by
    try simp only []
    (repeat' split) <;> simp [↓still_mk, ↓still_ite]) h

theorem execIslandSupplyOrLinkChange_moves {dt : Ns} {working : Bool} {s : State} {t : State}
    (h : execIslandSupplyOrLinkChange dt working s = .next t) : Moves s t := by
  unfold execIslandSupplyOrLinkChange at h
  exact always_moves (fun s => by
    try simp only []
    (repeat' split) <;> simp [↓still_mk, ↓still_ite]) h

theorem execPeerDelayMessage_moves {dt : Ns} {port : Port} {m : PeerDelayMsg} {s : State} {t : State}
    (h : execPeerDelayMessage dt port m s = .next t) : Moves s t := by
  unfold execPeerDelayMessage at h
  exact event_moves (fun s => by
    try simp only []
    (repeat' split) <;> simp [↓still_mk, ↓still_ite]) h

theorem execTrialRunTimeout_moves {dt : Ns} {s : State} {t : State}
    (h : execTrialRunTimeout dt s = .next t) : Moves s t := by
  unfold execTrialRunTimeout at h
  exact always_moves (fun s => by
    try simp only []
    (repeat' split) <;> simp [↓still_mk, ↓still_ite]) h

end Sys2Proof.Machine
end

