-- ==== Sys2Proof/WellFormed.lean ====
section
/-!
DEFINITION. Which commands are well formed: their operands lie in the ranges the transports, the tables and the order codes
of the manual give them. The machine answers every command; well-formedness is a hypothesis of statements.
-/

namespace Sys2Proof

/-- A request fits its transport: at most 1,472 payload bytes (Table 2.1). -/
def Req.wf (r : Req) : Bool := r.payload.length ≤ 1472

/-- A host-link transaction with one of the four instructions (Table 3.4), within the clock limit of Table 17.10. -/
def HlTx.wf (t : HlTx) : Bool := [0x0B, 0xEB, 0x02, 0x32].contains t.instr.toNat && 0 < t.sckMHz && t.sckMHz ≤ 80

/-- A push carries 56 payload bytes to one of the 256 queues (R216). -/
def Push.wf (p : Push) : Bool := p.payload.length == 56 && p.queue < 256 && p.flow < 65536

/-- A memory error names one of the queues and one of the pool's 16,384 cells (R248). -/
def CellError.wf (x : CellError) : Bool := x.queue < 256 && x.cell < 16384

/-- An outcome leaves 64 bytes of flow state if any, and well-formed pushes (R233). -/
def ItemOutcome.wf (o : ItemOutcome) : Bool :=
  (match o.state with | some b => b.length == 64 | none => true) && o.pushes.all Push.wf &&
    o.pops.all (fun q => q < 256) && o.perfReads.all (fun c => c < 64) &&
    o.errors.all CellError.wf

/-- Samples 125 µs apart reach over a window that begins at 0 (R358). -/
def samplesCover (first : Int) (count : Nat) (length : Ns) : Bool :=
  first ≤ 0 && decide ((length : Int) ≤ first + 125000 * count)

/-- A cycle has a length, and samples of the input and of every current over it. -/
def CycleData.wf (c : CycleData) : Bool :=
  0 < c.length && samplesCover c.first c.volts.length c.length &&
    c.currents.all (fun i => i.samples.length == c.volts.length && i.circuit < 48)

/-- A half cycle has a length and samples over it. -/
def HalfWindow.wf (w : HalfWindow) : Bool := 0 < w.length && samplesCover w.first w.volts.length w.length

/-- An uplink frame's fields lie in their widths. -/
def UplinkFrame.wf (f : UplinkFrame) : Bool := f.level < 8 && f.keyIndex < 256 && f.neighbour < 65536

/-- A tagged frame of at most 1,528 bytes (R420). -/
def RingFrame.wf (f : RingFrame) : Bool := f.lsdu.length ≤ 1500

/-- Speeds 0–3 (Table 11.9). -/
def LinkInfo.wf (l : LinkInfo) : Bool := l.speed ≤ 3

/-- A start's findings name units that exist. -/
def StartReport.wf (f : StartReport) : Bool :=
  f.engineFails.all (fun e => e < 16) && f.cellFails.all (fun c => c < 16384) &&
    f.badKeyRecords.all (fun e => e.1 < 64) && f.abandonedWrites.all (fun i => i < 64) &&
    f.badStoreCopies.all (fun c => c < 2) && f.badFirmwareCopies.all (fun c => c < 3) && f.modeA < 4 && f.modeB < 4 &&
    f.radioFails.all (fun r => r < 4) && f.badMeterSlots.all (fun x => x < 2)

/-- The operands of a command lie in their ranges. -/
def Instr.wf : Instr → Bool
  | .identify r | .health r | .paramGet r | .paramSet r | .paramCommit r | .paramAbort r | .warmReset r | .bind r
  | .release r | .forceRelease r | .subscribe r | .sessionClose r | .noticeAck r | .overrideSet r | .overrideClear r
  | .overrideList r | .typeSet r | .typeGet r | .lampSet r | .lampGet r | .lampRemove r | .targetQuery r
  | .nightQuery r | .diagList r | .sectionSet r | .junctionSet r | .placeSet r | .graphGet r | .graphRemove r
  | .trackList r | .handover r | .handoverTaken r | .handoverCancel r | .graphList r | .graphLoad r | .graphStart r
  | .graphStop r | .graphSwap r | .graphUnload r | .engineStatus r | .queueStatus r | .backstepStatus r
  | .nodeMapSet r | .nodeMapGet r | .nodeMapRemove r | .nodeList r | .nodeProbe r | .nodeLeave r | .radioStatus r
  | .meterTake r | .meterRead r | .pqList r | .spanSet r | .spanGet r | .reconQuery r | .circuitForce r
  | .circuitStatus r | .latchStatus r | .ringHealth r | .ringPeerSet r | .ringPeerGet r | .timeStatus r | .timeSeed r
  | .histQuery r | .histNext r | .histClose r | .histStatus r | .recRead r | .recStatus r | .perfRead r
  | .perfSamples r | .wmeterRead r | .keyWrite r | .keyErase r | .keyDisable r | .keyDerive r | .keyStatus r
  | .attest r | .lifecycleSet r | .imageList r | .updateArm r | .updateDisarm r | .updateRollback r | .updateStatus r
  | .imageErase r | .sdScan r _ | .chainOffer r | .chainFetch r | .chainArm r | .rtcGet r | .rtcSet r | .powerStatus r
  | .powerHold r => r.wf
  | .peerResponse r op st => r.wf && op < 65536 && st < 65536
  | .interimResponse _ _ l | .finalResponse _ _ l => 1 ≤ l.toNat && l.toNat ≤ 7
  | .uartFrameTimeout _ _ _ | .sessionLapse _ _ | .noticeResend _ _ | .stagingTimeout _ | .warmResetDue _
  | .snapshotLapse _ _ | .cursorIdle _ _ => true
  | .hlCmdApertureWrite _ t b => t.wf && b.length ≤ 256
  | .hlRspApertureRead _ t n => t.wf && n ≤ 256
  | .ring _ t _ | .clear _ t | .pop _ t | .linkReset _ t _ | .moduleReset _ t => t.wf
  | .sdTimeRead _ r | .hlNowLoRead _ r => r.tx.wf && r.bits ≤ 8192
  | .registerWrite _ t vs bits => t.wf && bits ≤ 32 * vs.length && vs.length ≤ 256
  | .hlBufferTaken _ | .parityScan _ _ => true
  | .itemDispatch _ e xs => e < 16 && xs.all CellError.wf
  | .engineMemoryError _ e | .engineRetest _ e _ | .engineStall _ e _ => e < 16
  | .itemComplete _ e o => e < 16 && o.wf
  | .itemOpsLimit _ e _ => e < 16
  | .flowStateError _ g f _ | .alarmDue _ g f => g < 8 && f < 65536
  | .dispatchBoundary _ g => g < 8
  | .queueLevelSecondEnd _ q => q < 256
  | .paceLowerStep _ | .reviseMissed _ _ _ | .trackTick _ _ | .trackCoastTimeout _ _ | .tentativeTimeout _ _
  | .shadowTimeout _ _ | .untrackedCoverExpiry _ | .holdExpiry _ _ | .flapHoldExpiry _ _ | .fallDeferExpiry _ _
  | .handoverCrossing _ _ | .nightResolve _ | .planCommandDue _ | .photoDebounce _
  | .photoWindowExpiry _ | .overrideEnd _ _ | .lateDiscard _ _ _ => true
  | .peerResend _ _ l => 1 ≤ l.toNat && l.toNat ≤ 7
  | .circuitDemandDue _ c => c < 48
  | .diagDue _ _ c | .undiagnosed _ _ c => c < 2
  | .uplinkFrame _ r f => r < 4 && f.wf
  | .beaconCell _ r use | .driveCell _ r use | .otherDownlinkCell _ r use => r < 4 && use.errors.all CellError.wf
  | .nodeAckReceive _ r _ | .radioSelfTestFail _ r => r < 4
  | .e2eResend _ _ | .nodeSilent _ _ | .netkeyActivation _ | .oldKeyDiscard _ => true
  | .keyRoll _ k => k.length == 16
  | .activationBroadcast _ k => k < 6
  | .meterCycleEnd _ i c => i < 3 && c.wf
  | .halfCycleWindow _ u => u.length == 3 && u.all HalfWindow.wf
  | .pqEventOpenTimeout _ _ | .ledgerBoundary _ | .meterCheckpoint _ => true
  | .frequencyInterval _ i => i < 3
  | .calibrationStart _ c | .calibrationForced _ c => c < 51
  | .recWaitExpiry _ c => c < 48
  | .chainCycle _ ws => ws.length ≤ 8
  | .dwellExpiry _ c | .circuitForceEnd _ c | .circuitForceStart _ c => c < 48
  | .inrushExpiry _ => true
  | .ringFrameReceive _ _ f => f.wf
  | .secondCopyTimeout _ _ _ | .supervisionSend _ | .supervisionTimeout _ | .peerDelayExchange _ _ | .sync _ _ _
  | .followUp _ _ _ | .followUpHoldExpiry _ | .announce _ _ _ | .syncMissTimeout _ | .holdoverTimeout _
  | .ppsInEdge _ _ | .ppsInMissing _ | .stampExtendRead _ => true
  | .linkChange _ _ i => i.wf
  | .pause _ _ _ | .pauseExpiry _ _ | .macMergeVerify _ _ _ | .lpiEntry _ _ | .speedLowerEval _ _ _
  | .renegotiation _ _ | .launchQueueFrame _ _ _ | .writeStallTimeout _ | .scrubStep _ _ _ _ => true
  | .histProgram _ o => o.errors.all CellError.wf
  | .packageFailure _ p => p < 2
  | .recorderWrite _ _ _ | .mirrorCopy _ _ | .mramRetry _ _ => true
  | .perfSample _ c _ => c < 64
  | .windowMeterBoundary _ m => m < 16
  | .shuffle _ ms => ms.all (fun m => m.length == 16 || m.length == 32)
  | .imageReceived _ _ | .chainReceiveTimeout _ | .partialImageExpiry _ | .switchOver _ | .trialTimeout _
  | .cardInsert _ _ | .cardRemove _ => true
  | .armMissed _ k => k < 6
  | .lastGaspEntry _ _ | .vinBelow4v _ _ _ | .brownOut _ _ | .slowDomainLost _ | .vinReturn _ _ | .nreset _ _
  | .watchdog _ | .periodicWake _ | .quietEntry _ | .quietExit _ | .vbatSample _ _ | .operatingSecond _
  | .rtcSecond _ | .rtcDiscipline _ | .rtcTempCorrection _ _ | .doorChange _ _ | .photoChange _ _ => true
  | .start _ f => f.wf
  | .unsupportedOpcode _ _ m => m.length ≤ 1510
  | .overrideStart _ _ | .vpaChange _ _ | .islandSupplyOrLinkChange _ _ | .peerDelayMessage _ _ _
  | .trialRunTimeout _ => true

end Sys2Proof
end

