-- ==== Sys2Proof/Tests/Slice0.lean ====
section
/-!
SUPPORT. Tests of the model, each a named theorem: ill-formed terms that the checks refuse, worked examples of the spec, and for
every statement with hypotheses a state and operands that meet them.
-/

set_option Elab.async false

namespace Sys2Proof.Tests

open Sys2Proof Sys2Proof.Machine

/-! ## Requests and states -/

/-- A request of the host under claim 1, on lane 1, with SYNC. -/
def ask (p : List Byte) : Req :=
  { dt := 0, src := .host, lane := 1#8, flags := 4#16, seq := 1#32, claim := 1#64, payload := p, status := 0#16, waits := false }

/-- The same from the service UART, and from the ring peer of segment 1. -/
def tell (p : List Byte) : Req := { ask p with src := .uart }
def peer : Mac := 0x020000000001#48
def call (p : List Byte) : Req := { ask p with src := .ring peer none .module .A, lane := 2#8 }

/-- The module as shipped, bound to the host under claim 1, with the peer of segment 1 in its table. -/
def held : State :=
  { State.reset with link.bound := true, link.floor := 1#64, link.floorEp := some .host, ring.peers := [(1, peer)] }

/-- A state an hour on, so that what waits for a time has waited. -/
def later (s : State) : State := { s with clk.mono := s.clk.mono + 3600 * sec, clk.timeBase := s.clk.timeBase + 3600 * sec }

/-- The hypotheses of `Ready`, evaluated. -/
def ready (c : Command) (r : Req) (s : State) : Bool :=
  let b := s.begin r.dt
  let h := (b.countRetry r).sessionHears r
  let o := h.occupy c r
  b.hears r.src && !r.flags.getLsbD 0 && c.headerOk r && !b.noRoom r.src.endpoint &&
    (h.lane r.src.endpoint r.lane.toNat).verdict c.opcode r == .accept && c.layout r.payload && o.accessCheck c r == none &&
    (c.access == .open_ || !o.switchWaits) && decide (o.admitted ≤ 64) &&
    (!r.waits || c.access == .open_ || c.opcode / 256 == 0x20)

theorem ready_of {c : Command} {r : Req} {s : State} (h : ready c r s = true) : Ready c r s := by
  simp only [ready, Bool.and_eq_true, Bool.not_eq_true', Bool.or_eq_true, beq_iff_eq, decide_eq_true_eq] at h
  obtain ⟨⟨⟨⟨⟨⟨⟨⟨⟨a, b⟩, c⟩, d⟩, e⟩, f⟩, g⟩, i⟩, j⟩, k⟩ := h
  exact ⟨a, b, c, d, e, f, g, i, j, by simpa [or_assoc] using k⟩

/-! ## Every request is taken up in some state -/

theorem witness_ready_empty :
    [identifyCommand, healthCommand, bindCommand, sessionCloseCommand, paramCommitCommand, paramAbortCommand, releaseCommand,
      typeGetCommand, graphListCommand, engineStatusCommand, backstepStatusCommand, radioStatusCommand, meterTakeCommand,
      circuitStatusCommand, latchStatusCommand, ringHealthCommand, ringPeerGetCommand, timeStatusCommand, histStatusCommand,
      recStatusCommand, wmeterReadCommand, keyStatusCommand, imageListCommand, updateStatusCommand, rtcGetCommand,
      powerStatusCommand, sdScanCommand []].all (fun c => ready c (ask []) held) = true := by
  decide +kernel

/-! ## Witnesses: the link and the parameters -/

theorem witness_RequestTakenUpIsAnswered : ready identifyCommand (ask []) held = true ∧
    identifyCommand.body (ask []) (held.taken identifyCommand (ask [])) =
      .done stOk (held.taken identifyCommand (ask [])).identity (held.taken identifyCommand (ask [])) ∧
    statusCached stOk = true := ⟨by decide +kernel, rfl, by decide⟩

/-- IDENTIFY answered, so that its resend finds the lane idle and the response kept. -/
def identified : State := (held.taken identifyCommand (ask [])).answered (ask []) stOk [1#8]

theorem witness_ResendIsAnsweredFromTheCache :
    let a := (identified.countRetry (ask [])).sessionHears (ask [])
    let l := a.lane .host 1
    identified.hears .host = true ∧ identifyCommand.headerOk (ask []) = true ∧ identified.noRoom .host = false ∧
      l.synced = true ∧ (l.cmd.map (sameContent 0x1001 (ask []))).getD false = true ∧ l.phase = .idle ∧
      l.cached = some (stOk, [1#8]) := by decide +kernel

theorem witness_UnheardRequestsChangeNothing :
    (held.begin 0).hears (.ring peer none .group .A) = false ∧ (held.begin 0).hears (.ring peer none (.other 7) .A) = false ∧
      ({ held with pwr.state := .off }.begin 0).hears .host = false := by decide +kernel

theorem witness_HolderCheckStatuses :
    ready typeGetCommand (ask []) held = true ∧
      ({ held with link.floor := 2#64 }.taken typeGetCommand (ask [])).accessCheck typeGetCommand (ask []) = some stSuperseded ∧
      (held.taken typeGetCommand { ask [] with claim := 0 }).accessCheck typeGetCommand { ask [] with claim := 0 } =
        some stNotHolder := by decide +kernel

theorem witness_HealthListsEveryUnit :
    held.is16C = false ∧ { held with id.order := .vkm16C }.is16C = true ∧ held.units[0]? = some 0 ∧ held.units[21]? ≠ none ∧
      held.units[22]? = none := by decide +kernel

theorem witness_HolderTransitions :
    ready bindCommand { ask [] with claim := 2 } held = true ∧
      ready bindCommand (ask []) { held with link.bound := false } = true ∧
      ready bindCommand (ask []) held = true ∧
      ready bindCommand { ask [] with claim := 0 } { held with link.bound := false } = true ∧
      ready bindCommand { ask [] with claim := 0 } held = true ∧ ready releaseCommand (ask []) held = true ∧
      held.holderCheck .host 1 = none ∧ ready releaseCommand (ask []) State.reset = true ∧
      ready forceReleaseCommand (tell []) held = true ∧ ready forceReleaseCommand (tell []) State.reset = true := by
  decide +kernel

/-- A state with the host's session open, its notice 0 sent and old. -/
def talked : State :=
  { later (held.sessionHears (ask [])) with link.sessions := (held.sessionHears (ask [])).link.sessions.map (fun x =>
      { x with notices := x.notices.map (fun n => { n with sentAt := some 0 }) }) }

theorem witness_SessionsOpenSubscribeAndClose :
    ready subscribeCommand (tell (zeros 32)) held = true ∧
      (held.taken subscribeCommand (tell (zeros 32))).holderSession .uart = false ∧
      ready sessionCloseCommand (ask []) held = true ∧
      ((talked.begin 0).session? .host).isSome = true ∧
      (((talked.begin 0).session? .host).all (fun x => x.lastRx + 120 * sec ≤ talked.clk.mono)) = true ∧
      (talked.begin 0).hears .host = true ∧ (ask (u32 0)).payload.length = 4 ∧
      ((talked.session? .host).all (fun x => x.notices.any (fun n => n.seq == 0 && n.sentAt.isSome))) = true := by
  decide +kernel

theorem witness_WarmResetComesAfterItsDelay :
    let open_ := held.sessionHears (ask [])
    ready warmResetCommand (ask (u32 60000)) open_ = true ∧ ((open_.begin 0).session? .host).isSome = true ∧
      ((open_.begin 0).link.sessions.all (fun x => x.lanes.length == 7)) = true ∧
      ready warmResetCommand (ask (u32 60000)) held = true ∧ fld (u32 60000) 0 4 = 60000 ∧
      ready warmResetCommand (ask (u32 60001)) held = true ∧ (later held).running = true ∧
      ({ later held with link.warmDue := some 5 }.begin 0).link.warmDue = some 5 ∧ 5 ≤ (later held).clk.mono ∧
      ({ held with link.warmDue := some sec }.begin 0).link.warmDue = some sec ∧ (held.begin 0).clk.mono < sec ∧
      held.pwr.pendingStart = none := by decide +kernel

/-- TYPE_GET waits on its unit on lane 1 of the host. -/
def waiting : State :=
  (held.taken typeGetCommand (ask [])).setLane .host 1
    { (held.taken typeGetCommand (ask [])).lane .host 1 with phase := .waiting }

theorem witness_LinkTimersAct :
    (waiting.begin 0).running = true ∧ ((waiting.begin 0).lane .host 1).cmd.isSome = true ∧
      ((waiting.begin 0).lane .host 1).phase ≠ .idle ∧ ((waiting.begin 0).lane .host 1).interimSent = false ∧
      (talked.begin 0).running = true ∧ (talked.begin 0).link.stagedAt + 600 * sec ≤ (talked.begin 0).clk.mono ∧
      (((talked.begin 0).session? .host).all (fun x => x.notices.any (fun n =>
        n.sentAt.any (fun t => t + sec ≤ (talked.begin 0).clk.mono)))) = true ∧ (held.begin 0).hs.cursors = [] := by
  decide +kernel

theorem witness_WaitingCommandsFinish :
    (waiting.begin 0).running = true ∧ ((waiting.begin 0).lane .host 1).cmd = some (0x3011, ask []) ∧
      ((waiting.begin 0).lane .host 1).phase = .waiting ∧ ((waiting.begin 0).commandOf 0x3011).isSome = true ∧
      ((waiting.supersede.begin 0).lane .host 1).phase = .superseded := by decide +kernel

/-- A transaction that writes, and one that reads, at an address. -/
def writeAt (a : BitVec 16) : HlTx := { instr := 0x02#8, addr := a, sckMHz := 10 }
def readAt (a : BitVec 16) : HlTx := { instr := 0x0B#8, addr := a, sckMHz := 10 }

theorem witness_CommandBufferFollowsTheDoorbell :
    ((later held).begin 0).running = true ∧ ((later held).begin 0).hlWrites (writeAt 0x100) = true ∧
      ((later held).begin 0).hlWrites (writeAt 0x1FF) = true ∧ ((later held).begin 0).hlWrites (writeAt 0x084) = true ∧
      ((later held).begin 0).hl.handed = none ∧ ((later held).begin 0).hl.overrun = false ∧
      28 ≤ ({ later held with hl.cmd := zeros 28 }.begin 0).hl.cmd.length ∧ ((later held).begin 0).hl.cmd.length < 28 ∧
      ({ later held with hl.handed := some [] }.begin 0).hl.handed.isSome = true := by decide +kernel

theorem witness_ResponseBufferIsReadAndPopped :
    ((later held).begin 0).hlReads (readAt 0x200) = true ∧ ((later held).begin 0).hlReads (readAt 0x2FF) = true ∧
      ((later held).begin 0).hlBadRead (readAt 0x200) = false ∧ ((later held).begin 0).hlBadRead (readAt 0x2FF) = false ∧
      ((later held).begin 0).hlWrites (writeAt 0x090) = true := by decide +kernel

theorem witness_HostLinkResetsAct :
    ((later held).begin 0).running = true ∧ ((later held).begin 0).hlWrites (writeAt 0x01C) = true ∧
      ((later held).begin 0).pwr.state ≠ .lastGasp ∧
      ((later held).begin 0).link.floorEp = some .host ∧
      ({ later held with link.floorEp := some .uart }.begin 0).link.bound = true := by
  decide +kernel

theorem witness_WindowReadsAndWrites :
    ((later held).begin 0).hlReads (readAt 0x380) = true ∧ ((later held).begin 0).hlBadRead (readAt 0x380) = false ∧
      ((later held).begin 0).hlReads (readAt 0x3C8) = true ∧ ((later held).begin 0).hlBadRead (readAt 0x3C8) = false ∧
      ((later held).begin 0).hlWrites (writeAt 0x014) = true ∧ ((later held).begin 0).hlWrites (writeAt 0x018) = true ∧
      ((later held).begin 0).hlWrites (writeAt 0x044) = true ∧ ((later held).begin 0).ks.lifecycle = 0 ∧
      (((later held).begin 0).hl.ctrl ^^^ 0x81#32) &&& 0xFFFFFF00#32 = 0#32 ∧
      ({ later held with ks.lifecycle := 1 }.begin 0).ks.lifecycle ≠ 0 ∧
      (((later held).begin 0).hl.attnMask ^^^ 0x3#32) &&& 0xFFFFFFF0#32 = 0#32 := by decide +kernel

/-- A message of the host with opcode 0x7777. -/
def stray : List Byte := message 1 4 1 0x7777 0 1#64 []

/-- A frame of the service UART without its delimiter. -/
def cobs (m : List Byte) : List Byte := (cobsFrame m).dropLast

theorem witness_MessagesThatNoRowNames :
    (held.begin 0).hears .uart = true ∧ framed .uart (cobs (zeros 28)) = some (zeros 28) ∧ crcValid (zeros 28) = false ∧
      framed .uart (cobs (List.replicate 1501 1#8)) = some (List.replicate 1501 1#8) ∧
      crcValid stray = true ∧ headerOk stray = true ∧
      (requestOf .host stray).flags.getLsbD 0 = false ∧ fld stray 8 2 = 0x7777 ∧
      catalogue.find? (fun c => c.opcode == 0x7777) = none ∧ (unsupportedCommand 0x7777).headerOk (ask []) = true ∧
      (held.begin 0).noRoom .host = false ∧
      (((held.countRetry (ask [])).sessionHears (ask [])).lane .host 1).verdict 0x7777 (ask []) = .accept ∧
      ({ held with hl.handed := some stray }.begin 0).hl.handed = some stray := by decide +kernel

/-- PARAM_SET of sys.name-like values: lp.override_lead to 2,500 ms (0x3023, u16). -/
def setting : List Byte := u16 1 ++ u16 0 ++ u16 0x3023 ++ u16 2 ++ u16 2500 ++ u16 0
def setting5 : List Byte := u16 1 ++ u16 0 ++ u16 0x3023 ++ u16 2 ++ u16 0xFFFF ++ u16 0

theorem witness_ParametersAreStagedThenCommitted :
    ready paramSetCommand (ask setting) held = true ∧ (setEntries setting).isSome = true ∧
      ((setEntries setting).all (fun es => (held.stage false [] es).1 == stOk)) = true ∧
      ((setEntries setting5).all (fun es => (held.stage false [] es).1 == stRange)) = true ∧
      ready paramCommitCommand (ask []) held = true ∧ (held.taken paramCommitCommand (ask [])).link.staged = [] ∧
      ({ held with link.staged := [(0x3023 * 65536, .num 2500)] }.taken paramCommitCommand (ask [])).applied.rulesStatus = stOk ∧
      ({ held with link.staged := [(0x4C81 * 65536 + 1, .num 60000)] }.taken paramCommitCommand (ask [])).applied.rulesStatus =
        stRange ∧
      ready paramAbortCommand (ask []) held = true := by decide +kernel

theorem witness_ParamGetShowsItsParameters :
    ready paramGetCommand (ask (u16 1 ++ u16 0 ++ u16 0x3023)) held = true ∧ (paramRow 0x3023).isSome = true ∧
      ready paramGetCommand (ask (u16 1 ++ u16 0 ++ u16 0x0001)) held = true ∧ paramRow 1 = none ∧
      ready paramGetCommand (ask (u16 0 ++ u16 0)) held = true ∧
      ((paramRow 0x3023).all (fun row => 4 + ((held.taken paramGetCommand (ask [])).paramEntry row).1.length ≤ 1472)) = true := by
  decide +kernel

/-! ## Witnesses: the light plan and the output chain -/

/-- A point of the module on circuit 0, its PID48 as 6 bytes, and an override of it from 10 s to 20 s. -/
def point : Pid := mkPid State.reset.ownPrefix 0 1
def overriding (start finish tol : Nat) : List Byte :=
  u16 7 ++ u8 0 ++ u8 1 ++ pidBytes point ++ u8 0 ++ u8 0 ++ u16 5000 ++ u16 0 ++ u64 start ++ u64 finish ++ u32 tol ++ u16 0 ++
    u16 0

/-- A lamp type, a lamp record of it, and the module with both and the point's diagnosis far back. -/
def lampType : LampType :=
  { type := 1, channels := 1, crossover := 2000, droop := 0, dMin := 500, diagMs := 100, knee := 0, slope := 0 }
def lamp : Lamp := { point := point, section_ := 0, type := 1, flux0 := 10000, flux1 := 0, cct0 := 3000, cct1 := 0 }
def lit : State :=
  { held with par.vals := [(0x1081 * 65536, .num 1), (0x30A0 * 65536, .num 1)], plan.types := [(1, lampType)], plan.lamps := [(pointKey point, lamp)], plan.litTime := 1000000 * sec
              plan.diag := [(pointKey point * 2, { state := 0, litRef := 0, last := 0, pulseUntil := none })] }

/-- The module with an override of handle 7 from `start` to `finish`, its launches issued. -/
def overridden (start finish : Ns) : State :=
  { held with plan.overrides := [{ (default : Override) with
      handle := 7, start := start, finish := finish, startSent := true, endSent := true }] }

theorem witness_OverridesStartEndAndReplace :
    ready overrideSetCommand (ask (overriding (10 * sec) (20 * sec) 0xFFFFFFFF)) held = true ∧
      (held.taken overrideSetCommand (ask [])).overrideRefused (overriding (10 * sec) (20 * sec) 0) = none ∧
      held.tb < fld (overriding (10 * sec) (20 * sec) 0) 24 8 ∧ fld (overriding 1 sec 0) 24 8 ≤ held.tb ∧
      ready overrideSetCommand (ask (overriding 1 sec 0)) held = true ∧
      ready overrideClearCommand (ask (u16 7 ++ u16 0)) held = true ∧
      (held.taken overrideClearCommand (ask [])).plan.held = [] ∧
      ((overridden 1 sec).begin 0).plan.overrides.find? (fun o => o.handle == 7 && !o.begun && decide (o.start ≤ sec)) ≠ none ∧
      ((overridden 1 sec).begin 0).plan.overrides.find? (fun o => o.handle == 7 && decide (o.finish ≤ sec)) ≠ none := by
  decide +kernel

/-- The plan's change of that override finds room. -/
theorem witness_override_has_room :
    let a := held.taken overrideSetCommand (ask (overriding (10 * sec) (20 * sec) 0xFFFFFFFF))
    let eff := max (10 * sec) (a.tb + a.num 0x3023 * ms)
    let o := { overrideAt (overriding (10 * sec) (20 * sec) 0xFFFFFFFF) eff with startSent := a.near eff }
    let b := { a with plan.overrides := insertBy (fun x => x.handle) o (replaceHandle o.handle eff (a.near eff) a.plan.overrides) }.demandAll
    (b.planChange (if a.near eff then onePerPoint (if eff < 20 * sec then b.overrideCmds o eff o.fade else []) else []) none).plan.held = [] := by
  decide +kernel

/-- Queue 0x07 full, so that the items of a change of the plan wait, the last with the answer. -/
def crowded : State := { lit with par.vals := (0x4C80 * 65536 + 7, .num 0) :: lit.par.vals }

theorem witness_plan_items_wait :
    ready typeSetCommand (ask (u16 1 ++ u16 0 ++ lampType.bytes)) crowded = true ∧ (crowded.relaunchCmds [point] 0 0).isEmpty = false ∧
      ((crowded.planChange (crowded.relaunchCmds [point] 0 0) none).plan.held.reverse.head?.map Prod.snd) = some none := by
  decide +kernel

def typing (channels : Nat) : List Byte := u16 1 ++ u16 0 ++ { lampType with channels := channels }.bytes
def lamping : List Byte := u16 1 ++ u16 0 ++ lamp.bytes

theorem witness_LampTypesAndRecordsAreStored :
    ready typeSetCommand (ask (typing 1)) lit = true ∧ ready typeSetCommand (ask (typing 2)) lit = true ∧
      ((entries 12 (typing 2)).map typeAt).all typeOk = true ∧ ready lampSetCommand (ask lamping) lit = true ∧
      firstRefusal (((entries 16 lamping).map lampAt).map (lit.taken lampSetCommand (ask [])).lampRefused) = none ∧
      ready lampRemoveCommand (ask (u16 1 ++ u16 0 ++ pidBytes point)) lit = true ∧
      firstRefusal ([point].map lit.pointRefused) = none := by decide +kernel

theorem witness_LightPlanQueriesChangeNothing :
    ready overrideListCommand (ask (zeros 4)) held = true ∧ ready typeGetCommand (ask []) held = true ∧
      ready lampGetCommand (ask (zeros 4)) held = true ∧ ready diagListCommand (ask (zeros 4)) held = true ∧
      ready targetQueryCommand (ask (pidBytes point ++ zeros 2)) lit = true ∧ lit.pointRefused point = none ∧
      lit.lampOf point = some lamp ∧ tget lit.plan.types 1 = some lampType ∧
      ready nightQueryCommand (ask (u16 2020 ++ u8 2 ++ u8 29)) held = true ∧
      ({ year := 2020, month := 2, day := 29 } : Date).exists_ = true ∧
      ({ year := 2021, month := 2, day := 29 } : Date).exists_ = false := by decide +kernel

/-- The module with valid network time at 13:00 UTC of a day, and with a night lit from 1 s to `off`. -/
def noon : State := { held with ptp.state := .holdover, clk.timeBase := (1700000000 / 86400 * 86400 + 46800) * sec }
def dusk (off : Ns) : State :=
  { lit with plan.nights := [{ (default : Night) with lit := true, on := sec, off := off, offHeld := true }] }

theorem witness_LightPlanTimersAct :
    (noon.begin 0).running = true ∧ (noon.begin 0).civilKnown = true ∧
      43200 ≤ (noon.begin 0).civilOfTb (noon.begin 0).tb % 86400 ∧ (noon.begin 0).plan.nights = [] ∧
      ((later held).begin 0).plan.photo.since + held.num 0x3006 * sec ≤ ((later held).begin 0).clk.mono ∧
      (held.begin 0).clk.mono < (held.begin 0).plan.photo.since + held.num 0x3006 * sec ∧
      ((dusk (2 * sec)).begin 0).heldNight.isSome = true ∧
      (((dusk (2 * sec)).begin 0).heldNight.all (fun n => n.finish ≤ ((dusk (2 * sec)).begin 0).tb + held.num 0x3020 * sec)) = true ∧
      ((dusk (100000 * sec)).begin 0).heldNight.isSome = true ∧
      (((dusk (100000 * sec)).begin 0).heldNight.all (fun n =>
        ((dusk (100000 * sec)).begin 0).tb + held.num 0x3020 * sec < n.finish)) = true ∧ lit.lampOf point = some lamp ∧
      tget lit.plan.types lamp.type = some lampType ∧ (lit.begin 0).served 0x07 = true ∧
      (lit.begin 0).baseLit = true ∧ (lit.begin 0).channelDue (pointKey point) 0 0 = true ∧
      (lit.begin 0).inPulse (pointKey point) 0 = false ∧ (lit.begin 0).clearOf 0 0 (10 * sec) = true ∧
      (lit.begin 0).channelDue (pointKey point) 1 0 = false ∧ 0 < held.circuitsFitted ∧ 47 < held.circuitsFitted ∧
      (tget (lit.begin 0).plan.diag (pointKey point * 2)).isSome = true ∧
      (lit.begin 0).num 0x3030 * sec ≤ (lit.begin 0).litCount { state := 0, litRef := 0, last := 0, pulseUntil := none } := by
  decide +kernel

/-- A drive command of launch 0 and tolerance 0 waiting in queue 0x03. -/
def lateCmd : DriveCmd := { (default : DriveCmd) with point := point }
def driving : State :=
  { lit with qm.queues := [(3, { items := [{ Item.zero with body := .drive lateCmd }], last := none, second := 0, later := false, ops := [] })] }

theorem witness_late_discard : ((driving.begin 0).queue 0x03).items.findSome? (fun it => match it.body with
      | .drive c => if c.point = point ∧ c.launch = 0 then some c else none
      | _ => none) = some lateCmd ∧ lateCmd.tol ≠ 0xFFFF ∧ 0 + lateCmd.tol * ms < (driving.begin 0).tb := by decide +kernel

def forcing (start finish : Nat) : List Byte := u8 0 ++ u8 1 ++ u16 0 ++ u32 0xFFFFFFFF ++ u64 start ++ u64 finish
def force : Force := { mode := 1, start := 1, finish := 2, begun := false }

theorem witness_ForcesAndChainStatus :
    ready circuitForceCommand (ask (forcing (2 * sec) (3 * sec))) held = true ∧ held.tb < 2 * sec ∧
      ready circuitForceCommand (ask (forcing 1 (3 * sec))) held = true ∧ 1 ≤ held.tb ∧ held.tb < 3 * sec ∧
      tget ({ held with oc.forces := [(0, force)] }.begin 0).oc.forces 0 = some force ∧ force.start ≤ held.tb ∧
      tget ({ held with oc.current := [(0, force)] }.begin 0).oc.current 0 = some force ∧ force.finish ≤ held.tb ∧
      lit.switchable 0 = true ∧ tget lit.oc.current 0 = none ∧ ready circuitStatusCommand (ask []) held = true ∧
      ready latchStatusCommand (ask []) held = true := by decide +kernel

theorem witness_ChainCyclesSendTheCommandedStates :
    (held.begin 0).cycleDue = true ∧ (held.begin 0).oc.phase = 0 ∧ ({ held with oc.due := false }.begin 0).cycleDue = false ∧
      ({ held with oc.phase := 2 }.begin 0).oc.phase = 2 ∧
      (({ held with oc.circuits := [(0, { ChainCircuit.idle with dwellWait := true, inrushWait := true })] }.begin 0).circuitOf
        0).dwellWait = true := by decide +kernel

/-! ## Witnesses: Promenade, graphs, engines -/

/-- Section 0 of 100 m between junctions 0 and 1, the latter portal 0 to segment 1, and the lamp of `lit` placed on it. -/
def street : Section := { number := 0, flags := 2, start := 0, finish := 1, length := 10000, vmax := 1000 }
def corner : Junction := { number := 0, kind := 0, portal := 0, neighbour := 0, peerPortal := 0 }
def portal : Junction := { number := 1, kind := 2, portal := 0, neighbour := 1, peerPortal := 3 }
def road : State := { lit with prom.junctions := [(0, corner), (1, portal)], prom.sections := [(0, street)] }

theorem witness_RoadGraphIsSetReadAndRemoved :
    ready sectionSetCommand (ask (u16 1 ++ u16 0 ++ street.bytes)) road = true ∧ road.sectionOk street = true ∧
      road.endsOk [(0, street)] = true ∧ ready sectionSetCommand (ask (u16 0 ++ u16 0)) road = true ∧
      ready junctionSetCommand (ask (u16 1 ++ u16 0 ++ portal.bytes)) road = true ∧ junctionOk portal = true ∧
      junctionOk { corner with portal := 1 } = false ∧
      ready placeSetCommand (ask (u16 1 ++ u16 0 ++ pidBytes point ++ u16 0 ++ u32 10000)) road = true ∧
      road.placeRefused (pidBytes point ++ u16 0 ++ u32 10000) = none ∧
      ready graphRemoveCommand (ask (u8 0 ++ u8 0 ++ u16 1 ++ u16 0)) road = true ∧ road.flag 0x4080 0 = false ∧
      { road with par.vals := (0x4080 * 65536, .num 1) :: road.par.vals }.flag 0x4080 0 = true ∧
      ready graphRemoveCommand (ask (u8 1 ++ u8 0 ++ u16 1 ++ u16 7)) road = true ∧ endsAt road.prom.sections 7 = 0 ∧
      0 < endsAt road.prom.sections 0 ∧ ready graphGetCommand (ask (zeros 4)) road = true ∧
      ready graphGetCommand (ask (u8 3 ++ zeros 3)) road = true ∧ ready trackListCommand (ask (zeros 4)) road = true := by
  decide +kernel

/-- A track of the given state, alone on the street, far in the past, and the road with it. -/
def walker (st : TrackState) : Track := { (default : Track) with number := 50, state := st, reported := 1, speed := 100 }
def walked (st : TrackState) : State := later { road with prom.tracks := [(50, walker st)] }

/-- The same soon after its last batch, with road ahead; and whether the flow of the track stands free at an instant. -/
def strolling : State := { road with prom.tracks := [(50, walker .confirmed)] }
def freeAt (a : State) (at_ : Ns) : Bool :=
  match a.consumer 0x00 with
  | some g => isTrackFlow 50 && !a.inService (g * 65536 + 50) && (a.holdOf (g * 65536 + 50)).isEmpty &&
      decide (a.newest (g * 65536 + 50) ≤ at_) && decide (0 < at_) && a.bs.waiting.isEmpty && a.bs.replays.isEmpty
  | none => false

theorem witness_TracksTickCoastAndEnd :
    ((walked .confirmed).begin 0).running = true ∧ ((walked .confirmed).begin 0).trackOf 50 = some (walker .confirmed) ∧
      0 + road.num 0x4003 * ms ≤ ((walked .confirmed).begin 0).tb ∧ ((walked .confirmed).begin 0).served 0x00 = true ∧
      0 + ((walked .confirmed).begin 0).coastTime (walker .confirmed) ≤ ((walked .confirmed).begin 0).tb ∧
      freeAt ((walked .confirmed).begin 0) (((walked .confirmed).begin 0).coastTime (walker .confirmed)) = true ∧
      (strolling.begin 0).endedAt (walker .confirmed) (strolling.begin 0).tb = none ∧
      (strolling.begin 0).endedAt (walker .confirmed) (strolling.num 0x4003 * ms) = none ∧
      strolling.num 0x4003 * ms ≤ (strolling.begin 0).tb ∧
      strolling.num 0x4003 * ms < (strolling.begin 0).coastTime (walker .confirmed) ∧
      freeAt (strolling.begin 0) (strolling.num 0x4003 * ms) = true ∧
      0 + road.num 0x4022 * ms ≤ ((walked .tentative).begin 0).tb ∧ freeAt ((walked .tentative).begin 0) (road.num 0x4022 * ms) = true ∧
      ((walked .tentative).begin 0).trackOf 50 = some (walker .tentative) ∧
      ((walked .shadow).begin 0).trackOf 50 = some (walker .shadow) ∧
      ((walked .shadow).begin 0).coastTime (walker .shadow) ≤ ((walked .shadow).begin 0).tb ∧
      freeAt ((walked .shadow).begin 0) (((walked .shadow).begin 0).coastTime (walker .shadow)) = true := by decide +kernel

/-- The point's coverage closed, flap-held and deferred in the past. -/
def covered : State :=
  later { road with prom.cover := [(pointKey point, { PointCover.none_ with closedAt := some 0 })] }
def flapped : State := later { road with prom.places := [(pointKey point, 5)]
                                         prom.cover := [(pointKey point, { PointCover.none_ with flapUntil := some 0 })] }
def deferred : State := later { road with prom.cover := [(pointKey point, { PointCover.none_ with deferredAt := some 0 })] }

theorem witness_holds_run_out :
    (covered.coverOf point).deferredAt = none ∧
    ({ covered with prom.cover := [(pointKey point, { PointCover.none_ with closedAt := some 0, deferredAt := some 0 })] }.coverOf
      point).deferredAt.isSome = true ∧ covered.room 0x03 1 = true ∧
    (covered.coverOf point).closedAt = some 0 ∧ 0 + covered.num 0x4008 * sec ≤ covered.tb ∧ (covered.coverOf point).tracks = [] ∧
      (flapped.coverOf point).flapUntil = some 0 ∧
      (flapped.onCover point (fun c => { c with flapUntil := none })).promActive point flapped.tb = false ∧
      { flapped with prom.places := [] }.promActive point flapped.tb = true ∧
      (deferred.coverOf point).deferredAt = some 0 ∧ 0 + deferred.num 0x4028 * sec ≤ deferred.clk.mono ∧
      deferred.commands point (deferred.tb + deferred.num 0x4002 * ms) = false := by decide +kernel

/-- The neighbour module of segment 1, a handover to it, and the road with its track and lane. -/
def neighbour : Pid := mkPid (State.reset.ownPrefix / 64 * 64 + 1) 62 255
def moved : Handover := { (default : Handover) with id := 9, peer := peer, crossing := 5 }
def taken9 : List Byte := u32 9 ++ pidBytes neighbour ++ u8 3 ++ u8 0 ++ u64 5
def givenUp : State := { road with prom.tracks := [(50, { walker .confirmed with sent := [moved] })] }
def shadowed : State := { road with prom.tracks := [(50, { walker .shadow with received := some moved })] }
def handing (kind : Nat) : List Byte :=
  u32 9 ++ pidBytes neighbour ++ u8 3 ++ u8 0 ++ u8 kind ++ zeros 3 ++ u64 5 ++ u64 6 ++ u64 7 ++ zeros 8
def dense : State := { road with prom.tracks := (List.range 512).map (fun n => (48 + n, { walker .confirmed with number := 48 + n })) }
def unserved : State := { road with fe.slots := road.fe.slots.map (fun x => { x with state := .loaded }) }

theorem witness_HandoversAreTakenRenewedAndWithdrawn :
    ready handoverCommand (call (handing 1)) unserved = true ∧ ready handoverCommand (call (handing 3)) unserved = true ∧
      (unserved.taken handoverCommand (call (handing 1))).portalJunction (fld (handing 1) 11 1) = some portal ∧
      unserved.moduleOfRing (pidAt (handing 1) 4) = true ∧ portal.neighbour = pidSegment (pidAt (handing 1) 4) ∧
      portal.peerPortal = fld (handing 1) 10 1 ∧ unserved.served 0x05 = false ∧ handoverOk (handing 1) = true ∧
      ready handoverCommand (call (handing 1)) road = true ∧ ready handoverCommand (call (handing 1)) dense = true ∧
      road.entryOf portal.number = some (0, (10000 : Int) * cm, false) ∧ road.served 0x05 = true ∧ road.room 0x05 1 = true ∧
      road.flag 0x4080 0 = false ∧ { road with par.vals := (0x4080 * 65536, .num 1) :: road.par.vals }.flag 0x4080 0 = true ∧
      road.shadowPlace peer 9 = none ∧ road.freeTrack = some 48 ∧ dense.freeTrack = none ∧ road.trackOf 48 = none ∧
      road.portalJunction (fld (handing 1) 11 1) = some portal ∧ shadowed.shadowPlace peer 9 = some 50 ∧
      (givenUp.trackOf 50).isSome = true ∧ givenUp.room 0x05 1 = true ∧ fld taken9 12 8 ≠ 0 ∧
      givenUp.shadowPlace peer 8 = none ∧ ({ walker .shadow with received := some moved } : Track).received.any (fun h =>
        h.peer == peer && h.id == fld taken9 0 4) = true ∧
      ready handoverTakenCommand (call taken9) givenUp = true ∧
      givenUp.senderOf peer 9 = some { walker .confirmed with sent := [moved] } ∧ givenUp.senderOf peer 8 = none ∧
      ready handoverCancelCommand (call taken9) shadowed = true ∧
      shadowed.shadowOf peer 9 = some { walker .shadow with received := some moved } ∧
      1 ≤ fld taken9 10 1 ∧ fld taken9 10 1 ≤ 3 := by decide +kernel

/-- A peer message of opcode `op` outstanding on lane 2 to the neighbour. -/
def asked (op resends : Nat) : PeerMsg := { sync := false, opcode := op, payload := [], sentAt := 0, resends := resends, handover := none }
def asking (op resends : Nat) : State :=
  { later held with link.peers := [{ peer := peer, lane := 2, seq := 1#32, synced := true, outstanding := some (asked op resends) }] }

theorem witness_peer_messages :
    ((held.begin 0).hears (call []).src) = true ∧ ((held.begin 0).peerLane peer 2).outstanding = none ∧
      (((asking 0x40C0 0).begin 0).peerLane peer 2).outstanding = some (asked 0x40C0 0) ∧
      (((asking 0x40C0 2).begin 0).peerLane peer 2).outstanding = some (asked 0x40C0 2) ∧ isRing (call []).src.endpoint = true ∧
      ((road.begin 0).prom.tracks.all (fun e => !e.2.sent.any (fun h => h.id == 9))) = true ∧
      (((asking 0x40C0 0).begin 0).peerLane peer 2).seq = (call []).seq ∧ (call []).flags.getLsbD 1 = false ∧
      (asked 0x40C0 0).sentAt + 30 * ms ≤ ((asking 0x40C0 0).begin 0).clk.mono ∧
      ({ asking 0x40C0 0 with clk.mono := 0 }.begin 0).clk.mono < (asked 0x40C0 0).sentAt + 30 * ms ∧
      (givenUp.begin 0).prom.tracks.find? (fun e => e.2.sent.any (fun h =>
        h.id == 9 && decide (h.crossing ≤ (givenUp.begin 0).tb) && !h.answered && !h.lost)) =
        some (50, { walker .confirmed with sent := [moved] }) ∧ moved.crossing ≤ (givenUp.begin 0).tb ∧
      moved.answered = false ∧ moved.lost = false := by decide +kernel

/-- Graph 0 of the shipped module in a given state, and a graph 1 beside it. -/
def slotted (st other : SlotState) : State :=
  { held with fe.slots := (held.fe.slots.mapIdx (fun i x =>
      if i = 0 then { x with state := st } else if i = 1 then { GraphSlot.empty with state := other } else x)) }

theorem witness_GraphSlotsFollowTheirTable :
    ready graphLoadCommand (ask (zeros 8)) held = true ∧ ((held.taken graphLoadCommand (ask (zeros 8))).slotOf 0).state ≠ .empty ∧
      (held.slotOf 7).state = .empty ∧
      ready graphStartCommand (ask (u32 0 ++ u64 (2 * sec))) (slotted .loaded .empty) = true ∧
      ((slotted .loaded .empty).slotOf 0).state = .loaded ∧
      (slotted .loaded .empty).consumesTaken 0 0 ((slotted .loaded .empty).slotOf 0).info = false ∧
      ready graphStartCommand (ask (u8 0 ++ u8 1 ++ u16 0 ++ u64 1)) (slotted .loaded .empty) = true ∧
      1 ≤ (slotted .loaded .empty).tb ∧ (slotted .loaded .empty).tb < 2 * sec ∧
      ready graphStopCommand (ask (u32 0 ++ u64 (2 * sec))) held = true ∧ (held.slotOf 0).state = .running ∧
      ready graphSwapCommand (ask (u8 0 ++ u8 1 ++ u16 0 ++ u64 (2 * sec))) (slotted .running .loaded) = true ∧
      ((slotted .running .loaded).slotOf 1).state = .loaded ∧
      (slotted .running .loaded).consumesTaken 1 0 ((slotted .running .loaded).slotOf 1).info = false ∧
      ready graphSwapCommand (ask (u8 0 ++ u8 1 ++ u8 1 ++ u8 0 ++ u64 1)) (slotted .running .loaded) = true ∧
      ((slotted .running .loaded).slotOf 0).info.layout ≠ ((slotted .running .loaded).slotOf 1).info.layout ∧
      ready graphStopCommand (ask (u32 0 ++ u64 (2 * sec))) (slotted .armed .empty) = true ∧
      ready graphUnloadCommand (ask (zeros 4)) (slotted .suspended .empty) = true ∧ 0 < held.fe.slots.length ∧
      0x20 ≤ ((slotted .suspended .empty).slotOf 0).firstQueue ∧
      ((slotted .armed .empty).slotOf 0).state = .armed ∧ ((slotted .armed .empty).slotOf 0).instant ≤ held.tb := by
  decide +kernel

/-- Graph 0 with a change that waits for an instant now past. -/
def changing (to_ : Option Nat) : State :=
  { held with fe.slots := (held.fe.slots.mapIdx (fun i x => if i = 0 then { x with change := some (1, to_) } else x)) }
def swapping : State := { changing (some 1) with fe.slots := lset (changing (some 1)).fe.slots 1 { GraphSlot.empty with state := .loaded } }
/-- A graph image whose digest is good, and what a graph that fits says of itself. -/
def graphImage : Image :=
  { header := u32 0x4D494B56 ++ u8 1 ++ u8 5 ++ u16 0 ++ u32 77 ++ zeros 36 ++
      be 32 0xe3b0c44298fc1c149afbf4c8996fb92427ae41e4649b934ca495991b7852b855 ++ zeros 112, payload := [], accepted := true }
def smallGraph : GraphInfo := { GraphInfo.standard with nodes := 1, flows := 1, codeBytes := 4, queues := [], edges := [], limits := [] }

theorem witness_graph_load :
    let a := { held with up.images := [graphImage] }.taken graphLoadCommand (ask (u8 7 ++ zeros 3 ++ u32 77))
    ready graphLoadCommand (ask (u8 7 ++ zeros 3 ++ u32 77)) { held with up.images := [graphImage] } = true ∧
      (a.slotOf 7).state = .empty ∧ a.imageOf 77 = some graphImage ∧ graphImage.kind = 5 ∧ sha256 graphImage.payload = graphImage.digest ∧ a.graphFits 7 smallGraph = true := by
  decide +kernel

theorem witness_boundaries :
    (((changing none).begin 0).slotOf 0).change = some (1, none) ∧
      (((changing (some 1)).begin 0).slotOf 0).change = some (1, some 1) ∧
      ((changing none).begin 0).swapRefused 0 1 ≠ none ∧ (swapping.begin 0).swapRefused 0 1 = none ∧
      1 ≤ ((changing none).begin 0).tb ∧ (((slotted .loaded .empty).begin 0).slotOf 0).state = .loaded := by decide +kernel

theorem witness_GraphEngineAndQueueQueries :
    ready graphListCommand (ask []) held = true ∧ ready engineStatusCommand (ask []) held = true ∧
      ready queueStatusCommand (ask (u8 255 ++ u8 1 ++ u16 0)) held = true ∧
      ready queueStatusCommand (ask (u8 192 ++ u8 64 ++ u16 0)) held = true ∧
      ready queueStatusCommand (ask (u8 255 ++ u8 2 ++ u16 0)) held = true ∧
      ready backstepStatusCommand (ask []) held = true := by
  decide +kernel

/-- Queue 0x01 with `n` items. -/
def queued (n : Nat) : State :=
  { held with qm.queues := [(1, { items := List.replicate n (.zero), last := none, second := 0, later := true, ops := [] })] }

theorem witness_FullQueuesRefuseAndEmptyOnesUnderrun :
    (held.queue 1).items = [] ∧ (queued 1).room 1 1 = true ∧ (queued (held.capacity 1)).room 1 1 = false ∧
      (queued 1).queueFull 1 = false ∧ ((queued 1).queue 1).items = [Item.zero] ∧
      (queued (held.capacity 1)).queueFull 1 = true := by decide +kernel

/-- Engine 0 with an item in service, and engine 0 retired an hour ago. -/
def serving : Work :=
  { item := .zero, queue := 1, pass := .first, context := 0, behind := 0, firstAt := none, retiredOnce := false, mark := 0 }
def busyEngine : State := { held with fe.engines := lmod held.fe.engines 0 (fun e => { e with cur := some serving }) }
def retired : State := later { held with fe.engines := lmod held.fe.engines 0 (fun e => { e with state := 1, times := [0] }) }
def plain : ItemOutcome :=
  { state := none, endFlow := false, pushes := [], pops := [], alarm := none, ops := 1, perfReads := [], badAccess := false, node := 0,
    errors := [] }

/-- Engine 0 with an item that has stalled an engine before; the flow of a track, with a checkpoint and a log entry. -/
def stuck : State :=
  { held with fe.engines := lmod held.fe.engines 0 (fun e => { e with cur := some { serving with retiredOnce := true } }) }
def tracked : State := { road with
  fe.flows := [(50, ⟨zeros 64, none, false⟩), (20000, ⟨zeros 64, none, false⟩)]
  bs.ckpts := [(50, [default])], bs.log := [(50, [{ stamp := 0, serial := 1, context := 0, lost := false, item := .zero, queue := 0, firstAt := 0, pushes := [] }])] }

theorem witness_EnginesServeRetireAndReturn :
    ((stuck.begin 0).retire 0 1).2 = true ∧ (((stuck.begin 0).retire 0 1).1.engine 0).state ≠ 4 ∧
      (tget (tracked.begin 0).fe.flows (0 * 65536 + 50)).isSome = true ∧ (tracked.begin 0).consumer 0x00 = some 0 ∧
      isTrackFlow 50 = true ∧ ((tracked.begin 0).ckptsOf (0 * 65536 + 50)).length = 1 ∧
      ((tracked.begin 0).logOf (0 * 65536 + 50)).length = 1 ∧
      (unserved.begin 0).consumer 0x00 ≠ some ((0 * 65536 + 50) / 65536) ∧
      (tget ({ unserved with fe.flows := [(50, ⟨zeros 64, none, false⟩)] }.begin 0).fe.flows (0 * 65536 + 50)).isSome = true ∧
    (held.begin 0).running = true ∧ ((held.begin 0).engine 0).state = 0 ∧ ((held.begin 0).engine 15).state = 0 ∧
      ((held.begin 0).engine 0).cur = none ∧ ((busyEngine.begin 0).engine 0).cur = some serving ∧
      (busyEngine.begin 0).outcomeFault serving plain = none ∧
      ((busyEngine.begin 0).outcomeFault serving { plain with badAccess := true }).isSome = true ∧
      (((held.begin 0).retire 0 1).2 = false) ∧ ((retired.begin 0).engine 0).state ≠ 0 ∧ (retired.begin 0).flag 0x4803 = true ∧
      maxOf ((retired.begin 0).engine 0).times + 60 * sec ≤ (retired.begin 0).clk.mono ∧
      tget ({ held with fe.flows := [(5, ⟨zeros 64, none, false⟩)] }.begin 0).fe.flows (0 * 65536 + 5) ≠ none := by decide +kernel

/-- Flow 5 of graph 0 with an alarm at 1 ns, and a revision missed. -/
def revision : Revision := { (default : Revision) with point := point, launch := 1, tol := 0 }
def lowered : State := later { held with fe.fabricMv := 510 }
def alarmed : State := { held with fe.flows := [(5, ⟨zeros 64, some 1, false⟩)], bs.revisions := [revision] }

theorem witness_AlarmsLevelsPaceAndRevisions :
    ((alarmed.begin 0).flowState (0 * 65536 + 5)).alarm = some 1 ∧ 1 ≤ (alarmed.begin 0).tb ∧
      (alarmed.begin 0).room 0x08 1 = true ∧ (lowered.begin 0).fe.fabricMv ≤ 900 ∧ (lowered.begin 0).fe.fabricMv % 10 = 0 ∧
      ((alarmed.begin 0).queue 0x08).items.any (fun it => flowKey it == 0 * 65536 + 5) = false ∧
      ((alarmed.begin 0).slotOf 0).state = .running ∧
      (((queued 1).begin 0).queue 1).later = true ∧ (((queued 1).begin 0).queue 1).second ≤ ((queued 1).begin 0).second ∧
      510 ≤ (lowered.begin 0).fe.fabricMv ∧ (lowered.begin 0).fe.lastLower + ms ≤ (lowered.begin 0).clk.mono ∧
      (lowered.begin 0).meets ((lowered.begin 0).fe.fabricMv - 10) = true ∧ (held.begin 0).fe.fabricMv < 510 ∧
      (alarmed.begin 0).bs.revisions.find? (fun r => r.point == point && r.launch == 1) = some revision ∧ revision.tol ≠ 0xFFFF ∧
      1 + 0 * ms < (alarmed.begin 0).tb := by decide +kernel

/-! ## Witnesses: the mesh, metering, the ring and network time -/

/-- A node of the lamp's point, joined an hour ago, and the module with it. -/
def node : Node := { (default : Node) with point := point, eui := 5#64, short := 4, state := 1, radio := 0 }
def radioKey (s : State) : State :=
  { s with ks.slots := lmod s.ks.slots s.netkeySlot (fun k =>
      { k with rec_ := { k.rec_ with type := 1, attrs := 0xFFFF, key := zeros 16 } }) }
def meshed : State := later { radioKey lit with
  mesh.nodes := [(5, node)], mesh.map := [(5, point)], pwr.vpaMv := 5000
  mesh.band := { (default : BandPlan) with hop := [0#8] }, par.vals := (0x5006 * 65536, .blob [0#8]) :: lit.par.vals }
def mapping : List Byte := u16 1 ++ u16 0 ++ u64 5 ++ pidBytes point ++ zeros 2

theorem witness_NodeMapIsOneToOneAndIsShown :
    ready nodeMapSetCommand (ask mapping) meshed = true ∧ firstRefusal ([point].map meshed.pointRefused) = none ∧
      ready nodeMapSetCommand (ask (u16 0 ++ u16 0)) meshed = true ∧ tget meshed.mesh.map 5 = some point ∧
      ready nodeMapRemoveCommand (ask (u16 1 ++ u16 0 ++ u64 5)) meshed = true ∧
      ready nodeMapGetCommand (ask (zeros 4)) meshed = true ∧
      ready nodeListCommand (ask (zeros 4)) meshed = true ∧ ready radioStatusCommand (ask []) meshed = true := by decide +kernel

def probing : State := { meshed with mesh.probes := [⟨point, 0, 1, 0, some (.host, 1)⟩] }

def probingNow : State :=
  { meshed.taken nodeProbeCommand (ask (pidBytes point ++ u8 3 ++ u8 0)) with mesh.probes := [⟨point, 0, 1, 0, some (.host, 1)⟩] }

theorem witness_ProbesAndLeavesReachTheirNode :
    (probingNow.lane .host 1).cmd.isSome = true ∧ (probingNow.lane .host 1).phase ≠ .idle ∧
    ready nodeLeaveCommand (ask (pidBytes point ++ u8 3 ++ u8 0)) lit = true ∧
    ready nodeProbeCommand (ask (pidBytes point ++ u8 3 ++ u8 0)) meshed = true ∧ meshed.pointRefused point = none ∧
      meshed.nodeAt point = some node ∧ lit.nodeAt point = none ∧
      ready nodeLeaveCommand (ask (pidBytes point ++ u8 2 ++ u8 0)) meshed = true ∧
      (probing.mesh.probes.find? (fun p =>
        p.point == node.point && p.kind == fld [0#8, 1#8] 0 1 && p.tag == fld [0#8, 1#8] 1 1)).isSome = true := by decide +kernel

/-- An uplink frame of the node under the key in force. -/
def uplink (ctr : Nat) : UplinkFrame :=
  { fcsOk := true, supported := true, level := 5, keyIndex := held.mesh.keyIndex, ccmOk := true, neighbour := 4, counter := ctr
    mic := 0#32, offset := 0, dedicated := false, rssi := -60, pdus := [] }
def heardOnce : Node := { node with links := [(held.mesh.keyIndex, 7, 0#32)] }

theorem witness_UplinkFramesAreAcknowledgedOnce :
    (meshed.begin 0).mayTransmit 0 = true ∧ (meshed.begin 0).listening 0 (uplink 7) = true ∧
      (meshed.begin 0).linkKey held.mesh.keyIndex = true ∧ (meshed.begin 0).byShort 4 = some node ∧
      node.judgeLink held.mesh.keyIndex 7 0#32 = .new ∧ (meshed.begin 0).switchQuiet = false ∧
      (meshed.begin 0).rooms ((meshed.begin 0).claimsOf ((meshed.begin 0).needs [])) = true ∧ (meshed.begin 0).linkKey (held.mesh.keyIndex + 1) = false ∧
      heardOnce.judgeLink held.mesh.keyIndex 7 0#32 = .repeated ∧ heardOnce.judgeLink held.mesh.keyIndex 6 0#32 = .replay ∧
      joinFrame { uplink 7 with level := 0 } = true ∧
      (meshed.begin 0).rooms [(3, 100000)] = false ∧ (meshed.begin 0).byShort 9 = none ∧
      node.accepts 0 = true ∧ (node.seen 7).accepts 8 = true ∧ (node.seen 7).accepts 7 = false ∧
      (held.begin 0).mayTransmit 4 = false := by decide +kernel

/-- The same instant in timeslot `n` of the slotframe. -/
def slotted_ (n : Nat) : State := { meshed with clk.timeBase := meshed.clk.timeBase + (4 * n + 41) * ms, mesh.stretches := [] }

theorem witness_RadioCellsSendWhatWaits :
    (((slotted_ 0).begin 0).running && ((slotted_ 0).begin 0).mayTransmit 0) = true ∧ ((slotted_ 0).begin 0).timeslot = 0 ∧
      (((slotted_ 1).begin 0).running && ((slotted_ 1).begin 0).mayTransmit 0) = true ∧ ((slotted_ 1).begin 0).timeslot = 1 ∧
      (((slotted_ 2).begin 0).running && ((slotted_ 2).begin 0).mayTransmit 0) = true ∧ ((slotted_ 2).begin 0).timeslot = 2 ∧
      ((slotted_ 2).begin 0).switchQuiet = false ∧ (((slotted_ 2).begin 0).driveNext 0 true).1.isSome = false ∧
      (((slotted_ 2).begin 0).otherNext 0 true).1.isSome = false := by decide +kernel

/-- A drive flight of radio 0 to send again, and another one. -/
def sent_ (entries : List DriveCmd) : State :=
  { slotted_ 1 with mesh.flights := [{ (default : Flight) with id := 2, radio := 0, target := 5#64, entries := entries, attempts := 0 }] }

theorem witness_frames_to_send :
    (((sent_ [default]).begin 0).driveNext 0 false).1.isSome = true ∧ (((sent_ []).begin 0).driveNext 0 false).1.isSome = false ∧
      ((((sent_ []).begin 0).driveNext 0 false).2.otherNext 0 false).1.isSome = true := by decide +kernel

/-- A frame fits the transmit duty of a radio that has sent nothing. -/
theorem witness_duty : ((slotted_ 0).begin 0).overDuty 0 (((slotted_ 0).begin 0).airtime (((slotted_ 0).begin 0).mpdu 60) false) 3 = false := by
  have h : ((slotted_ 0).begin 0).airtime (((slotted_ 0).begin 0).mpdu 60) false ≤ 1800 * us := by
    have e : ((slotted_ 0).begin 0).mesh.band.phy = 0 := by decide +kernel
    unfold State.airtime
    rw [e]
    exact Nat.min_le_right _ _
  have t : ((slotted_ 0).begin 0).txTime 0 + 1800 * us ≤ ((slotted_ 0).begin 0).num 0x5081 0 * 360 * ms := by decide +kernel
  exact decide_eq_false (Nat.not_lt.mpr (Nat.le_trans (Nat.add_le_add_left h _) t))

/-- A flight with one drive entry, sent an hour ago, and a roll of the network key under way. -/
def flight : Flight := { (default : Flight) with id := 2, radio := 0, target := 5#64, entries := [default], attempts := 1 }
def flying : State := { meshed with mesh.flights := [flight] }
def rolling (t : Ns) : State := { meshed with mesh.nextKey := some (2, t), mesh.oldKey := some (9, 0) }

theorem witness_MeshTimersAndKeysAct :
    (flying.begin 0).mesh.flights.find? (fun f => f.id == 2 && f.radio == 0 && !f.acked && decide (0 < f.attempts)) = some flight ∧
      (flying.begin 0).mesh.flights.find? (fun f => f.id == 2 && !f.entries.isEmpty && decide (0 < f.attempts)) = some flight ∧
      flight.sentAt + flying.num 0x5018 * ms ≤ (flying.begin 0).clk.mono ∧ (flying.begin 0).nodeAt point = some node ∧
      node.lastPdu + flying.num 0x5011 * sec ≤ (flying.begin 0).clk.mono ∧ (flying.begin 0).mesh.nextKey = none ∧
      ((rolling 1).begin 0).mesh.nextKey = some (2, 1) ∧ 1 ≤ ((rolling 1).begin 0).meshTime ∧
      ((rolling (10000 * sec)).begin 0).meshTime < 10000 * sec ∧ ((rolling 1).begin 0).mesh.oldKey = some (9, 0) ∧
      0 + 60 * sec ≤ ((rolling 1).begin 0).clk.mono ∧ (flying.begin 0).counterHigh = false := by decide +kernel

/-- A usable network key, an old one, and an arm of node images past its instant. -/
def keyed : State :=
  { meshed with clk.mono := 400 * 86400 * sec
                up.arms := [(1, { imageId := 3, instant := 0, immediate := false, pending := false, rollback := false })] }

theorem witness_key_roll :
    (keyed.begin 0).keyUsable (keyed.begin 0).netkeySlot 1 = true ∧
      (keyed.begin 0).mesh.keyMadeAt + (keyed.begin 0).num 0x5017 * 86400 * sec ≤ (keyed.begin 0).clk.mono ∧
      tget (keyed.begin 0).up.arms 1 = some { imageId := 3, instant := 0, immediate := false, pending := false, rollback := false } :=
  by decide +kernel

/-- The host's snapshot of every circuit, taken now. -/
def snapped : State :=
  let x : Snapshot := { id := 1, stamp := 0, takenAt := 0, rows := List.replicate 48 default }
  (held.sessionHears (ask [])).onSession .host (fun s => { s with snapshot := some x })

theorem witness_SnapshotsAreTakenAndRead :
    ready meterTakeCommand (ask []) held = true ∧ ready meterReadCommand (ask (u32 1 ++ u8 26 ++ u8 22 ++ u16 0)) snapped = true ∧
      26 + 22 ≤ (snapped.taken meterReadCommand (ask [])).circuitsFitted ∧
      (((snapped.taken meterReadCommand (ask [])).snapshot? .host).all (fun x => x.id == 1 && x.rows.length == 48)) = true ∧
      ((snapped.taken meterReadCommand (ask [])).snapshot? .host).isSome = true ∧
      ready meterReadCommand (ask (u32 2 ++ u8 27 ++ u8 22 ++ u16 0)) snapped = true ∧
      ({ snapped with id.order := .vkm16C }.circuitsFitted < 48) ∧
      ready meterReadCommand (ask (u32 1 ++ u8 26 ++ u8 22 ++ u16 0)) { snapped with id.order := .vkm16C } = true ∧
      ready pqListCommand (ask (zeros 4)) held = true ∧ ready spanGetCommand (ask (zeros 4)) held = true ∧
      ready reconQueryCommand (ask (u32 47)) held = true ∧
      ready reconQueryCommand (ask (u32 47)) { held with id.order := .vkm16C } = true := by decide +kernel

/-- A span of the lamp's point from the cabinet, and one from itself. -/
def span (up : Pid) : Span := { point := point, upstream := up, rLoop := 100000 }
def cabinet : Pid := mkPid State.reset.ownPrefix 0 255
def spanning (up : Pid) : List Byte := u16 1 ++ u16 0 ++ pidBytes point ++ pidBytes up ++ u32 100000

theorem witness_SpansAreSetWholeOrNotAtAll :
    ready spanSetCommand (ask (spanning cabinet)) lit = true ∧ (entries 16 (spanning cabinet)).map spanAt = [span cabinet] ∧
      firstRefusal ([span cabinet].map lit.spanRefused) = none ∧ (lit.mt.putSpan (span cabinet)).spans.all (fun e =>
        reachesCabinet (lit.mt.putSpan (span cabinet)).spans 257 e.2.point) = true ∧
      (lit.mt.putSpan (span point)).spans.all (fun e => reachesCabinet (lit.mt.putSpan (span point)).spans 257 e.2.point) = false ∧
      ((firstRefusal ([span cabinet].map held.spanRefused)).all statusCached) = true ∧
      (firstRefusal ([span cabinet].map held.spanRefused)).isSome = true := by decide +kernel

theorem witness_EnergyLandsOnceAndWhole :
    (held.begin 0).powered = true ∧ (held.begin 0).mt.working = true ∧
      ((later held).begin 0).mt.lastCheckpoint + sec ≤ ((later held).begin 0).clk.mono ∧
      (held.begin 0).clk.mono < (held.begin 0).mt.lastCheckpoint + sec ∧ (0 : Nat) < pow32 ∧
      0 * pow32 + 0 ≤ 5 * pow32 + 1 ∧ ((noon.begin 0).mt.ledgerDone < (noon.begin 0).ledgerInstant) ∧
      ((held.begin 0).ledgerInstant ≤ (held.begin 0).mt.ledgerDone) := by decide +kernel

/-- A voltage event open for an hour, a converter calibrating since before, and one ready and due. -/
def event_ : PqEvent := { (default : PqEvent) with kind := 1 }
def troubled : State := later { lit with
  mt.opened := [event_], mt.converters := [(0, { (default : Converter) with step := some 1 })]
  mt.inputs := [{ (default : MeterInput) with freqSum := 50000000, freqCount := 1, urms := 10 ^ 18 }]
  par.vals := (0x6081 * 65536, .num 1) :: lit.par.vals }
def metering : State := { lit with par.vals := (0x6081 * 65536, .num 1) :: lit.par.vals, clk.mono := 90000 * sec }

theorem witness_VoltageEventsAndCalibrations :
    (troubled.begin 0).mt.opened.find? (fun e => e.kind == 1 && !e.raised && decide (e.since + 60 * sec ≤ (troubled.begin 0).clk.mono)) =
        some event_ ∧ ((troubled.begin 0).mt.inputs[0]?).isSome = true ∧
      (((troubled.begin 0).mt.inputs[0]?).all (fun x => x.freqDone < troubled.tb / (10 * sec) * (10 * sec))) = true ∧
      ((held.begin 0).converter 50).lastCal + 0 ≤ (held.begin 0).clk.mono ∧
      (held.begin 0).clk.mono < ((held.begin 0).converter 0).lastCal + 82800 * sec ∧
      (metering.begin 0).calReady 48 = true ∧ (metering.begin 0).calHeld 48 = false ∧
      ((metering.begin 0).converter 48).lastCal + metering.num 0x6008 * sec ≤ (metering.begin 0).clk.mono ∧
      ((metering.begin 0).converter 48).lastCal + 82800 * sec ≤ (metering.begin 0).clk.mono ∧
      ((metering.begin 0).converter 48).forced = false ∧
      ({ metering with mt.opened := [{ event_ with inputs := 7 }] }.begin 0).calHeld 48 = true ∧
      (({ troubled with clk.mono := 90000 * sec }.begin 0).converter 0).step ≠ none ∧
      held.mt.opened.find? (fun e => e.kind == 3) = none ∧ troubled.pqStarts 3 = false ∧ metering.pqStarts 3 = true ∧
      troubled.mt.opened.find? (fun e => e.kind == 1) = some event_ ∧ (troubled.pqEnds 1) = true := by decide +kernel

/-- A circuit watched by reconciliation with a window metered at both ends. -/
def judged : State :=
  let c : MeterCircuit := { (default : MeterCircuit) with
    recon := { (default : Recon) with ends := [{ (default : WindowEnd) with mesh := 0 }, { (default : WindowEnd) with
      mesh := lit.num 0x6010 * sec }] } }
  later (later { lit with par.vals := lit.par.vals ++ [(0x6095 * 65536, .num 1)], mt.circuits := [(0, c)] })

theorem witness_window_judged : judged.reconciles 0 = true ∧ (judged.openWindow 0).isSome = true ∧
    ((judged.openWindow 0).all (fun w => w.2.mesh + judged.num 0x6011 * sec ≤ judged.meshTime)) = true ∧
    ((judged.openWindow 0).all (fun w => (judged.circuitNodes 0).all (fun n => n.hasWindow w.2.mesh (w.2.mesh - w.1.mesh)))) = true :=
  by decide +kernel

/-- Both ring ports up at 100 Mb/s, a frame of the peer, and one noted before. -/
def linked : State :=
  let up (p : RingPort) : RingPort := { p with link := { p.link with speed := 2, partnerCopper := true, partnerAuto := true } }
  { held with ring.a := up held.ring.a, ring.b := up held.ring.b }
def frame : RingFrame :=
  { src := peer, dst := .module, hsrSeq := 1#16, vlan := none, etherType := 0x88B5#16, supervision := false, lsdu := [] }
def noted : State := { linked with ring.delivered := [{ src := peer, seq := 1#16, at_ := 0 }]
                                   ring.a := { linked.ring.a with left := [{ src := peer, seq := 1#16, at_ := 0 }] } }
def copied : State := later { linked with ring.copies := [{ src := peer, seq := 1#16, port := .A, crc := 0#32, at_ := 0 }] }
def launching (t tol : Ns) : State :=
  { linked with ring.a := { linked.ring.a with expressQ := [{ launch := t, tol := tol, frame := frame }] } }

theorem witness_RingFramesAreDeliveredAndForwardedOnce :
    linked.linkUp .A = true ∧ hasDup (freshDups noted.ring.delivered noted.clk.mono noted.forget) frame = true ∧
      hasDup (freshDups linked.ring.delivered linked.clk.mono linked.forget) frame = false ∧ frame.src ≠ linked.id.mac ∧
      forModule frame = true ∧ hasDup (freshDups (noted.port .A).left noted.clk.mono noted.forget) frame = true ∧
      ((linked.begin 0).ringFrame .A frame).2 = true ∧ ((noted.begin 0).ringFrame .A frame).2 = false ∧
      ((copied.begin 0).ring.copies.find? (fun c => c.src == peer && c.seq == 1#16 &&
        decide (c.at_ + copied.forget ≤ (copied.begin 0).clk.mono))).isSome = true ∧
      (((launching (2 * sec) 0).begin 0).port .A).launchQ .express = [{ launch := 2 * sec, tol := 0, frame := frame }] ∧
      ((launching (2 * sec) 0).begin 0).tb < 2 * sec ∧ ((launching sec 0).begin 0).tb = sec ∧
      sec - 1 + 0 < ((launching (sec - 1) 0).begin 0).tb ∧
      ((linked.begin 0).port .B).launchQ .preemptable = [] ∧
      ((later held).begin 0).ring.lastSup + held.num 0x7001 * ms ≤ ((later held).begin 0).clk.mono ∧
      (held.begin 0).ringReturns = (held.begin 0).ring.closed ∧
      ({ held with ring.closed := true }.begin 0).ringReturns ≠ true ∧
      (linked.begin 0).flag 0x7003 = true ∧
      (({ linked with ring.a := { linked.ring.a with pausedUntil := some 5 } }.begin 0).port .A).pausedUntil = some 5 := by
  decide +kernel

/-- Port B in automatic speed with its target below, in the module's own turn with the ring closed and time valid. -/
def turning : State :=
  { linked with ptp.state := .holdover, ring.closed := true
                ring.b := { linked.ring.b with target := 1 }
                clk.timeBase := (64 * 100 + pidSegment State.reset.ownPid) * 4 * sec }
def idleCopper : State := later { linked with
  ring.b := { linked.ring.b with eee := true, link := { linked.ring.b.link with partnerEee := true } } }
def info (v : Nat) : LinkInfo := { speed := v, partnerCopper := true, partnerAuto := true, partnerEee := true, halfDuplexOnly := false }

theorem witness_LinksRiseFallAndSaveEnergy :
    ((held.begin 0).port .A).mode ≠ 3 ∧ (held.begin 0).flag 0x7080 0 = true ∧
      (info 2).speed % 4 ≠ ((held.begin 0).port .A).link.speed ∧
      (linked.begin 0).linkUp .B = true ∧ ((linked.begin 0).port .B).verified = false ∧
      ((linked.begin 0).port .B).verifyTries = 0 ∧
      (((idleCopper.begin 0).port .B).eee && ((idleCopper.begin 0).port .B).mode == 0 && 2 ≤ ((idleCopper.begin 0).port .B).link.speed &&
        ((idleCopper.begin 0).port .B).expressQ.isEmpty && ((idleCopper.begin 0).port .B).preemptQ.isEmpty &&
        ((idleCopper.begin 0).port .B).fwdQ.isEmpty && decide (((idleCopper.begin 0).port .B).txEmptySince +
          idleCopper.num 0x700B * us ≤ (idleCopper.begin 0).clk.mono)) = true ∧
      (linked.begin 0).autoSpeed .B = true ∧ (linked.begin 0).autoSpeed .A = false ∧ (turning.begin 0).mayRenegotiate .B = true ∧
      (linked.begin 0).mayRenegotiate .B = false := by decide +kernel

theorem witness_RingAndTimeCommandsAnswer :
    ready ringPeerSetCommand (ask (u16 1 ++ u16 0 ++ u8 1 ++ u8 0 ++ be 6 7)) held = true ∧ 1 ≠ pidSegment held.ownPid ∧
      ready ringPeerSetCommand (ask (u16 0 ++ u16 0)) held = true ∧ ready timeSeedCommand (ask (u64 (2 * sec))) held = true ∧
      (held.taken timeSeedCommand (ask [])).ptp.state = .free ∧ 2 * sec % sec = 0 ∧
      (held.taken timeSeedCommand (ask [])).ptp.ppsEdge = none ∧
      ready timeSeedCommand (ask (u64 (2 * sec))) { held with ptp.state := .locked } = true ∧
      ({ held with par.vals := [(0x7022 * 65536, .num 1)], ptp.ppsEdge := some 0 }.num 0x7022 = 1) ∧
      ({ held with ptp.ppsEdge := some 0 }.ptp.ppsEdge.isSome && !{ held with ptp.ppsMissing := false }.ptp.ppsMissing) = true ∧
      ready ringHealthCommand (ask []) held = true ∧ ready ringPeerGetCommand (ask []) held = true ∧
      ready timeStatusCommand (ask []) held = true := by decide +kernel

/-- A Sync and a Follow_Up of a master, the port's peer delay valid, and the Sync held. -/
def syncMsg (two : Bool) : SyncMsg :=
  { master := 9#64, seconds := 5, nanos := 0, correction := 0, sequence := 1#16, twoStep := two, domain := held.num 0x7020
    interval := sec, age := 0 }
def followMsg : FollowUpMsg :=
  { master := 9#64, seconds := 5, nanos := 0, correction := 0, sequence := 1#16, domain := held.num 0x7020 }
def announceMsg : AnnounceMsg :=
  { source := 9#64, grandmaster := 9#64, priority1 := 1, clockClass := 6, accuracy := 0x20, variance := 0, priority2 := 1, steps := 0
    utcOffset := 37, utcValid := true, domain := held.num 0x7020 }
def timed : State := { linked with ring.a := { linked.ring.a with delayValid := true, asked := true, failRun := 2 } }
def heldSync : HeldSync := { port := .A, master := 9#64, seq := 1#16, sum := 0, corr := 0, ingress := 0, at_ := 0 }

theorem witness_TheTimeBaseFollowsItsMaster :
    ((linked.begin 0).port .A).delayValid = false ∧ ((timed.begin 0).port .A).delayValid = true ∧
      ((timed.begin 0).macStamp 0).isSome = true ∧ ({ later timed with id.order := .vkm16C }.begin 0).macStamp 0 = none ∧
      (timed.begin 0).ptp.held = [] ∧
      ({ timed with ptp.held := [heldSync] }.begin 0).ptp.held.find? (fun (h : HeldSync) => h.port == Port.A && h.master == 9#64 && h.seq == 1#16) =
        some heldSync ∧ announceMsg.source.toNat ≠ (timed.begin 0).clockId ∧
      ({ later timed with ptp.state := .holdover }.begin 0).ptp.state = .holdover ∧
      (held.begin 0).ppsAccepts = true ∧ ({ held with ptp.ppsEdge := some (5 * sec), ptp.ppsMissing := false }.begin 0).ppsAccepts = false ∧
      ({ later held with ptp.ppsEdge := some 0, ptp.ppsMissing := false }.begin 0).ptp.ppsMissing = false ∧
      { held with id.order := .vkm16C }.is16C = true ∧
      ((timed.begin 0).port .A).asked = true ∧ ((timed.begin 0).port .A).askedAt = 0 := by decide +kernel

theorem witness_sync_missed :
    let a := ({ later timed with ptp.state := .locked, ptp.lastSync := some 0, ptp.master := some announceMsg
                                 ptp.heard := [(Port.A, announceMsg, (later timed).clk.mono)] }.begin 0).selectMaster
    a.ptp.state = .locked ∧ a.ptp.lastSync = some 0 ∧ 0 + 3 * a.ptp.interval ≤ a.clk.mono := by decide +kernel

/-! ## Witnesses: the History Store, the recorder and the counters -/

def self6 : List Byte := pidBytes (mkPid State.reset.ownPrefix 62 255)
def selecting : List Byte := zeros 4 ++ self6 ++ zeros 2 ++ u64 (2 ^ 1) ++ u64 1 ++ u64 (5 * sec)
/-- An open cursor, and the module with as many. -/
def cursor (id : Nat) : Cursor :=
  { id := id, ep := .host, tier := 0, hide := false, mode := 0, place := 0, types := 2, from_ := 1, to_ := 5 * sec, cutoff := sec
    appended := 1, after := none, lastUse := 0, agedTold := false, oldest := 0, gone := [] }
def reading (n : Nat) : State :=
  let h := held.sessionHears (ask [])
  { h with hs.cursors := (List.range n).map cursor }

theorem witness_CursorsReturnWhatTheySelect :
    ready histQueryCommand (ask selecting) held = true ∧
      (held.taken histQueryCommand (ask selecting)).queryRefused selecting = none ∧
      (held.taken histQueryCommand (ask selecting)).hs.cursors.length < 16 ∧
      ready histQueryCommand (ask selecting) (reading 16) = true ∧
      16 ≤ ((reading 16).taken histQueryCommand (ask selecting)).hs.cursors.length ∧
      ready histNextCommand (ask (u32 0 ++ u16 1468 ++ zeros 2)) (reading 1) = true ∧
      ((reading 1).taken histNextCommand (ask [])).cursor? .host 0 = some (cursor 0) ∧
      ((reading 1).taken histNextCommand (ask [])).cursor? .host 9 = none ∧
      ready histNextCommand (ask (u32 9 ++ u16 32 ++ zeros 2)) (reading 1) = true ∧
      ready histCloseCommand (ask (u32 0)) (reading 1) = true ∧ ready histCloseCommand (ask (u32 9)) (reading 1) = true ∧
      ready histStatusCommand (ask []) held = true := by decide +kernel

def good : MediumOutcome :=
  { ok := true, blockFailed := false, corrected := 0, softReads := 0, worstBits := 0, uncorrectable := false,
    programmed := (0, 0), read := (0, 0), busy := (0, 0) }
def entry : HistRec := { stamp := 5, place := 0, type := 1, body := [] }
def block : Block := { (default : Block) with number := 7, package := 0, refresh := true }
/-- A record waits, the store has stalled for an hour, and tier 0 holds one block due for a refresh and seldom erased. -/
def stalled : State := later { held with
  hs.stallSince := some 0, hs.tiers := lmod held.hs.tiers 0 (fun t => { t with blocks := [block] })
  hs.erases := (List.range 100).map (fun n => (n + 100, 1000000))
  qm.queues := [(0x0A, { held.queue 0x0A with
    items := [{ flow := 0, graph := 0, flags := 0, enq := 0, origin := 5, body := .record entry }] })] }

theorem witness_RecordsAreProgrammedAndKept :
    (held.begin 0).histOpen = true ∧ good.ok = true ∧ good.blockFailed = false ∧ 0 < held.hs.tiers.length ∧ entry.stamp ≠ 0 ∧
      ((stalled.begin 0).queue 0x0A).items.isEmpty = false ∧ ((held.begin 0).queue 0x0A).items.isEmpty = true ∧
      ({ stalled with hs.packages := [false, false] }.begin 0).histOpen = false ∧
      (stalled.begin 0).hs.stallSince = some 0 ∧ 0 + 2 * sec ≤ (stalled.begin 0).clk.mono ∧
      ({ held with hs.stallSince := some sec }.begin 0).clk.mono < sec + 2 * sec ∧ (held.begin 0).hs.stallSince = none ∧
      (stalled.begin 0).pwr.state ≠ .lastGasp ∧ (stalled.begin 0).workingPackages ≠ [] ∧
      (stalled.begin 0).blockTier 7 = some (0, block) ∧ block.refresh = true ∧ (stalled.begin 0).lowWear block = true ∧
      (stalled.begin 0).scrubYields .refresh = true ∧ (stalled.begin 0).scrubYields .scrub = false ∧
      (stalled.begin 0).scrubLate = true ∧ (held.begin 0).scrubYields .refresh = false ∧ (held.begin 0).scrubLate = false ∧
      ({ stalled with hs.packages := [false, false] }.begin 0).workingPackages = [] ∧
      ({ stalled with hs.packages := [false, false] }.begin 0).scrubLate = true ∧
      (stalled.begin 0).blockTier 8 = none ∧ (held.begin 0).workingPackages.contains 0 = true ∧
      (held.begin 0).workingPackages.contains 2 = false := by decide +kernel

/-- Two waiting records, one of them of a last gasp, and the recorder having left its MRAM an hour ago. -/
def event1 : RecEntry := { (default : RecEntry) with order := 1 }
def event2 : RecEntry := { (default : RecEntry) with order := 2, flags := 2 }
def recording : State := { held with ev.queue := [event2], ev.lastGasp := [event1], ev.unmirrored := [event1] }
def fallen : State := later { recording with ev.state := 1 }

theorem witness_RecordsReachTheirRegionInOrder :
    event1.numbered = false ∧ (recording.begin 0).running = true ∧ (recording.begin 0).ev.state = 0 ∧
      (recording.begin 0).nextRecord = some (event1, true) ∧ (recording.begin 0).ev.failRun < 2 ∧
      (held.begin 0).nextRecord = none ∧ (fallen.begin 0).ev.state ≠ 0 ∧ (fallen.begin 0).ev.queue = event2 :: [] ∧
      (recording.begin 0).ev.unmirrored ≠ [] ∧ (recording.begin 0).ev.mirrorBehind = false ∧
      (fallen.begin 0).ev.lastRetry + 60 * sec ≤ (fallen.begin 0).clk.mono ∧
      (held.begin 0).clk.mono < (held.begin 0).ev.lastRetry + 60 * sec ∧
      ready recReadCommand (ask (u8 1 ++ u8 0 ++ u16 22 ++ u32 0xFFFFFFFF)) held = true ∧
      ready recReadCommand (ask (u8 2 ++ u8 0 ++ u16 22 ++ u32 0xFFFFFFFF)) held = true ∧
      ready recReadCommand (ask (u8 0 ++ u8 0 ++ u16 23 ++ u32 0)) held = true ∧ ready recStatusCommand (ask []) held = true ∧
      event1.pinned = !event2.pinned := by decide +kernel

/-- Counter 3 counts event 1 and samples every thousandth, 256 samples kept or none; meter 0 a window to its end. -/
def counting (n : Nat) : State := { held with
  par.vals := [(0x8480 * 65536 + 3, .num 0x0001), (0x8482 * 65536 + 3, .num 1000)], perf.sinceSample := [(3, 1000)]
  perf.samples := List.replicate n { counter := 3, stamp := 0, capture := ⟨0, 0, 0, 0, 0⟩ } }
def windowed : State := later { held with
  perf.meters := lmod held.perf.meters 0 (fun m => { m with window := held.num 0x8492 0, windowStart := 0 }) }

theorem witness_PerformanceIsCountedSampledAndMetered :
    ready perfReadCommand (ask (u8 0 ++ u8 64 ++ zeros 2)) held = true ∧
      ready perfReadCommand (ask (u8 1 ++ u8 64 ++ zeros 2)) held = true ∧
      ready perfReadCommand (ask (zeros 4)) held = true ∧
      ready perfSamplesCommand (ask (u16 60 ++ zeros 2)) (counting 256) = true ∧
      ((counting 255).begin 0).sampleDue 3 = true ∧ ((counting 255).begin 0).perf.samples.length < 256 ∧
      256 ≤ ((counting 256).begin 0).perf.samples.length ∧ ((counting 0).begin 0).sampleDue 4 = false ∧
      (windowed.perf.meters[0]?).isSome = true ∧
      ((windowed.perf.meters[0]?).all (fun m => windowed.num 0x8492 0 == m.window && decide (0 < m.window) &&
        m.windowStart % (m.window * ms) == 0 && decide (m.windowStart + m.window * ms ≤ windowed.tb))) = true ∧
      ready wmeterReadCommand (ask []) held = true ∧ (held.taken wmeterReadCommand (ask [])).perf.meters.length = 16 := by
  decide +kernel

/-! ## Witnesses: keys, images, power -/

/-- Slot 0 holds a parent key, slot 1 its child; the parameters name them for attestation and updates. -/
def parentKey : KeyRecord := { type := 3, attrs := 0x1F0F, gen := 1, disabled := false, key := zeros 32, parent := none }
def childKey : KeyRecord := { parentKey with parent := some (0, 1) }
def locked : State :=
  { held with ks.slots := lmod (lmod held.ks.slots 0 (fun k => { k with rec_ := parentKey })) 1 (fun k => { k with rec_ := childKey })
              par.vals := [(0x9002 * 65536, .num 0), (0x9003 * 65536, .num 0)] }
def writing (i : Nat) : List Byte := u8 i ++ u8 1 ++ u16 0 ++ u32 0x0F01 ++ zeros 16
def deriving_ (parent i : Nat) : List Byte := u8 parent ++ u8 i ++ u8 1 ++ u8 1 ++ u32 0x0F01 ++ zeros 4 ++ [0x41#8]

theorem witness_KeysAreWrittenErasedDisabledDerived :
    ready keyWriteCommand (tell (writing 63)) locked = true ∧
      (locked.taken keyWriteCommand (tell [])).writerCheck (tell []) 5 0x0F01 = none ∧
      (locked.taken keyWriteCommand (tell [])).keyBusy (tell []) = false ∧ keyLength 1 ≠ 0 ∧ attrsOk 1 0x0F01 = true ∧
      (locked.taken keyWriteCommand (tell [])).childrenOf 5 = [] ∧
      (locked.taken keyWriteCommand (tell [])).childrenOf 0 = [1] ∧
      ({ locked with pwr.state := .lastGasp }.taken keyWriteCommand (tell (writing 5))).pwr.state = .lastGasp ∧
      ready keyWriteCommand (tell (writing 5)) { locked with pwr.state := .lastGasp } = true ∧
      ready keyEraseCommand (tell (u8 0 ++ u8 1 ++ u16 0)) locked = true ∧
      (locked.taken keyEraseCommand (tell [])).writerCheck (tell []) 0 0 = none ∧
      ready keyDisableCommand (tell (u8 0 ++ u8 1 ++ u16 0)) locked = true ∧
      ((locked.taken keyDisableCommand (tell [])).slot 0).rec_.type ≠ 0 ∧
      ready keyDeriveCommand (tell (deriving_ 0 5)) locked = true ∧ 0 < (locked.taken keyDeriveCommand (tell [])).slotsFitted ∧
      (locked.taken keyDeriveCommand (tell [])).slotState 0 = 1 ∧ hasBit parentKey.attrs 12 = true ∧
      hasBit parentKey.attrs (8 + (locked.taken keyDeriveCommand (tell [])).ks.lifecycle) = true ∧
      ((deriving_ 0 5).drop 13).length ≤ 32 ∧ (slice (deriving_ 0 5) 12 1).all (fun b => b.toNat < 0x80) = true ∧
      ([0, 1, 2, 3] : List Nat).any (fun b => hasBit 0x0F01 b && !hasBit parentKey.attrs b) = false ∧
      ((locked.taken keyDeriveCommand (tell [])).ancestry 64 0).contains 5 = false ∧
      ((locked.taken keyDeriveCommand (tell [])).ancestry 64 0).length < 4 ∧ 5 < locked.ks.slots.length ∧
      ready keyStatusCommand (tell []) locked = true ∧ ready attestCommand (ask (zeros 32)) locked = true ∧
      (locked.taken attestCommand (ask [])).keyUsable ((locked.taken attestCommand (ask [])).num 0x9002) 3 = true ∧
      ((locked.taken attestCommand (ask [])).ks.attests.filter (fun t => decide (
        (locked.taken attestCommand (ask [])).clk.mono < t + sec))).length < (locked.taken attestCommand (ask [])).num 0x9005 := by
  decide +kernel

def staged (n : Nat) : State := { locked with ks.lifecycle := n }
def moving (n magic : Nat) : List Byte := u8 n ++ u8 0 ++ u16 magic

theorem witness_LifeCycleSetFollowsItsTable :
    ready lifecycleSetCommand (tell (moving 0 0)) locked = true ∧ (locked.taken lifecycleSetCommand (tell [])).ks.lifecycle = 0 ∧
      ready lifecycleSetCommand (tell (moving 1 0)) locked = true ∧
      (locked.taken lifecycleSetCommand (tell [])).slotState ((locked.taken lifecycleSetCommand (tell [])).num 0x9002) = 1 ∧
      ready lifecycleSetCommand (tell (moving 2 0)) (staged 1) = true ∧
      ((staged 1).taken lifecycleSetCommand (tell [])).slotState (((staged 1).taken lifecycleSetCommand (tell [])).num 0x9003) = 1 ∧
      ready lifecycleSetCommand (tell (moving 1 0)) (staged 2) = true ∧
      ready lifecycleSetCommand (tell (moving 3 0x5245)) (staged 2) = true ∧
      ready lifecycleSetCommand (tell (moving 3 0)) (staged 3) = true ∧ locked.slotsFitted ≤ locked.ks.slots.length ∧
      (locked.slot 0).rec_.type ≠ 0 ∧ hasBit (locked.slot 0).rec_.attrs 11 = true ∧
      hasBit ({ parentKey with attrs := 0x170F }).attrs 11 = false ∧ (held.begin 0).running = true := by decide +kernel

/-- A node image accepted, firmware in the inactive slot, and a file's header. -/
def header (kind id len : Nat) : List Byte :=
  u32 0x4D494B56 ++ u8 1 ++ u8 kind ++ u16 0 ++ u32 id ++ zeros 8 ++ u32 len ++ zeros 4 ++ u8 3 ++ zeros 163
def image (kind id : Nat) : Image := { header := header kind id 4, payload := zeros 4, accepted := true }
def stocked : State :=
  { held with up.images := [image 1 11]
              up.slots := lset held.up.slots 1 { state := 1, image := image 0 12 }
              up.arms := [(2, { imageId := 13, instant := 5 * sec, immediate := false, pending := true, rollback := false })] }
def arming (kind flags id : Nat) (instant : Ns) : List Byte := u8 kind ++ u8 flags ++ u16 0 ++ u32 id ++ u64 instant

theorem witness_UpdateCommandsArmDisarmAndErase :
    ready updateArmCommand (ask (arming 1 0 11 (9000 * sec))) stocked = true ∧
      (stocked.taken updateArmCommand (ask [])).armVerdict 0 1 0 11 (9000 * sec) false = .armed (9000 * sec) false ∧
      (stocked.taken updateArmCommand (ask [])).armVerdict 0 1 0 11 1 false = .refused stTooLate ∧
      ready updateArmCommand (ask (arming 1 0 11 1)) stocked = true ∧
      ready chainArmCommand (call (arming 1 0 99 (9000 * sec))) stocked = true ∧
      (stocked.taken chainArmCommand (call [])).armVerdict 0 1 0 99 (9000 * sec) true = .armed (9000 * sec) true ∧
      (stocked.taken chainArmCommand (call [])).armVerdict 0 1 0 99 1 true = .refused stTooLate ∧
      ready updateDisarmCommand (ask (u8 2 ++ zeros 3)) stocked = true ∧
      (tget (stocked.taken updateDisarmCommand (ask [])).up.arms 2).isSome = true ∧
      tget (stocked.taken updateDisarmCommand (ask [])).up.arms 3 = none ∧
      ready updateRollbackCommand (ask (u8 0 ++ u8 0 ++ u16 0 ++ u64 (9000 * sec))) stocked = true ∧
      (stocked.taken updateRollbackCommand (ask [])).inactive.state = 1 ∧
      (stocked.taken updateRollbackCommand (ask [])).num 0x9880 0 ≤
        (stocked.taken updateRollbackCommand (ask [])).inactive.image.epoch ∧
      (stocked.taken updateRollbackCommand (ask [])).armVerdict 0 0 0 12 (9000 * sec) false = .armed (9000 * sec) false ∧
      ready imageEraseCommand (ask (u32 99)) stocked = true ∧ ready imageEraseCommand (ask (u32 11)) stocked = true ∧
      (stocked.taken imageEraseCommand (ask [])).imageStates.filter (fun e => e.1.id == 99) = [] ∧
      ((stocked.taken imageEraseCommand (ask [])).imageStates.filter (fun e => e.1.id == 11)).isEmpty = false ∧
      ((stocked.taken imageEraseCommand (ask [])).imageStates.filter (fun e => e.1.id == 11)).any (fun e =>
        e.2 == 2 || e.2 == 3 || (stocked.taken imageEraseCommand (ask [])).imageLoaded e.1) = false ∧
      (stocked.taken imageEraseCommand (ask [])).up.arms.any (fun e => e.2.imageId == 11) = false := by decide +kernel

/-- A card with one file, read for the host. -/
def cardFile : ImageFile := { header := header 1 14 4, payload := zeros 4 }
def allowed : State := { stocked with par.vals := [(0x9804 * 65536, .num 1)] }

theorem witness_offers_and_cards :
    ready chainOfferCommand (call (header 1 11 4)) stocked = true ∧
      ((stocked.taken chainOfferCommand (call [])).offerVerdict (header 1 11 4)).1 = .held ∧
      ((stocked.taken chainOfferCommand (call [])).offerVerdict (header 1 11 5)).1 = .refused ∧
      (({ stocked with up.receipt := some default }.taken chainOfferCommand (call [])).offerVerdict (header 1 14 4)).1 = .busy ∧
      ((stocked.taken chainOfferCommand (call [])).offerVerdict (header 6 14 4)).1 = .failed 1 ∧
      ready chainFetchCommand (call (u32 11 ++ u32 0 ++ u16 4 ++ u16 0)) stocked = true ∧
      (stocked.taken chainFetchCommand (call [])).held.find? (fun i => i.id == 11) = some (image 1 11) ∧
      ready (sdScanCommand []) (ask []) allowed = true ∧ (allowed.taken (sdScanCommand []) (ask [])).cardAllowed = true ∧
      (allowed.taken (sdScanCommand []) (ask [])).up.card = none ∧ (allowed.taken (sdScanCommand []) (ask [])).fromCard = false ∧
      ready (sdScanCommand [cardFile]) (ask []) allowed = true ∧
      (allowed.cardRun (CardRead.start [{ cardFile with header := header 6 14 4 }] none) [{ cardFile with header := header 6 14 4 }]).1.left = [] ∧
      (allowed.cardRun (CardRead.start [{ cardFile with header := header 6 14 4 }] none) [{ cardFile with header := header 6 14 4 }]).2.fromCard = false ∧
      ({ allowed with up.receipt := some default }.cardRun (CardRead.start [cardFile] none) [cardFile]).1.left ≠ [] ∧ ready imageListCommand (ask []) stocked = true ∧
      ready updateStatusCommand (ask []) stocked = true := by decide +kernel

/-- An image whole and one short, received from a peer; a card being read; a trial since the last start. -/
def receiving (len : Nat) : State := later { held with
  up.receipt := some { image := { header := header 1 15 len, payload := zeros 4, accepted := false }, from_ := some peer, lastFetch := 0
                       stoppedAt := none }
  up.arms := [(0, { imageId := 12, instant := 5 * sec, immediate := false, pending := false, rollback := false }),
              (2, { imageId := 13, instant := 5 * sec, immediate := false, pending := true, rollback := false })]
  up.trialSince := some 0 }
def carded : State := { allowed with
  up.card := some { left := [], files := 1, accepted := 0, failed := false, waiter := none }
  up.receipt := some { image := image 1 15, from_ := none, lastFetch := 0, stoppedAt := none } }

theorem witness_UpdatesAreReceivedSwitchedAndTried :
    (held.begin 0).up.receipt = none ∧ (((receiving 4).begin 0).up.receipt.all (fun x => x.from_.isSome && x.image.complete)) = true ∧
      (((receiving 9).begin 0).up.receipt.all (fun x => x.from_.isSome && !x.image.complete)) = true ∧
      ((receiving 9).begin 0).up.receipt.isSome = true ∧ ((receiving 4).begin 0).up.receipt.isSome = true ∧
      0 + 60 * sec ≤ ((receiving 9).begin 0).clk.mono ∧
      ((tget ((receiving 9).begin 0).up.arms 2).all (fun x => x.pending)) = true ∧
      5 * sec ≤ ((receiving 9).begin 0).tb ∧ ((receiving 9).begin 0).switchAt = some (5 * sec) ∧ (held.begin 0).switchAt = none ∧
      ((receiving 9).begin 0).up.trialSince = some 0 ∧
      0 + ((receiving 9).begin 0).num 0x9806 * sec ≤ ((receiving 9).begin 0).clk.mono ∧ (allowed.begin 0).cardAllowed = true ∧
      (held.begin 0).cardAllowed = false ∧ (held.begin 0).up.card = none ∧
      ((carded.begin 0).up.card.all (fun c => c.waiter.isNone)) = true ∧
      (carded.begin 0).up.card.isSome = true ∧ ((carded.begin 0).up.receipt.all (fun x => x.from_.isNone)) = true ∧
      ({ receiving 9 with up.ranSince := false }.begin 0).up.ranSince = false ∧
      (held.begin 0).up.trialSince = none := by decide +kernel

/-- The digest of an image of no bytes (FIPS 180-4), and an image that has it. -/
theorem test_sha256_of_nothing : sha256 [] = be 32 0xe3b0c44298fc1c149afbf4c8996fb92427ae41e4649b934ca495991b7852b855 := by
  decide +kernel

def resting (p : Power) : State := { later held with pwr.state := p, pwr.holdByCommand := true }
def quietly : State := { later held with par.vals := [(0xA021 * 65536, .num 1)], link.sessions := [], pwr.idleSince := some 0 }

theorem witness_PowerStatesFollowTheSupplies :
    ready powerHoldCommand (ask (u16 0x484C ++ u16 0)) held = true ∧
      (held.taken powerHoldCommand (ask [])).pwr.state ≠ .lastGasp ∧
      ready powerHoldCommand (ask (zeros 4)) held = true ∧
      ready powerHoldCommand (ask (u16 0x484C ++ u16 0)) { held with pwr.state := .lastGasp } = true ∧
      ready powerStatusCommand (ask []) held = true ∧
      (resting .lastGasp).pwr.lastGaspSince + 500 * ms ≤ (resting .lastGasp).clk.mono ∧
      held.powered = true ∧ held.pwr.slowLost = false ∧ (held.begin 0).awake = true ∧ ((resting .hold).begin 0).awake = false ∧
      ({ resting .hold with pwr.vinLost := false }.begin 0).pwr.vinLost = false ∧ (resting .hold).pwr.holdByCommand = true ∧
      ((resting .off).begin 0).powered = false ∧
      ({ held with up.trialSince := some 0, up.trialWatchdogs := 0 }.begin 0).up.trialWatchdogs = 0 ∧
      (held.begin 0).pwr.state ≠ .hold ∧ ((resting .hold).begin 0).pwr.state = .hold ∧
      ({ resting .hold with pwr.vinMv := 3000 }.begin 0).pwr.vinMv < 4000 ∧ 4000 ≤ (held.begin 0).pwr.vinMv ∧
      ({ resting .hold with pwr.vinLost := true }.begin 0).pwr.vinLost = true ∧
      ({ held with pwr.state := .lastGasp }.begin 0).pwr.state = .lastGasp ∧ (held.begin 0).up.trialSince = none ∧
      ({ held with up.trialSince := some 0, up.trialWatchdogs := 1 }.begin 0).up.trialSince ≠ none ∧
      (quietly.begin 0).running = true ∧ (quietly.begin 0).pwr.state = .run ∧ (quietly.begin 0).quietDue = true ∧
      ({ held with pwr.state := .quiet }.begin 0).quietDue = false := by decide +kernel

/-- What a start finds where nothing fails. -/
def found : StartReport :=
  { engineFails := [], cellFails := [], badKeyRecords := [], abandonedWrites := [], badStoreCopies := [], badFirmwareCopies := []
    modeA := 0, modeB := 0, radioFails := [], badMeterSlots := [], badRecords := [], runs := true }

theorem witness_TwoCausesTakeTheLowestCode :
    held.pwr.pendingStart = none ∧ ({ held with pwr.pendingStart := some 6 }.begin 0).pwr.pendingStart = some 6 ∧
      4550 ≤ (held.begin 0).pwr.vinMv ∧ found.runs = true ∧ { found with runs := false }.runs = false := by decide +kernel

/-- A Friday's time, set two slow edges ago; a clock compared long ago, with network time valid. -/
def friday : List Byte := [0x00#8, 0x30#8, 0x12#8, 0x05#8, 0x01#8, 0x03#8, 0x24#8, 0x00#8]
def set_ : RtcSetReq := { value := friday.take 7, at_ := 0, waiters := [], class_ := 0 }
def clockSet : State := later { held with rtc.set := some set_ }
def clocked : State := later { held with
  clk.mono := 2000 * sec, ptp.state := .holdover, ptp.holdoverSince := 2000 * sec, rtc.valid := true }
def waking : State := { resting .hold with par.vals := [(0xA012 * 65536, .num 1), (0xA013 * 65536, .num 1)], rtc.secondAt := later held |>.clk.mono, rtc.seconds := 86400 }

theorem witness_TheClockRunsIsSetAndDisciplined :
    ready rtcGetCommand (ask []) held = true ∧ ready rtcSetCommand (ask friday) held = true ∧
      (rtcParse (friday.take 7)).isSome = true ∧
      ((rtcParse (friday.take 7)).all (fun v => rtcEpoch ≤ (v.1 : Int))) = true ∧
      (held.taken rtcSetCommand (ask friday)).timeValid = false ∧ ready rtcSetCommand (ask (zeros 8)) held = true ∧
      rtcParse (zeros 7) = none ∧
      ({ held with ptp.state := .holdover, ptp.holdoverSince := held.clk.mono }.taken rtcSetCommand (ask friday)).timeValid = true ∧
      ((clockSet.begin 0).clk.mono < ({ set_ with at_ := 9000 * sec }).at_) ∧ (clockSet.begin 0).pwr.slowLost = false ∧
      (clockSet.begin 0).rtc.secondAt + sec - ms ≤ (clockSet.begin 0).clk.mono ∧ (clockSet.begin 0).rtc.set = some set_ ∧
      set_.at_ ≤ (clockSet.begin 0).clk.mono ∧ (held.begin 0).rtc.set = none ∧ (held.begin 0).rtc.load = false ∧
      (clocked.begin 0).timeValid = true ∧ (clocked.begin 0).rtc.lastCompare + 1024 * sec ≤ (clocked.begin 0).clk.mono ∧
      (clocked.begin 0).rtc.valid = true ∧ 100 * ms ≤ ((clocked.begin 0).rtcUtc - (clocked.begin 0).utcNs).natAbs ∧
      ({ clocked with rtc.load := true }.begin 0).rtc.load = true ∧
      (held.begin 0).pwr.opSecondAt + sec ≤ ((later held).begin 0).clk.mono ∧
      (held.begin 0).clk.mono < (held.begin 0).pwr.opSecondAt + sec ∧ (held.begin 0).wakeDue = false ∧
      (waking.begin 0).wakeDue = true ∧ ({ waking with pwr.state := .run }.begin 0).awake = true ∧
      (waking.begin 0).pwr.state = .hold ∧ ((waking.begin 0).slowValue 0xA013).int ≠ 0 ∧
      held.rtc.seconds + 1 ≠ rtcWrap := by decide +kernel

/-- Steps that answer a next state, over an idle block and over one command. -/
theorem witness_steps_answer :
    step State.reset = .next State.reset ∧
      (match step { held with pending := [.rtcGet (ask [])] } with | .next t => t.pending.isEmpty | _ => false) = true :=
  ⟨rfl, by decide +kernel⟩

/-! ## Worked examples of the spec -/

/-- The check value of CRC-32C that chapter 2 gives for "123456789". -/
theorem test_crc_check_value : crc32c ((List.range 9).map (fun i => BitVec.ofNat 8 (0x31 + i))) = 0xE3069283 := by decide +kernel

/-- COBS frames worked by hand: 11 22 00 33 goes out as 03 11 22 02 33 and the delimiter, and comes back; a zero inside a frame is none. -/
theorem test_cobs :
    cobsFrame [0x11#8, 0x22#8, 0#8, 0x33#8] = [3#8, 0x11#8, 0x22#8, 2#8, 0x33#8, 0#8] ∧
      cobsDecode 5 [3#8, 0x11#8, 0x22#8, 2#8, 0x33#8] = some [0x11#8, 0x22#8, 0#8, 0x33#8] ∧
      cobsFrame [] = [1#8, 0#8] ∧ cobsDecode 1 [1#8] = some [] ∧ cobsDecode 2 [3#8, 0#8] = none := by decide +kernel

/-- The PARAM_SET of chapter 3: 44 bytes naming 3 parameters; on a VKM-16C circuit 29 is answered ABSENT. -/
def tannery : List Byte :=
  u16 3 ++ u16 0 ++ (u16 0x2001 ++ u16 4 ++ u32 921600) ++
  (u16 0x1011 ++ u16 14 ++ ([0x54, 0x41, 0x4E, 0x4E, 0x45, 0x52, 0x59, 0x2D, 0x52, 0x4F, 0x57, 0x2D, 0x30, 0x37] : List Nat).map
    (BitVec.ofNat 8) ++ zeros 2) ++ (u16 0x1081 ++ u16 6 ++ u16 29 ++ u16 2 ++ [1#8, 1#8] ++ zeros 2)

def statusOf (x : Host.Outcome State Fault Refusal) (ep : Endpoint) (l : Nat) : Option Nat :=
  match x with
  | .next t => (t.lane ep l).cached.map Prod.fst
  | _ => none

theorem test_param_set_example :
    tannery.length = 44 ∧ statusOf (exec (.paramSet (ask tannery)) held) .host 1 = some stOk ∧
      statusOf (exec (.paramSet (ask tannery)) { held with id.order := .vkm16C }) .host 1 = some stAbsent := by decide +kernel

/-- Lantern 118 of Table 4.12: its type, its record, and the drive codes of steps 2, 3 and 4. -/
def type3 : LampType :=
  { type := 3, channels := 2, crossover := 2000, droop := 1000, dMin := 800, diagMs := 100, knee := 0, slope := 0 }
def lantern : Lamp := { point := point, section_ := 14, type := 3, flux0 := 10400, flux1 := 9600, cct0 := 2700, cct1 := 4000 }
def at_ (celsius : Int) : State :=
  { held with plan.temps := [(pointKey point, { (default : TempReport) with celsius := celsius, at_ := sec })] }

theorem test_lantern_118 :
    (held.lampModel lantern type3 1500 3000).code = ⟨2000, 4623, 2000, 2226⟩ ∧
      ((at_ 81).lampModel lantern type3 6000 3000).code = ⟨3759, 10000, 2000, 8903⟩ ∧
      ((at_ 95).lampModel lantern type3 10000 3000).code = ⟨6000, 10000, 2803, 10000⟩ ∧
      ((at_ 95).lampModel lantern type3 10000 3000).derated = true ∧
      ((at_ 95).lampModel lantern type3 10000 3000).level = 9374 := by decide +kernel

/-- The leak on Ferrin Bridge (Tables 9.9 and 9.10): spans, voltages, and the result of the fit. -/
def bridge (k : Nat) : Pid := mkPid State.reset.ownPrefix 30 k
def bridged : State :=
  { held with
    mt.spans := (List.range 6).map (fun k => (pointKey (bridge k),
      { point := bridge k, upstream := if k = 0 then mkPid State.reset.ownPrefix 63 255 else bridge (k - 1), rLoop := if k = 0 then 1100 else 280 }))
    plan.lamps := (List.range 6).map (fun k => (pointKey (bridge k), { lamp with point := bridge k, section_ := 22 }))
    prom.places := (List.range 6).map (fun k => (pointKey (bridge k), 1500 + 3000 * k)) }
def bridgeWindow : List PointWindow :=
  ([22927, 22879, 22838, 22804, 22785, 22778] : List Nat).zipIdx.map (fun e =>
    { point := bridge e.2, energy := 13701, volts := (e.1 : Rat) / 100, amps := (24 : Rat) / 100 })

theorem test_ferrin_bridge :
    bridged.mt.cableLoss 30 bridgeWindow (900 * sec) = 792000 ∧
      (let x := (bridged.localise 30 bridgeWindow ((23140 : Rat) / 100) 1 .none_).1
       [x.upstream.toNat, x.downstream.toNat, x.fraction, x.iX, x.fit, x.position] =
         [(bridge 3).toNat, (bridge 4).toNat, 4077, 500, 2, 11723]) := by
  decide +kernel

/-- 2030-11-14 is a Thursday (Table 4.12), and 2020-01-02 begins 86,400 s after the epoch (chapter 0). -/
theorem test_dates :
    weekdayOf (dayNumber { year := 2030, month := 11, day := 14 }) = 3 ∧ dayNumber { year := 2020, month := 1, day := 2 } = 1 ∧
      dateOf (dayNumber { year := 2030, month := 11, day := 14 }) = { year := 2030, month := 11, day := 14 } := by decide +kernel

/-! ## One step each -/

/-- The field of the state after a command, where it answers one. -/
def after {α : Type} (x : Host.Outcome State Fault Refusal) (f : State → α) : Option α :=
  match x with
  | .next t => some (f t)
  | _ => none

/-- IDENTIFY answers OK; a command at the front of the queue is taken, and the rest waits. -/
theorem test_identify : statusOf (exec (.identify (ask [])) held) .host 1 = some stOk ∧
    after (step { held with pending := [.identify (ask []), .shuffle 0 []] }) State.pending = some [.shuffle 0 []] := by decide +kernel

/-- A Holder command from a session without the claim is answered NOT_HOLDER (Table 2.5). -/
theorem test_not_holder : statusOf (exec (.paramGet (ask (u16 1 ++ u16 0 ++
    u16 0x1011))) State.reset) .host 1 = some stNotHolder := by
  decide +kernel

/-- A supply beyond Table 17.6 faults; one within it does not. -/
theorem test_absolute_maximum : exec (.vpaChange 0 6501) held = .fault .absoluteMaximum ∧
    after (exec (.vpaChange 0 6500) held) (fun t => t.pwr.vpaMv) = some 6500 := ⟨rfl, by decide +kernel⟩

/-- VIN below 4.40 V puts the module into LAST-GASP, which stands in HOLD half a second later (R576, R577). -/
theorem test_last_gasp : after (exec (.lastGaspEntry 0 4300) held) (fun t => t.pwr.state) = some .lastGasp ∧
    after (exec (.doorChange (500 * ms) true) { held with pwr.state := .lastGasp, pwr.lastGaspSince := held.clk.mono })
      (fun t => t.pwr.state) = some .hold := by decide +kernel

/-- Without a watchdog cause the start after VIN returns is of kind 7 (R578), and a brown-out's is kind 1. -/
theorem test_start_kinds : after (exec (.brownOut 0 3900) held) (fun t => t.pwr.pendingStart) = some (some 1) ∧
    after (exec (.nreset 0 (10 * us)) held) (fun t => t.pwr.pendingStart) = some (some 2) ∧
    after (exec (.watchdog 0) held) (fun t => t.pwr.pendingStart) = some (some 3) := by decide +kernel

/-! ## Ill-formed operands, one for each check -/

def transaction (i : Byte) (mhz : Nat) : HlTx := { instr := i, addr := 0#16, sckMHz := mhz }
def cycle : CycleData :=
  { length := 20000000, sync := true, first := 0, volts := List.replicate 160 0, currents := [⟨0, List.replicate 160 0⟩], calFails := [] }
def served : ItemOutcome :=
  { state := some (zeros 64), endFlow := false, pushes := [⟨0x20, 0, zeros 56⟩], pops := [], alarm := none, ops := 0, perfReads := []
    badAccess := false, node := 0, errors := [] }

theorem test_well_formed :
    (Instr.identify (ask [])).wf ∧ (Instr.pop 0 (transaction 0x02#8 80)).wf ∧ (Instr.itemComplete 0 15 served).wf ∧
      (Instr.meterCycleEnd 0 2 cycle).wf ∧ (Instr.uplinkFrame 0 3 (uplink 7)).wf ∧ (Instr.ringFrameReceive 0 .A frame).wf ∧
      (Instr.linkChange 0 .A (info 3)).wf ∧ (Instr.start 0 found).wf ∧
      (Instr.shuffle 0 [zeros 16, zeros 32]).wf := by decide +kernel

theorem test_ill_formed :
    ¬ (Instr.identify (ask (zeros 1473))).wf ∧ ¬ (Instr.pop 0 (transaction 0x03#8 80)).wf ∧
      ¬ (Instr.pop 0 (transaction 0x02#8 81)).wf ∧
      ¬ (Instr.peerResponse (ask []) 65536 0).wf ∧ ¬ (Instr.finalResponse 0 .host 8#8).wf ∧
      ¬ (Instr.hlCmdApertureWrite 0 (transaction 0x02#8 80) (zeros 257)).wf ∧
      ¬ (Instr.hlRspApertureRead 0 (transaction 0x0B#8 80) 257).wf ∧
      ¬ (Instr.registerWrite 0 (transaction 0x02#8 80) [0#32] 33).wf ∧
      ¬ (Instr.itemDispatch 0 16 []).wf ∧ ¬ (Instr.itemComplete 0 15 { served with pushes := [⟨256, 0, zeros 56⟩] }).wf ∧
      ¬ (Instr.itemComplete 0 15 { served with state := some (zeros 63) }).wf ∧ ¬ (Instr.flowStateError 0 8 0 ⟨.state, true⟩).wf ∧
      ¬ (Instr.dispatchBoundary 0 8).wf ∧ ¬ (Instr.queueLevelSecondEnd 0 256).wf ∧ ¬ (Instr.peerResend 0 peer 0#8).wf ∧
      ¬ (Instr.circuitDemandDue 0 48).wf ∧ ¬ (Instr.diagDue 0 point 2).wf ∧ ¬ (Instr.uplinkFrame 0 4 (uplink 7)).wf ∧
      ¬ (Instr.uplinkFrame 0 0 { uplink 7 with level := 8 }).wf ∧ ¬ (Instr.beaconCell 0 4 ⟨false, []⟩).wf ∧
      ¬ (Instr.keyRoll 0 (zeros 15)).wf ∧
      ¬ (Instr.activationBroadcast 0 6).wf ∧ ¬ (Instr.meterCycleEnd 0 3 cycle).wf ∧
      ¬ (Instr.meterCycleEnd 0 0 { cycle with volts := [] }).wf ∧
      ¬ (Instr.halfCycleWindow 0 [⟨10000000, 0, []⟩]).wf ∧ ¬ (Instr.frequencyInterval 0 3).wf ∧ ¬ (Instr.calibrationStart 0 51).wf ∧
      ¬ (Instr.recWaitExpiry 0 48).wf ∧ ¬ (Instr.chainCycle 0 (List.replicate 9 0)).wf ∧
      ¬ (Instr.ringFrameReceive 0 .A { frame with lsdu := zeros 1501 }).wf ∧ ¬ (Instr.linkChange 0 .A (info 4)).wf ∧
      ¬ (Instr.packageFailure 0 2).wf ∧ ¬ (Instr.perfSample 0 64 ⟨0, 0, 0, 0, 0⟩).wf ∧ ¬ (Instr.windowMeterBoundary 0 16).wf ∧
      ¬ (Instr.shuffle 0 [zeros 17]).wf ∧ ¬ (Instr.armMissed 0 6).wf ∧ ¬ (Instr.start 0 { found with modeA := 4 }).wf ∧
      ¬ (Instr.unsupportedOpcode 0 .host (zeros 1511)).wf := by decide +kernel

end Sys2Proof.Tests
end

/-! ## The scope of the block (spec chapter 0): identity, health, and the messages that no row names -/

namespace Sys2Proof.Machine

/-! ### Fields -/

@[simp] theorem fld_u8 (v : Nat) : fld (u8 v) 0 1 = v % 256 := fld_le 1 v

@[simp] theorem fld_u64 (v : Nat) : fld (u64 v) 0 8 = v % 2 ^ 64 := fld_le 8 v

/-! ### Identity (Table 2.9) -/

section

variable (s : State)

@[simp] theorem State.identity_length : s.identity.length = 44 := by
  simp [State.identity]

theorem State.identity_orderCode : fld s.identity 0 1 = if s.is16C then 2 else 1 := by
  simp only [State.identity, List.append_assoc]
  rw [fld_append_left _ _ (by simp), fld_u8]
  split <;> rfl

theorem State.identity_release : fld s.identity 1 1 = 3 ∧ fld s.identity 2 1 = 1 := by
  simp [State.identity, fld_append_left, fld_append_right]

theorem State.identity_serial : fld s.identity 8 8 = s.id.serial % 2 ^ 64 := by
  simp [State.identity, fld_append_left, fld_append_right]

theorem State.identity_stamp : fld s.identity 36 8 = s.now % 2 ^ 64 := by
  simp [State.identity, fld_append_right]

end

/-! ### Requests that reach their lane -/

section

variable {c : Command} {r : Req} {s : State}

/-- A request that its lane accepts, with the command's layout, comes to the class and Holder checks (R66, R621). -/
theorem shotas_accepted (hears : (s.begin r.dt).hears r.src = true) (request : r.flags.getLsbD 0 = false)
    (header : c.headerOk r = true) (room : (s.begin r.dt).noRoom r.src.endpoint = false)
    (accepted : ((((s.begin r.dt).countRetry r).sessionHears r).lane r.src.endpoint r.lane.toNat).verdict c.opcode r = .accept)
    (layout : c.layout r.payload = true) :
    ∃ before, shotas c r s = .next ((s.taken c r).accept c r before).settle := by
  refine ⟨(((s.begin r.dt).countRetry r).sessionHears r).lane r.src.endpoint r.lane.toNat, ?_⟩
  simp only [shotas, State.request, State.onLane, hears, request, header, room, accepted, layout, Bool.not_true,
    Bool.false_and, Bool.false_eq_true, if_false]
  rfl

/-- A final status that is kept for a resend is, but for reports, the lane's answer. -/
theorem conclude_reports (s u : State) (before : Lane) {st : Nat} (p : List Byte) (hst : statusCached st = true) :
    Reports (u.answered r st p) (s.conclude c r before (.done st p u)) := by
  simp only [State.conclude, hst, if_true, Reports, respond_bare, State.answered]

/-- A class or Holder check that fails answers its status, and changes nothing else; a refusal of the peer ring's commands is
counted besides (R56), and is not meant here. -/
theorem accept_refused (before : Lane) {st : Nat} (hpeer : c.access ≠ .peer) (hst : statusCached st = true)
    (refused : s.accessCheck c r = some st) : Reports (s.answered r st []) (s.accept c r before) := by
  simp only [State.accept, refused, hpeer, false_and, if_false, fail]
  exact conclude_reports _ _ _ _ hst

/-- An opcode that the release does not implement fails the first check after its lane (R8, R66). -/
@[simp] theorem accessCheck_unsupported (s : State) (op : Nat) (r : Req) :
    s.accessCheck (unsupportedCommand op) r = some stUnsupported := rfl

end

/-! ### Messages as bytes -/

section

variable {s : State} {f m : List Byte}

@[simp] theorem messageOf_uart (m : List Byte) : messageOf .uart m = m := rfl

@[simp] theorem messageOf_host (m : List Byte) : messageOf .host m = m := rfl

@[simp] theorem framed_host (m : List Byte) : framed .host m = some m := rfl

@[simp] theorem unframed_host (m : List Byte) : unframed .host m = false := rfl

/-- A COBS frame is discarded as a frame exactly for the length of its message (R49). -/
theorem unframed_uart (h : framed .uart f = some m) : unframed .uart f = decide (1500 < m.length) := by
  simp [unframed, h]

/-- A UART message whose CRC fails is discarded and counted (R52). -/
theorem receive_uart_badCrc (hears : s.hears .uart = true) (hf : framed .uart f = some m) (hlen : m.length ≤ 1500)
    (hcrc : crcValid m = false) :
    s.receive .uart f = { s with link.counts.crcDiscards := s.link.counts.crcDiscards + 1 } := by
  have short : ¬ 1500 < m.length := Nat.not_lt.mpr hlen
  simp [State.receive, hears, unframed_uart hf, short, hf, hcrc, State.crcDiscard]

/-- A UART frame of a message longer than 1,500 bytes is discarded and counted (R49). -/
theorem receive_uart_tooLong (hears : s.hears .uart = true) (hf : framed .uart f = some m) (hlen : 1500 < m.length) :
    s.receive .uart f = { s with link.counts.uartDiscards := s.link.counts.uartDiscards + 1 } := by
  simp [State.receive, hears, unframed_uart hf, hlen]

/-- An opcode outside Table 2.7 has no command. -/
theorem commandOf_eq_none {op : Nat} (hsd : op ≠ 0x9807) (hcat : catalogue.find? (fun c => c.opcode == op) = none) :
    s.commandOf op = none := by
  rw [State.commandOf, if_neg hsd, hcat]

/-- A good request of the host whose opcode has no command is a request of the command of no effect (R8). -/
theorem receive_host_noCommand (hears : s.hears .host = true) (hcrc : crcValid m = true) (hhead : headerOk m = true)
    (hdir : (requestOf .host m).flags.getLsbD 0 = false) (hack : fld m 8 2 ≠ 0x2006) (hnone : s.commandOf (fld m 8 2) = none) :
    s.receive .host m = s.request (unsupportedCommand (fld m 8 2)) (requestOf .host m) := by
  simp only [State.receive, framed_host, Option.getD_some, messageOf_host, unframed_host, hears, hcrc, hhead, hdir, hack,
    hnone, Option.getD_none, Bool.not_true, Bool.false_eq_true, if_false]

/-- UNSUPPORTED_OPCODE leaves what receiving its message leaves. -/
theorem unsupportedOpcode_leads (dt : Ns) (src : Source) (m : List Byte) (s : State) :
    Leads (.unsupportedOpcode dt src m) s ((s.begin dt).receive src m) := ⟨_, rfl, reports_settle _⟩

/-- HL_BUFFER_TAKEN leaves what receiving the buffer handed over leaves, and no buffer (R114). -/
theorem hlBufferTaken_leads {dt : Ns} {b : List Byte} (running : (s.begin dt).running = true)
    (handed : (s.begin dt).hl.handed = some b) :
    Leads (.hlBufferTaken dt) s ({ s.begin dt with hl.handed := none }.receive .host b) := by
  have taken : execHlBufferTaken dt s = .next ({ s.begin dt with hl.handed := none }.receive .host b).settle := by
    simp only [execHlBufferTaken, event, running, handed, if_true]
  exact ⟨_, taken, reports_settle _⟩

end

/-! ### The statements -/

/-- IDENTIFY answers from the state it is taken up in. -/
theorem identify_answers {r : Req} {s : State} (h : Ready identifyCommand r s) :
    Answers (.identify r) r s (s.taken identifyCommand r).identity (s.taken identifyCommand r) := shotas_ok h rfl

/-- HEALTH reports what is due before it reads, and leaves nothing but those reports (R41). -/
theorem health_answers {r : Req} {s : State} (h : Ready healthCommand r s) :
    Answers (.health r) r s (s.taken healthCommand r).settle.healthReport (s.taken healthCommand r) := by
  obtain ⟨t, ht, hr⟩ := shotas_ok h (u := (s.taken healthCommand r).settle) rfl
  exact ⟨t, ht, ((reports_settle _).answered r stOk _).trans hr⟩

/-- An opcode that the release does not implement, accepted by its lane, is answered UNSUPPORTED and changes nothing else. -/
theorem unsupported_answers {op : Nat} {r : Req} {s : State} (hears : (s.begin r.dt).hears r.src = true)
    (request : r.flags.getLsbD 0 = false) (header : (unsupportedCommand op).headerOk r = true)
    (room : (s.begin r.dt).noRoom r.src.endpoint = false)
    (accepted : ((((s.begin r.dt).countRetry r).sessionHears r).lane r.src.endpoint r.lane.toNat).verdict op r = .accept) :
    ∃ t, shotas (unsupportedCommand op) r s = .next t ∧
      Reports ((s.taken (unsupportedCommand op) r).answered r stUnsupported []) t := by
  obtain ⟨before, hs⟩ := shotas_accepted hears request header room accepted rfl
  have refused := accept_refused before (by simp [unsupportedCommand]) rfl
    (accessCheck_unsupported (s.taken (unsupportedCommand op) r) op r)
  exact ⟨_, hs, refused.trans (reports_settle _)⟩

/-- Settles O6: each body's result concludes its lane, and the fields are read off Table 2.9's layout. -/
theorem identifyAndHealthAnswer : Obligations.IdentifyAndHealthAnswer := by
  intro r s
  obtain ⟨major, minor⟩ := s.identity_release
  exact ⟨identify_answers, health_answers, s.identity_orderCode, major, minor, s.identity_serial, s.identity_stamp,
    s.identity_length⟩

/-- Settles O16: one branch of `State.receive` for each kind of message, and the class check that refuses the opcode. -/
theorem messagesThatNoRowNames : Obligations.MessagesThatNoRowNames := by
  refine ⟨fun dt f m s hears hf => ⟨fun hlen hcrc => ?_, fun hlen => ?_⟩,
    fun dt m s hears hcrc hhead hdir hsd hack hcat => ?_,
    fun op r s hears request header room accepted => unsupported_answers hears request header room accepted,
    fun dt b s running handed => hlBufferTaken_leads running handed⟩
  · exact receive_uart_badCrc hears hf hlen hcrc ▸ unsupportedOpcode_leads dt .uart f s
  · exact receive_uart_tooLong hears hf hlen ▸ unsupportedOpcode_leads dt .uart f s
  · exact receive_host_noCommand hears hcrc hhead hdir hack (commandOf_eq_none hsd hcat) ▸
      unsupportedOpcode_leads dt .host m s

end Sys2Proof.Machine

/-! ## Alarms, queue levels, the pace governor and missed revisions (spec chapters 6 and 7) -/

namespace Sys2Proof.Machine

/-! ### Reports leave the flow engines alone

What the end of a command judges (R227) is written before it reports, so the supply that the governor sets stands in the
state that the command leaves. -/

section

theorem fe_foldl {α : Type} (f : State → α → State) (h : ∀ s a, (f s a).fe = s.fe) (l : List α) (s : State) :
    (l.foldl f s).fe = s.fe := by
  induction l generalizing s with
  | nil => rfl
  | cons a l ih => rw [List.foldl_cons, ih, h]

variable (s : State)

@[simp] theorem bump_fe (id idx n : Nat) : (s.bump id idx n).fe = s.fe := by
  unfold State.bump
  split <;> rfl

@[simp] theorem perfEdge_fe (event what n : Nat) : (s.perfEdge event what n).fe = s.fe :=
  fe_foldl _ (fun s e => by split <;> rfl) _ _

@[simp] theorem meterBytes_fe (source dir n : Nat) : (s.meterBytes source dir n).fe = s.fe := by
  unfold State.meterBytes
  split <;> rfl

@[simp] theorem setPort_fe (p : Port) (r : RingPort) : (s.setPort p r).fe = s.fe := by
  cases p <;> rfl

@[simp] theorem portSends_fe (p : Port) (bytes : Nat) : (s.portSends p bytes).fe = s.fe := by
  unfold State.portSends
  dsimp only
  split <;> simp

@[simp] theorem ringSends_fe (bytes : Nat) : (s.ringSends bytes).fe = s.fe := by
  simp [State.ringSends]

@[simp] theorem send_fe (dst : Source) (express : Bool) (bytes : List Byte) : (s.send dst express bytes).fe = s.fe := by
  unfold State.send
  split <;> simp

@[simp] theorem sendNotices_fe (ep : Endpoint) (n : Nat) : (s.sendNotices ep n).fe = s.fe := by
  unfold State.sendNotices
  split
  · rfl
  · exact fe_foldl _ (fun _ _ => send_fe _ _ _ _) _ _

@[simp] theorem noticeTo_fe (ep : Endpoint) (opcode : Nat) (payload : List Byte) :
    (s.noticeTo ep opcode payload).fe = s.fe := by
  unfold State.noticeTo
  split
  · rfl
  · split <;> simp

@[simp] theorem notify_fe (opcode : Nat) (payload : List Byte) : (s.notify opcode payload).fe = s.fe :=
  fe_foldl _ (fun _ _ => noticeTo_fe _ _ _ _) _ _

@[simp] theorem record_fe (event unit : Nat) (data : List Byte) : (s.record event unit data).fe = s.fe := by
  unfold State.record State.recordAt State.queueRecord State.toLastGasp
  split
  · split
    · rfl
    · split <;> simp
  · rfl

@[simp] theorem raise_fe (opcode unit : Nat) (payload : List Byte) : (s.raise opcode unit payload).fe = s.fe := by
  simp [State.raise]

@[simp] theorem crossed_fe (q d : Nat) : (s.crossed q d).fe = s.fe := by
  unfold State.crossed State.queueLevel
  split
  · dsimp only
    split <;> simp
  · rfl

@[simp] theorem put_fe (q : Nat) (it : Item) : (s.put q it).fe = s.fe := by
  simp [State.put]

@[simp] theorem offer_fe (q : Nat) (it : Item) : (s.offer q it).fe = s.fe := by
  unfold State.offer
  split <;> simp

@[simp] theorem histFrom_fe (graph flow : Nat) (r : HistRec) : (s.histFrom graph flow r).fe = s.fe := by
  unfold State.histFrom
  dsimp only
  rw [fe_foldl _ (fun _ _ => by split <;> simp)]
  split <;> simp

@[simp] theorem hist_fe (stamp : Ns) (place : Pid) (type : Nat) (body : List Byte) :
    (s.hist stamp place type body).fe = s.fe := histFrom_fe _ _ _ _

@[simp] theorem report_fe (u : Nat) (n : Health) : (s.report u n).fe = s.fe := by
  unfold State.report
  dsimp only
  split
  · rfl
  · split <;> simp

@[simp] theorem noteCalm_fe : s.noteCalm.fe = s.fe := rfl

@[simp] theorem noteAttn_fe : s.noteAttn.fe = s.fe := rfl

/-- What the pace governor has set is what a running module's command leaves. -/
theorem settle_fe (running : s.running = true) : s.settle.fe = s.govern.fe := by
  rw [State.settle, if_pos running, noteAttn_fe, noteCalm_fe]
  exact fe_foldl _ (fun _ _ => report_fe _ _ _) _ _

end

/-! ### The pace governor (R31, R32, R227) -/

section

variable (s : State)

/-- The supplies that the governor may set, in mV: 0.50 V to 0.90 V in steps of 10 mV (R31). -/
def supplySteps : List Nat := (List.range 41).map (fun i => 500 + 10 * i)

theorem mem_supplySteps {v : Nat} : v ∈ supplySteps ↔ 500 ≤ v ∧ v ≤ 900 ∧ v % 10 = 0 := by
  simp only [supplySteps, List.mem_map, List.mem_range]
  constructor
  · rintro ⟨i, hi, rfl⟩
    omega
  · rintro ⟨low, high, step⟩
    exact ⟨(v - 500) / 10, by omega, by omega⟩

/-- The lowest supply from the present one up that meets every deadline, 0.90 V where none does. -/
theorem State.govern_fabricMv : s.govern.fe.fabricMv =
    ((supplySteps.filter (fun v => max 500 s.fe.fabricMv ≤ v)).find? s.meets).getD 900 := rfl

/-- The governed supply is 0.90 V or a step that meets every deadline. -/
theorem State.govern_choice : s.govern.fe.fabricMv = 900 ∨
    s.govern.fe.fabricMv ∈ supplySteps ∧ s.meets s.govern.fe.fabricMv = true := by
  rw [s.govern_fabricMv]
  cases found : (supplySteps.filter (fun v => max 500 s.fe.fabricMv ≤ v)).find? s.meets with
  | none => exact .inl rfl
  | some v => exact .inr ⟨(List.mem_filter.mp (List.mem_of_find?_eq_some found)).1, List.find?_some found⟩

theorem State.govern_range : 500 ≤ s.govern.fe.fabricMv ∧ s.govern.fe.fabricMv ≤ 900 ∧
    (s.govern.fe.fabricMv = 900 ∨ s.meets s.govern.fe.fabricMv = true) := by
  rcases s.govern_choice with top | ⟨step, meets⟩
  · rw [top]
    exact ⟨by decide, by decide, .inl rfl⟩
  · obtain ⟨low, high, -⟩ := mem_supplySteps.mp step
    exact ⟨low, high, .inr meets⟩

/-- The first element that passes a filter and a check is the least that does, in a rising list. -/
theorem find?_filter_le_of_pairwise {l : List Nat} (rising : l.Pairwise (· < ·)) {p : Nat → Bool} {v : Nat} (mem : v ∈ l)
    (hp : p v = true) : (l.filter (fun w => v ≤ w)).find? p = some v := by
  induction l with
  | nil => simp at mem
  | cons w l ih =>
    obtain ⟨above, rising⟩ := List.pairwise_cons.mp rising
    rcases List.mem_cons.mp mem with rfl | later
    · simp [hp]
    · have below : ¬ v ≤ w := Nat.not_le.mpr (above v later)
      simpa [below] using ih rising later

/-- A supply in the governor's steps at which every deadline is met is left as it is. -/
theorem State.govern_stays {s : State} (step : s.fe.fabricMv ∈ supplySteps) (meets : s.meets s.fe.fabricMv = true) :
    s.govern.fe.fabricMv = s.fe.fabricMv := by
  have low : max 500 s.fe.fabricMv = s.fe.fabricMv := Nat.max_eq_right (mem_supplySteps.mp step).1
  rw [s.govern_fabricMv, low, find?_filter_le_of_pairwise (by decide) step meets, Option.getD_some]

/-- The supply one step of 10 mV lower, from the present instant on (R31). -/
def State.stepDown (s : State) : State := { s with fe.fabricMv := s.fe.fabricMv - 10, fe.lastLower := s.clk.mono }

@[simp] theorem State.stepDown_running : s.stepDown.running = s.running := rfl

/-- A step down to a supply that meets every deadline stands under the governor. -/
theorem State.govern_stepDown {s : State} (low : 510 ≤ s.fe.fabricMv) (high : s.fe.fabricMv ≤ 900)
    (step : s.fe.fabricMv % 10 = 0) (meets : s.meets (s.fe.fabricMv - 10) = true) :
    s.stepDown.govern.fe.fabricMv = s.fe.fabricMv - 10 :=
  State.govern_stays (s := s.stepDown) (mem_supplySteps.mpr (by simp only [State.stepDown]; omega)) meets

end

/-! ### The events -/

section

variable {dt : Ns} {s : State}

/-- What an event of a running module leaves, where its effect there is known. -/
theorem leads_of_event {i : Instr} {f : State → State} {u : State} (exec_eq : exec i s = event dt f s)
    (running : (s.begin dt).running = true) (effect : f (s.begin dt) = u) : Leads i s u := by
  subst effect
  rw [Leads, exec_eq]
  exact event_leads running

/-- An alarm that has come is pushed where queue 0x08 has room and no tick of the flow waits (R238). -/
theorem State.pushTick_due {g f : Nat} {t : Ns} (alarm : (s.flowState (g * 65536 + f)).alarm = some t) (due : t ≤ s.tb)
    (room : s.room 0x08 1 = true) (alone : (s.queue 0x08).items.any (fun it => flowKey it == g * 65536 + f) = false)
    (runs : (s.slotOf g).state = .running) :
    s.pushTick g f = (s.onFlow (g * 65536 + f) (fun x => { x with alarm := none })).put 0x08
      (tickWork (g * 65536 + f) t).item := by
  have come : ¬ s.tb < t := Nat.not_lt.mpr due
  simp [State.pushTick, alarm, come, room, alone, runs]

/-- An alarm that is still to come changes nothing. -/
theorem State.pushTick_early {g f : Nat} {t : Ns} (alarm : (s.flowState (g * 65536 + f)).alarm = some t) (early : s.tb < t) :
    s.pushTick g f = s := by
  simp [State.pushTick, alarm, early]

/-- QUEUE_LEVEL at the second's end is a report besides the mark it clears (R250). -/
theorem queueLevelSecondEnd_leads {q : Nat} (running : (s.begin dt).running = true) (later : ((s.begin dt).queue q).later = true)
    (second : ((s.begin dt).queue q).second ≤ (s.begin dt).second) :
    Leads (.queueLevelSecondEnd dt q) s ((s.begin dt).setQueue q { (s.begin dt).queue q with later := false }) := by
  obtain ⟨t, ht, reports⟩ := leads_of_event (i := .queueLevelSecondEnd dt q) rfl running (if_pos ⟨later, second⟩)
  exact ⟨t, ht, Reports.trans (raise_bare _ _ _ _).symm reports⟩

/-- PACE_LOWER_STEP that may lower leaves the supply one step lower (R31). -/
theorem paceLowerStep_lowers (running : (s.begin dt).running = true) (low : 510 ≤ (s.begin dt).fe.fabricMv)
    (since : (s.begin dt).fe.lastLower + ms ≤ (s.begin dt).clk.mono)
    (meets : (s.begin dt).meets ((s.begin dt).fe.fabricMv - 10) = true) (high : (s.begin dt).fe.fabricMv ≤ 900)
    (step : (s.begin dt).fe.fabricMv % 10 = 0) :
    ∃ t, exec (.paceLowerStep dt) s = .next t ∧ Reports { s.begin dt with fe.lastLower := (s.begin dt).clk.mono } t ∧
      t.fe.fabricMv = (s.begin dt).fe.fabricMv - 10 := by
  have lowers : execPaceLowerStep dt s = .next (s.begin dt).stepDown.settle := by
    simp only [execPaceLowerStep, event, running, low, since, meets, and_self, if_true, State.stepDown]
  refine ⟨_, lowers, reports_settle (s.begin dt).stepDown, ?_⟩
  rw [settle_fe _ (by rwa [State.stepDown_running]), State.govern_stepDown low high step meets]

/-- PACE_LOWER_STEP at the lowest supply, or within a millisecond of the last step, changes nothing (R31). -/
theorem paceLowerStep_waits (running : (s.begin dt).running = true)
    (waits : (s.begin dt).fe.fabricMv < 510 ∨ (s.begin dt).clk.mono < (s.begin dt).fe.lastLower + ms) :
    Leads (.paceLowerStep dt) s (s.begin dt) :=
  leads_of_event (i := .paceLowerStep dt) rfl running (if_neg fun ⟨low, since, _⟩ =>
    waits.elim (fun h => absurd low (Nat.not_le.mpr h)) (fun h => absurd since (Nat.not_le.mpr h)))

/-- REVISE_MISSED of a revision past its launch plus tolerance (R282). -/
theorem reviseMissed_leads {p : Pid} {launch : Ns} {r : Revision} (running : (s.begin dt).running = true)
    (found : (s.begin dt).bs.revisions.find? (fun r => r.point == p && r.launch == launch) = some r) (tol : r.tol ≠ 0xFFFF)
    (past : launch + r.tol * ms < (s.begin dt).tb) :
    Leads (.reviseMissed dt p launch) s
      ({ (s.begin dt).bump 0x48FF with
        bs.revisions := (s.begin dt).bs.revisions.filter (fun x => x != r) }.corrective 0xFF 0 p r.late r.level) := by
  have exec_eq : exec (.reviseMissed dt p launch) s = execReviseMissed dt p launch s := rfl
  unfold execReviseMissed at exec_eq
  refine leads_of_event exec_eq running ?_
  simp only [found, tol, past, ne_eq, not_false_eq_true, and_self, if_true]

end

/-- Settles O33: each event's effect where its guard holds; the lowered supply is a step that meets every deadline, which the
governor, run once more at the command's end, leaves. -/
theorem alarmsLevelsPaceAndRevisions : Obligations.AlarmsLevelsPaceAndRevisions := by
  intro dt s running
  refine ⟨fun g f t alarm => ⟨fun due room alone runs => ?_, fun early => ?_⟩,
    fun q => queueLevelSecondEnd_leads running, paceLowerStep_lowers running, paceLowerStep_waits running,
    State.govern_range _, fun p launch r => reviseMissed_leads running⟩
  · exact leads_of_event (f := fun s => s.pushTick g f) rfl running (State.pushTick_due alarm due room alone runs)
  · exact leads_of_event (f := fun s => s.pushTick g f) rfl running (State.pushTick_early alarm early)

end Sys2Proof.Machine

/-! ## The History Store's records (spec chapter 12) -/

namespace Sys2Proof.Machine

/-! ### Fixed lists -/

section

variable {α : Type}

theorem lmod_getElem? (l : List α) (i : Nat) (f : α → α) : (lmod l i f)[i]? = l[i]?.map f := by
  induction l generalizing i with
  | nil => simp [lmod]
  | cons a l ih =>
    cases i with
    | zero => simp [lmod]
    | succ i => simpa [lmod] using ih i

theorem lmod_getLast? (l : List α) (f : α → α) : (lmod l (l.length - 1) f).getLast? = l.getLast?.map f := by
  rw [List.getLast?_eq_getElem?, List.getLast?_eq_getElem?, lmod_length, lmod_getElem?]

end

/-! ### The medium's frame

Blocks come and go, and are turned over; how many tiers there are, the next append number and the packages that work stand. -/

section

variable (s : State)

/-- The number of tiers, the next append number and the packages that work. -/
def Hist.frame (h : Hist) : Nat × Nat × List Bool := (h.tiers.length, h.appendSeq, h.packages)

/-- A tier after it is changed. -/
theorem State.tier_onTier {t : Nat} (f : Tier → Tier) (held : t < s.hs.tiers.length) :
    (s.onTier t f).tier t = f (s.tier t) := by
  simp only [State.tier, State.onTier, lmod_getElem?, List.getElem?_eq_getElem held, Option.map_some, Option.getD_some]

@[simp] theorem bump_hs (id idx n : Nat) : (s.bump id idx n).hs = s.hs := by
  unfold State.bump
  split <;> rfl

@[simp] theorem raise_hs (opcode unit : Nat) (payload : List Byte) : (s.raise opcode unit payload).hs = s.hs :=
  Reports.at (raise_bare s opcode unit payload).symm State.hs

@[simp] theorem onTier_frame (t : Nat) (f : Tier → Tier) : (s.onTier t f).hs.frame = s.hs.frame := by
  simp [Hist.frame, State.onTier]

@[simp] theorem cursorsLose_frame (t cause : Nat) (gone : List Stored) : (s.cursorsLose t cause gone).hs.frame = s.hs.frame := rfl

@[simp] theorem Hist.erase_frame (h : Hist) (n : Nat) : (h.erase n).frame = h.frame := rfl

@[simp] theorem Hist.takeBlock_frame (h : Hist) (fitted : Nat) : (h.takeBlock fitted).2.frame = h.frame := by
  unfold Hist.takeBlock
  split
  · rfl
  · split <;> rfl

@[simp] theorem eraseOldest_frame (t : Nat) : (s.eraseOldest t).hs.frame = s.hs.frame := by
  unfold State.eraseOldest
  split
  · rfl
  · rw [Hist.erase_frame, onTier_frame, cursorsLose_frame]

@[simp] theorem trimTier_frame (t : Nat) : (s.trimTier t).hs.frame = s.hs.frame := by
  unfold State.trimTier
  generalize List.range ((s.tier t).blocks.length - (s.tier t).size) = l
  induction l generalizing s with
  | nil => rfl
  | cons a l ih => rw [List.foldl_cons, ih, eraseOldest_frame]

@[simp] theorem makeRoom_frame (t : Nat) : (s.makeRoom t).hs.frame = s.hs.frame := by
  unfold State.makeRoom State.shrinkTier
  dsimp only
  split
  · rfl
  · split
    · split
      · rfl
      · simp
    · simp

@[simp] theorem openBlock_frame (t : Nat) : (s.openBlock t).hs.frame = s.hs.frame := by
  rw [State.openBlock, onTier_frame, Hist.takeBlock_frame, makeRoom_frame]

theorem tiers_length_of_frame {h k : Hist} (e : h.frame = k.frame) : h.tiers.length = k.tiers.length := congrArg Prod.fst e

theorem appendSeq_of_frame {h k : Hist} (e : h.frame = k.frame) : h.appendSeq = k.appendSeq := congrArg (fun x => x.2.1) e

theorem packages_of_frame {h k : Hist} (e : h.frame = k.frame) : h.packages = k.packages := congrArg (fun x => x.2.2) e

end

/-! ### Appends (R454–R456, R465) -/

section

variable (s : State)

/-- A tier's last block has room for a record. -/
def State.fits (s : State) (t : Nat) (r : HistRec) : Bool :=
  match (s.tier t).blocks.getLast? with
  | some b => decide (b.used + r.size ≤ blockBytes)
  | none => false

/-- The state whose tier `t` has a last block with room for the record: a fresh block where the last one is full. -/
def State.withRoom (s : State) (t : Nat) (r : HistRec) : State := if s.fits t r then s else s.openBlock t

/-- A record as its tier stores it: under its own stamp, or under that of the record before where it has none (R455, R465). -/
def State.stored (s : State) (t : Nat) (r : HistRec) : Stored :=
  { index := if r.stamp = 0 then (s.tier t).lastIndex else r.stamp, noTime := r.stamp == 0, append := s.hs.appendSeq, rec_ := r
    lost := false }

/-- A block with one more record. -/
def Block.add (x : Stored) (b : Block) : Block := { b with recs := b.recs ++ [x], used := b.used + x.rec_.size }

/-- A tier with one more record at the end of its last block. -/
def Tier.add (x : Stored) (mono : Ns) (y : Tier) : Tier :=
  { y.roll mono with
    blocks := lmod (y.roll mono).blocks ((y.roll mono).blocks.length - 1) (Block.add x)
    newestProgrammed := max (y.roll mono).newestProgrammed x.index, hourBytes := (y.roll mono).hourBytes + x.rec_.size }

/-- What an append writes in the store. -/
theorem appendTo_hs (t : Nat) (r : HistRec) : (s.appendTo t r).hs =
    { (s.withRoom t r).hs with
      tiers := lmod (s.withRoom t r).hs.tiers t (Tier.add (s.stored t r) (s.withRoom t r).clk.mono)
      appendSeq := (s.withRoom t r).hs.appendSeq + 1, minute := (s.withRoom t r).hs.minute.tally r } := by
  simp only [State.appendTo, bump_hs]
  rfl

@[simp] theorem Tier.roll_blocks (x : Tier) (mono : Ns) : (x.roll mono).blocks = x.blocks := by
  unfold Tier.roll
  split <;> rfl

theorem Tier.add_getLast? (x : Stored) (mono : Ns) (y : Tier) :
    (y.add x mono).blocks.getLast? = y.blocks.getLast?.map (Block.add x) := by
  simp only [Tier.add, Tier.roll_blocks, lmod_getLast?]

@[simp] theorem withRoom_frame (t : Nat) (r : HistRec) : (s.withRoom t r).hs.frame = s.hs.frame := by
  unfold State.withRoom
  split
  · rfl
  · exact openBlock_frame s t

/-- A fresh block is the last of its tier. -/
theorem openBlock_getLast? {t : Nat} (held : t < s.hs.tiers.length) :
    ∃ b, ((s.openBlock t).tier t).blocks.getLast? = some b := by
  have stands : t < ((s.makeRoom t).hs.takeBlock (s.makeRoom t).blocksFitted).2.tiers.length := by
    rwa [tiers_length_of_frame (Hist.takeBlock_frame _ _), tiers_length_of_frame (makeRoom_frame s t)]
  rw [State.openBlock, State.tier_onTier _ _ stands]
  exact ⟨_, List.getLast?_concat⟩

theorem withRoom_getLast? {t : Nat} (r : HistRec) (held : t < s.hs.tiers.length) :
    ∃ b, ((s.withRoom t r).tier t).blocks.getLast? = some b := by
  unfold State.withRoom
  split
  · next fits =>
    unfold State.fits at fits
    split at fits
    · next b last => exact ⟨b, last⟩
    · simp at fits
  · exact openBlock_getLast? s held

theorem appendTo_appendSeq (t : Nat) (r : HistRec) : (s.appendTo t r).hs.appendSeq = s.hs.appendSeq + 1 := by
  rw [appendTo_hs]
  exact congrArg (· + 1) (appendSeq_of_frame (withRoom_frame s t r))

/-- An appended record is the last of its tier's last block. -/
theorem appendTo_getLast? {t : Nat} (r : HistRec) (held : t < s.hs.tiers.length) :
    ∃ b, ((s.appendTo t r).tier t).blocks.getLast? = some b ∧ b.recs.getLast? = some (s.stored t r) := by
  obtain ⟨b, last⟩ := withRoom_getLast? s r held
  have stands : t < (s.withRoom t r).hs.tiers.length := by rwa [tiers_length_of_frame (withRoom_frame s t r)]
  have tier : (s.appendTo t r).tier t = ((s.withRoom t r).tier t).add (s.stored t r) (s.withRoom t r).clk.mono := by
    rw [← State.tier_onTier _ (Tier.add _ _) stands, State.tier, appendTo_hs]
    rfl
  exact ⟨b.add (s.stored t r), by rw [tier, Tier.add_getLast?, last, Option.map_some], List.getLast?_concat⟩

@[simp] theorem appendTo_packages (t : Nat) (r : HistRec) : (s.appendTo t r).hs.packages = s.hs.packages := by
  rw [appendTo_hs]
  show (s.withRoom t r).hs.packages = s.hs.packages
  exact packages_of_frame (withRoom_frame s t r)

@[simp] theorem append_packages (r : HistRec) : (s.append r).hs.packages = s.hs.packages := by
  unfold State.append
  dsimp only
  split
  · exact appendTo_packages _ _ _
  · split <;> simp

end

/-! ### Programming (R458–R460) -/

section

variable {s : State} {o : MediumOutcome} {errors : List CellError}

/-- With the store open and the medium good, what waits is programmed, the staged Ledger records with it. -/
theorem histProgram_programs {a b : State} (popped : ({ s with hs.forced := 0 } : State).cellErrors errors = a)
    (programmed : (({ a with hs.stallSince := none }.mediumCounts o).stallGaps).programQueue = b)
    (opened : a.histOpen = true) (good : o.ok = true) (blockGood : o.blockFailed = false) :
    s.histProgram o errors = b.hs.staged.foldl State.append { b with hs.staged := [] } := by
  simp only [State.histProgram, popped, opened, good, blockGood, programmed, Bool.not_true, Bool.or_self, Bool.false_eq_true,
    if_false]

/-- With the store shut or the medium failing, the stall of records that wait is noted. -/
theorem histProgram_stalls {a : State} (popped : ({ s with hs.forced := 0 } : State).cellErrors errors = a)
    (shut : a.histOpen = false ∨ o.ok = false) : s.histProgram o errors =
      if (a.queue 0x0A).items = [] then a else { a with hs.stallSince := some (a.hs.stallSince.getD a.clk.mono) } := by
  have refused : (!a.histOpen || !o.ok) = true := by simpa using shut
  simp only [State.histProgram, popped, refused, if_true, List.isEmpty_iff]

/-- A store stalled for 2 s discards what waits (R460). -/
theorem writeStallTimeout_discards {dt : Ns} {t : Ns} (running : (s.begin dt).running = true)
    (stalled : (s.begin dt).hs.stallSince = some t) (due : t + 2 * sec ≤ (s.begin dt).clk.mono) :
    exec (.writeStallTimeout dt) s =
      .next (((s.begin dt).queue 0x0A).items.foldl State.discardRecord (s.begin dt)).settle := by
  have discards : execWriteStallTimeout dt s =
      .next (((s.begin dt).queue 0x0A).items.foldl State.discardRecord (s.begin dt)).settle := by
    simp only [execWriteStallTimeout, event, running, stalled, due, if_true]
  exact discards

theorem writeStallTimeout_early {dt : Ns} {t : Ns} (running : (s.begin dt).running = true)
    (stalled : (s.begin dt).hs.stallSince = some t) (early : (s.begin dt).clk.mono < t + 2 * sec) :
    Leads (.writeStallTimeout dt) s (s.begin dt) := by
  have exec_eq : exec (.writeStallTimeout dt) s = execWriteStallTimeout dt s := rfl
  unfold execWriteStallTimeout at exec_eq
  refine leads_of_event exec_eq running ?_
  simp only [stalled, Nat.not_le.mpr early, if_false]

theorem writeStallTimeout_unstalled {dt : Ns} (running : (s.begin dt).running = true)
    (unstalled : (s.begin dt).hs.stallSince = none) : Leads (.writeStallTimeout dt) s (s.begin dt) := by
  have exec_eq : exec (.writeStallTimeout dt) s = execWriteStallTimeout dt s := rfl
  unfold execWriteStallTimeout at exec_eq
  refine leads_of_event exec_eq running ?_
  simp only [unstalled]

end

/-! ### Background work (R472–R476) -/

section

variable {s : State} {kind : ScrubKind} {n t : Nat} {b : Block} {o : MediumOutcome}

/-- A step of a block that is held gives way, or is run. -/
theorem scrubStep_held (power : s.pwr.state ≠ .lastGasp) (works : s.workingPackages ≠ []) (held : s.blockTier n = some (t, b))
    (good : o.ok = true) : s.scrubStep kind n o = if s.scrubYields kind = true then s else s.blockStep kind t b o := by
  simp [State.scrubStep, power, works, held, good]

/-- With no package working, a floor that is missed is counted (R35). -/
theorem scrubStep_missed (power : s.pwr.state ≠ .lastGasp) (out : s.workingPackages = []) (late : s.scrubLate = true) :
    s.scrubStep kind n o = { s.bump 0x78FA with hs.lastScrub := s.clk.mono } := by
  simp [State.scrubStep, power, out, late]

theorem scrubStep_none (h : s.pwr.state = .lastGasp ∨ (s.workingPackages ≠ [] ∧ s.blockTier n = none)) :
    s.scrubStep kind n o = s := by
  rcases h with gasp | ⟨works, unheld⟩
  · simp [State.scrubStep, gasp]
  · simp [State.scrubStep, works, unheld]

variable {w : BackWork} {last : Bool} {x : State}

/-- A scrub step reads its part of the block (R474, R475). -/
theorem backStep_scrub (carried : { s with hs.work := if last then none else some w } = x) (due : s.scrubLate = false) :
    s.backStep .scrub t b w last o = x.scrub t b last o := by
  have due' : x.scrubLate = false := carried ▸ due
  simp only [State.backStep, carried, due', Bool.false_eq_true, if_false]

/-- A scrub step that the floor forces is counted (R476). -/
theorem backStep_scrub_late (carried : { s with hs.work := if last then none else some w } = x) (late : s.scrubLate = true) :
    s.backStep .scrub t b w last o = ({ x.bump 0x78F9 with hs.forced := s.hs.forced + 1 } : State).scrub t b last o := by
  have late' : x.scrubLate = true := carried ▸ late
  simp only [State.backStep, carried, late', if_true]

/-- A block that is marked for it is refreshed (R474). -/
theorem backStep_refresh (carried : { s with hs.work := if last then none else some w } = x) (marked : b.refresh = true) :
    s.backStep .refresh t b w last o = x.rewrite t b w last o := by
  simp only [State.backStep, carried, marked, if_true]

/-- A block whose wear lies too far below the mean is relocated (R473). -/
theorem backStep_relocate (carried : { s with hs.work := if last then none else some w } = x) (low : s.lowWear b = true) :
    s.backStep .relocate t b w last o = x.rewrite t b w last o := by
  have low' : x.lowWear b = true := carried ▸ low
  simp only [State.backStep, carried, low', if_true]

end

/-! ### Packages (R477) -/

section

variable {s : State} {p : Nat}

theorem losePackage_packages (s : State) (p t : Nat) : (s.losePackage p t).hs.packages = s.hs.packages := by
  have kept (f : Tier → Tier) (gone : List Stored) :
      (((s.cursorsLose t 1 gone).onTier t f).trimTier t).hs.packages = s.hs.packages :=
    packages_of_frame (by rw [trimTier_frame, onTier_frame, cursorsLose_frame])
  unfold State.losePackage
  dsimp only
  split
  · exact kept _ _
  · rw [append_packages, kept]

theorem packageFails_other (idle : s.workingPackages.contains p = false) : s.packageFails p = s := by
  rw [State.packageFails, idle]
  rfl

theorem packageFails_packages (works : s.workingPackages.contains p = true) :
    (s.packageFails p).hs.packages = lset s.hs.packages p false := by
  unfold State.packageFails
  simp only [works, Bool.not_true, Bool.false_eq_true, if_false]
  split
  · rfl
  · rw [losePackage_packages, losePackage_packages]
    rfl

theorem mem_workingPackages : p ∈ s.workingPackages ↔ p < s.packagesFitted ∧ s.hs.packages[p]? = some true := by
  simp [State.workingPackages, Option.getD_eq_iff]

theorem packageFails_works (works : s.workingPackages.contains p = true) :
    (s.packageFails p).workingPackages.contains p = false := by
  have worked : s.hs.packages[p]? = some true := (mem_workingPackages.mp (List.contains_iff_mem.mp works)).2
  have lost : (s.packageFails p).hs.packages[p]? = some false := by
    rw [packageFails_packages works]
    exact lset_get _ _ (List.getElem?_eq_some_iff.mp worked).1
  refine Bool.eq_false_iff.mpr fun still => ?_
  have works' := (mem_workingPackages.mp (List.contains_iff_mem.mp still)).2
  rw [lost] at works'
  simp at works'

end

/-! ### The statement -/

/-- A record that is appended is the last of its tier, under the next append number (R454, R465). -/
theorem appendTo_last {s : State} {t : Nat} {r : HistRec} (held : t < s.hs.tiers.length) :
    (s.appendTo t r).hs.appendSeq = s.hs.appendSeq + 1 ∧
    ∃ b x, ((s.appendTo t r).tier t).blocks.getLast? = some b ∧ b.recs.getLast? = some x ∧ x.rec_ = r ∧
      x.append = s.hs.appendSeq ∧ x.lost = false ∧ (r.stamp ≠ 0 → x.index = r.stamp) := by
  obtain ⟨b, block, record⟩ := appendTo_getLast? s r held
  exact ⟨appendTo_appendSeq s t r, b, s.stored t r, block, record, rfl, rfl, rfl, fun stamped => if_neg stamped⟩

/-- HIST_PROGRAM with the store open and the medium good. -/
theorem histProgram_leads {dt : Ns} {s : State} {o : MediumOutcome} {errors : List CellError}
    (running : (s.begin dt).running = true) {u : State} (effect : (s.begin dt).histProgram o errors = u) :
    Leads (.histProgram dt ⟨o, errors⟩) s u :=
  leads_of_event (f := fun s => s.histProgram o errors) rfl running effect

theorem scrubStep_leads {dt : Ns} {s : State} {kind : ScrubKind} {n : Nat} {o : MediumOutcome}
    (running : (s.begin dt).running = true) {u : State} (effect : (s.begin dt).scrubStep kind n o = u) :
    Leads (.scrubStep dt kind n o) s u :=
  leads_of_event (f := fun s => s.scrubStep kind n o) rfl running effect

theorem packageFailure_leads {dt : Ns} {s : State} (running : (s.begin dt).running = true) (p : Nat) :
    Leads (.packageFailure dt p) s ((s.begin dt).packageFails p) :=
  leads_of_event (f := fun s => s.packageFails p) rfl running rfl

/-- Settles O48: programming, the stall, the background step and the loss of a package, each by its operation's cases. -/
theorem recordsAreProgrammedAndKept : Obligations.RecordsAreProgrammedAndKept := by
  refine ⟨fun dt s o errors running => ?_, fun s t r held => appendTo_last held, fun dt s running => ?_⟩
  · intro a
    have popped : ({ s.begin dt with hs.forced := 0 } : State).cellErrors errors = a := rfl
    refine ⟨fun opened good blockGood => ?_, fun shut waiting => ?_, fun shut empty => ?_⟩
    · intro b
      exact histProgram_leads running (histProgram_programs popped (b := b) rfl opened good blockGood)
    · exact histProgram_leads running ((histProgram_stalls popped shut).trans (if_neg waiting))
    · exact histProgram_leads running ((histProgram_stalls popped shut).trans (if_pos empty))
  · intro a
    refine ⟨fun t stalled => ⟨writeStallTimeout_discards running stalled, writeStallTimeout_early running stalled⟩,
      writeStallTimeout_unstalled running, fun kind n o t b power works held good => ?_,
      fun k n o power out late => scrubStep_leads running (scrubStep_missed power out late),
      fun k n o idle => scrubStep_leads running (scrubStep_none idle), packageFailure_leads running,
      fun p => packageFails_other, fun p => packageFails_works⟩
    intro w last x
    have step := scrubStep_held power works held good (kind := kind)
    have carried : { a with hs.work := if last then none else some w } = x := rfl
    refine ⟨fun yields => scrubStep_leads running (step.trans (if_pos yields)),
      fun runs => scrubStep_leads running (step.trans (if_neg (Bool.eq_false_iff.mp runs))), ?_, ?_, ?_, ?_⟩
    · rintro rfl due
      exact backStep_scrub carried due
    · rintro rfl late
      exact backStep_scrub_late carried late
    · rintro rfl marked
      exact backStep_refresh carried marked
    · rintro rfl low
      exact backStep_relocate carried low

end Sys2Proof.Machine

/-! ## The Shotas link (spec chapter 2): answers, resends, the Holder, sessions, the warm reset, commands that waited -/

namespace Sys2Proof.Machine

/-! ### What is answered -/

section

variable {c : Command} {r : Req} {s u : State} {before : Lane} {st : Nat} {p : List Byte}

/-- A final response that is sent at the end of a command: but for reports it leaves the state as it was, and the message
stands handed to its port (R50, R51). -/
theorem respond_settle (c : Command) (r : Req) (s : State) (st : Nat) (p : List Byte) :
    let t := (s.respond r.src r.lane.toNat r.seq c.opcode 1 st p).settle
    Reports s t ∧ t.delivers r.src (s.responseTo c r st p) :=
  ⟨(respond_bare s _ _ _ _ _ _ _).symm.trans (settle_bare _).symm, (settle_handed _).delivers (send_delivers s _ _ _)⟩

/-- A final status that is kept for a resend ends the lane's command and is sent (R61). -/
theorem conclude_done (kept : statusCached st = true) :
    s.conclude c r before (.done st p u) =
      (u.answered r st p).respond r.src r.lane.toNat r.seq c.opcode 1 st p := by
  simp only [State.conclude, kept, if_true, State.answered]

/-- A command's next state, where what the command leads to is known. -/
theorem Leads.reports {i : Instr} {t : State} (leads : Leads i s u) (next : exec i s = .next t) : Reports u t := by
  obtain ⟨t', next', reports⟩ := leads
  obtain rfl : t' = t := Host.Outcome.next.inj (next'.symm.trans next)
  exact reports

/-- An OK response that a notice follows is, but for reports, an OK response. -/
theorem shotas_raises {opcode unit : Nat} {q : List Byte} (ready : Ready c r s)
    (body : c.body r (s.taken c r) = .doneThen stOk p u (fun s => s.raise opcode unit q)) :
    ∃ t, shotas c r s = .next t ∧ Reports (u.answered r stOk p) t := by
  obtain ⟨t, next, reports⟩ := shotas_doneThen ready body fun x y agree => by simpa only [raise_bare] using agree
  exact ⟨t, next, Reports.trans (raise_bare _ _ _ _).symm reports⟩

/-- Settles O2: the body's result concludes the lane, and what is handed to a port stays handed to it. -/
theorem requestTakenUpIsAnswered : Obligations.RequestTakenUpIsAnswered := by
  intro c r s u st p ready kept body
  obtain ⟨before, next⟩ := shotas_ready ready
  rw [body, conclude_done kept] at next
  exact ⟨_, next, respond_settle c r (u.answered r st p) st p⟩

end

/-! ### Resends (Table 2.3) -/

section

variable {c : Command} {r : Req} {s : State} {l : Lane} {st : Nat} {p : List Byte}

/-- A lane whose command has its final response takes a copy of that command for a resend (R60). -/
theorem Lane.verdict_resendFinal {op : Nat} (synced : l.synced = true)
    (same : (l.cmd.map (sameContent op r)).getD false = true) (idle : l.phase = .idle) :
    l.verdict op r = .resendFinal := by
  simp [Lane.verdict, synced, same, idle]

/-- A request that the module hears, with a good header and room for its session, meets its lane (R66). -/
theorem shotas_onLane (hears : (s.begin r.dt).hears r.src = true) (request : r.flags.getLsbD 0 = false)
    (header : c.headerOk r = true) (room : (s.begin r.dt).noRoom r.src.endpoint = false) :
    shotas c r s = .next ((((s.begin r.dt).countRetry r).sessionHears r).onLane c r).settle := by
  simp only [shotas, State.request, hears, request, header, room, Bool.not_true, Bool.false_and, Bool.false_eq_true,
    if_false]

/-- A resend is answered with the response that is kept, and nothing runs (R61). -/
theorem onLane_resend (verdict : (s.lane r.src.endpoint r.lane.toNat).verdict c.opcode r = .resendFinal)
    (cached : (s.lane r.src.endpoint r.lane.toNat).cached = some (st, p)) :
    s.onLane c r = s.respond r.src r.lane.toNat r.seq c.opcode 1 st p := by
  simp only [State.onLane, verdict, cached]

/-- Settles O3: the lane's verdict is a resend, which sends the kept response and does no more. -/
theorem resendIsAnsweredFromTheCache : Obligations.ResendIsAnsweredFromTheCache := by
  intro c r s st p a l hears request header room synced same idle cached
  have next := shotas_onLane hears request header room
  rw [onLane_resend (Lane.verdict_resendFinal synced same idle) cached] at next
  exact ⟨_, next, respond_settle c r a st p⟩

end

/-! ### The Holder check (R73, R74) -/

section

variable {c : Command} {r : Req} {s : State} {ep : Endpoint} {claim : Claim}

theorem State.holderCheck_eq_none :
    s.holderCheck ep claim = none ↔ s.link.bound = true ∧ s.link.floorEp = some ep ∧ claim = s.link.floor := by
  unfold State.holderCheck
  split
  · next holder => exact iff_of_true rfl holder
  · next other => exact iff_of_false (by split <;> simp) other

theorem State.holderCheck_refused (refused : s.holderCheck ep claim ≠ none) :
    s.holderCheck ep claim =
      some (if claim ≠ 0#64 ∧ claim.toNat < s.link.floor.toNat then stSuperseded else stNotHolder) := by
  rw [State.holderCheck, if_neg fun holder => refused (State.holderCheck_eq_none.mpr holder)]
  split <;> rfl

theorem State.accessCheck_holder (holder : c.access = .holder) :
    s.accessCheck c r = s.holderCheck r.src.endpoint r.claim := by
  simp only [State.accessCheck, holder]

/-- Settles O5: a Holder command's access check is the Holder check, whose two failures are both kept for a resend. -/
theorem holderCheckStatuses : Obligations.HolderCheckStatuses := by
  intro c r s holder a
  have check : a.accessCheck c r = a.holderCheck r.src.endpoint r.claim := State.accessCheck_holder holder
  refine ⟨by rw [check, State.holderCheck_eq_none], fun hears request header room accepted layout refused => ?_⟩
  obtain ⟨before, next⟩ := shotas_accepted hears request header room accepted layout
  have status := check.trans (State.holderCheck_refused (check ▸ refused))
  have kept : statusCached
      (if r.claim ≠ 0#64 ∧ r.claim.toNat < a.link.floor.toNat then stSuperseded else stNotHolder) = true := by
    split <;> rfl
  exact ⟨_, next, (accept_refused before (by simp [holder]) kept status).trans (reports_settle _)⟩

end

/-! ### HEALTH (Table 2.10) -/

section

/-- A field of the n-th of several parts of one length. -/
theorem fld_flatten_map {α : Type} {f : α → List Byte} {k : Nat} (part : ∀ a, (f a).length = k) {l : List α} {n : Nat}
    {a : α} (here : l[n]? = some a) {off w : Nat} (inside : off + w ≤ k) :
    fld (l.map f).flatten (k * n + off) w = fld (f a) off w := by
  induction l generalizing n with
  | nil => simp at here
  | cons b l ih =>
    rw [List.map_cons, List.flatten_cons]
    cases n with
    | zero =>
      obtain rfl : b = a := by simpa using here
      rw [Nat.mul_zero, Nat.zero_add, fld_append_left _ _ (by rwa [part])]
    | succ n =>
      have behind : k * (n + 1) + off - (f b).length = k * n + off := by rw [part, Nat.mul_succ]; omega
      rw [fld_append_right _ _ (by rw [part, Nat.mul_succ]; omega), behind]
      exact ih (by simpa using here)

variable (s : State)

theorem State.units_pairwise : s.units.Pairwise (· < ·) := by
  unfold State.units
  split <;> decide

theorem State.units_of_48F (full : s.is16C = false) : s.units.length = 22 := by
  simp [State.units, full]

theorem State.units_of_16C (small : s.is16C = true) :
    s.units.length = 19 ∧ 9 ∉ s.units ∧ 10 ∉ s.units ∧ 11 ∉ s.units := by
  simp [State.units, small]

theorem State.units_length_lt : s.units.length < 256 := by
  unfold State.units
  split <;> decide

theorem State.unit_lt {u : Nat} (fitted : u ∈ s.units) : u < 256 := by
  have all : ∀ v ∈ s.units, v < 256 := by
    unfold State.units
    split <;> decide
  exact all u fitted

theorem Health.code_lt (h : Health) : h.code < 256 := by cases h <;> decide

@[simp] theorem State.healthEntry_length (u : Nat) : (s.healthEntry u).length = 16 := by
  simp [State.healthEntry]

theorem State.healthEntry_unit (u : Nat) : fld (s.healthEntry u) 0 1 = u % 256 := by
  simp [State.healthEntry, fld_append_left]

theorem State.healthEntry_state (u : Nat) : fld (s.healthEntry u) 1 1 = (s.unitHealth u).state.code := by
  simp [State.healthEntry, fld_append_left, fld_append_right, Nat.mod_eq_of_lt (Health.code_lt _)]

theorem State.healthReport_length : s.healthReport.length = 16 + 16 * s.units.length := by
  simp [State.healthReport, List.length_flatten, Function.comp_def]
  omega

theorem State.healthReport_count : fld s.healthReport 12 1 = s.units.length := by
  simp [State.healthReport, fld_append_left, fld_append_right, Nat.mod_eq_of_lt s.units_length_lt]

/-- The n-th entry stands behind the 16 bytes that come before the entries. -/
theorem State.healthReport_entry {n u : Nat} (here : s.units[n]? = some u) {off w : Nat} (inside : off + w ≤ 16) :
    fld s.healthReport (16 + 16 * n + off) w = fld (s.healthEntry u) off w := by
  unfold State.healthReport
  rw [fld_append_right _ _ (by simp; omega), ← fld_flatten_map s.healthEntry_length here inside]
  congr 1
  simp
  omega

/-- Settles O7: the units are one fixed list for each order code, and entries of 16 bytes follow each other. -/
theorem healthListsEveryUnit : Obligations.HealthListsEveryUnit := by
  intro s
  refine ⟨s.units_pairwise, fun full => ?_, fun small => ?_, s.healthReport_count, fun n u here => ⟨?_, ?_⟩⟩
  · have count := s.units_of_48F full
    exact ⟨count, by rw [s.healthReport_length, count]⟩
  · obtain ⟨count, radios⟩ := s.units_of_16C small
    exact ⟨count, by rw [s.healthReport_length, count], radios⟩
  · have fitted := s.unit_lt (List.mem_of_getElem? here)
    rw [← Nat.add_zero (16 + 16 * n), s.healthReport_entry here (by decide), s.healthEntry_unit, Nat.mod_eq_of_lt fitted]
  · rw [s.healthReport_entry here (by decide), s.healthEntry_state]

end

/-! ### The Holder's transitions (Table 2.5) -/

section

variable {r : Req} {s : State}

/-- A claim above F is accepted whether or not one is bound (R76). -/
theorem bindBody_above (above : s.link.floor.toNat < r.claim.toNat) : bindBody r s = s.bindTo r.claim r.src.endpoint := by
  have given : r.claim ≠ 0#64 := fun zero => by simp [zero] at above
  simp only [bindBody, above, given, if_true, if_false, ite_self]

/-- The recorded endpoint binds again with the claim that it held (R76). -/
theorem bindBody_again (unbound : s.link.bound = false) (same : r.claim = s.link.floor)
    (recorded : s.link.floorEp = some r.src.endpoint) (given : r.claim ≠ 0#64) :
    bindBody r s = s.bindTo r.claim r.src.endpoint := by
  have level : ¬ s.link.floor.toNat < r.claim.toNat := by simp [same]
  simp only [bindBody, unbound, given, level, if_false, Bool.false_eq_true]
  exact if_pos ⟨same, recorded⟩

theorem bindBody_repeated (bound : s.link.bound = true) (same : r.claim = s.link.floor)
    (recorded : s.link.floorEp = some r.src.endpoint) : bindBody r s = ok (floors s.link.floor s.link.floor) s := by
  have level : ¬ s.link.floor.toNat < r.claim.toNat := by simp [same]
  simp only [bindBody, bound, level, if_true, if_false]
  exact if_pos ⟨same, recorded⟩

theorem bindBody_zero (unbound : s.link.bound = false) (zero : r.claim = 0#64) : bindBody r s = fail stRange s := by
  simp only [bindBody, unbound, zero, if_true, if_false, Bool.false_eq_true]

theorem bindBody_low (low : r.claim.toNat ≤ s.link.floor.toNat)
    (other : ¬ (r.claim = s.link.floor ∧ s.link.floorEp = some r.src.endpoint))
    (given : s.link.bound = true ∨ r.claim ≠ 0#64) : bindBody r s = fail stClaimLow s := by
  have level : ¬ s.link.floor.toNat < r.claim.toNat := Nat.not_lt.mpr low
  rcases given with bound | claim
  · simp only [bindBody, bound, level, other, if_true, if_false]
  · simp only [bindBody, claim, level, other, if_false, ite_self]

/-- A BIND that is accepted leaves the claim it carries and its endpoint, bound. -/
theorem bind_accepted (ready : Ready bindCommand r s)
    (accepted : bindBody r (s.taken bindCommand r) = (s.taken bindCommand r).bindTo r.claim r.src.endpoint) :
    Answers (.bind r) r s (floors (s.taken bindCommand r).link.floor r.claim)
      ((s.taken bindCommand r).transition r.claim (some r.src.endpoint) true) := shotas_raises ready accepted

/-- Whatever a BIND comes to, F does not fall: it is accepted only with a claim that is F or above it, and else leaves F. -/
theorem bind_floor_le {t : State} (ready : Ready bindCommand r s) (next : exec (.bind r) s = .next t) :
    (s.taken bindCommand r).link.floor.toNat ≤ t.link.floor.toNat := by
  set a := s.taken bindCommand r
  have accepts (body : bindBody r a = a.bindTo r.claim r.src.endpoint) (rises : a.link.floor.toNat ≤ r.claim.toNat) :
      a.link.floor.toNat ≤ t.link.floor.toNat := by
    obtain ⟨floor, -, -⟩ := (Leads.reports (bind_accepted ready body) next).holder
    rw [floor]
    exact rises
  have answers {st : Nat} {p : List Byte} (body : bindBody r a = .done st p a) (kept : statusCached st = true) :
      a.link.floor.toNat ≤ t.link.floor.toNat := by
    have leads : Leads (.bind r) s (a.answered r st p) := shotas_done ready kept body
    obtain ⟨floor, -, -⟩ := (leads.reports next).holder
    rw [floor]
    exact Nat.le_refl _
  by_cases above : a.link.floor.toNat < r.claim.toNat
  · exact accepts (bindBody_above above) (Nat.le_of_lt above)
  have low := Nat.not_lt.mp above
  by_cases own : r.claim = a.link.floor ∧ a.link.floorEp = some r.src.endpoint
  · obtain ⟨same, recorded⟩ := own
    by_cases bound : a.link.bound = true
    · exact answers (bindBody_repeated bound same recorded) rfl
    have unbound := Bool.eq_false_iff.mpr bound
    by_cases zero : r.claim = 0#64
    · exact answers (bindBody_zero unbound zero) rfl
    · exact accepts (bindBody_again unbound same recorded zero) (by rw [same])
  · by_cases given : a.link.bound = true ∨ r.claim ≠ 0#64
    · exact answers (bindBody_low low own given) rfl
    · obtain ⟨bound, zero⟩ := not_or.mp given
      exact answers (bindBody_zero (Bool.eq_false_iff.mpr bound) (not_not.mp zero)) rfl

/-- An end of the binding keeps F and its endpoint, and makes no output-chain cycle due (R76, R406). -/
theorem State.transition_unbinds (s : State) :
    s.transition s.link.floor s.link.floorEp false = { s.supersede with link.staged := [], link.bound := false } := by
  simp only [State.transition, ne_eq, not_true_eq_false, decide_false, Bool.or_false]
  rfl

theorem releaseBody_holder (bound : s.link.bound = true) (holder : s.holderCheck r.src.endpoint r.claim = none) :
    releaseBody r s = s.unbind 2 [] := by
  simp only [releaseBody, bound, holder, Bool.not_true, Bool.false_eq_true, if_false]

theorem releaseBody_unbound (unbound : s.link.bound = false) : releaseBody r s = fail stNotHolder s := by
  simp only [releaseBody, unbound, Bool.not_false, if_true]

/-- Settles O8: each row of Table 2.5 is one case of its command's body; HOLDER_CHANGED after the response is a report. -/
theorem holderTransitions : Obligations.HolderTransitions := by
  refine ⟨fun r s ready => ?_, fun r s => ⟨fun ready => ⟨fun bound holder => ?_, fun unbound => ?_⟩,
    fun ready => ⟨fun bound => ?_, fun unbound => ?_⟩⟩⟩
  · intro a f ep
    refine ⟨?_, fun bound same recorded => shotas_ok ready (bindBody_repeated bound same recorded),
      fun unbound zero => shotas_done ready rfl (bindBody_zero unbound zero),
      fun low other given => shotas_done ready rfl (bindBody_low low other given), fun t => bind_floor_le ready⟩
    rintro (above | ⟨unbound, same, recorded, given⟩)
    · exact bind_accepted ready (bindBody_above above)
    · exact bind_accepted ready (bindBody_again unbound same recorded given)
  · rw [← State.transition_unbinds]
    exact shotas_raises ready (releaseBody_holder bound holder)
  · exact shotas_done ready rfl (releaseBody_unbound unbound)
  · rw [← State.transition_unbinds]
    exact shotas_raises ready (if_pos bound)
  · exact shotas_ok ready (if_neg (Bool.not_eq_true _ ▸ unbound))

end

/-! ### Sessions (R57, R58, R68–R72) -/

section

variable {s : State} {ep : Endpoint} {f : Session → Session}

/-- An open session, changed in a way that leaves it its endpoint's. -/
theorem State.session?_onSession {x : Session} (keeps : ∀ x, (f x).ep = x.ep) (here : s.session? ep = some x) :
    (s.onSession ep f).session? ep = some (f x) := by
  have stays : ((fun x : Session => x.ep == ep) ∘ fun x => if x.ep = ep then f x else x) = fun x => x.ep == ep := by
    funext x
    simp only [Function.comp_apply]
    split <;> simp [keeps]
  have own : x.ep = ep := by simpa using List.find?_some here
  rw [State.session?, State.onSession_sessions, List.find?_map, stays, ← State.session?, here]
  simp [own]

@[simp] theorem State.lapse_sessions (s : State) (ep : Endpoint) :
    (s.lapse ep).link.sessions = s.link.sessions.filter (fun x => x.ep != ep) := rfl

@[simp] theorem State.session?_lapse (s : State) (ep : Endpoint) : (s.lapse ep).session? ep = none := by
  simp [State.session?]

/-- What a session held is gone with it. -/
theorem State.lapse_onSession (keeps : ∀ x, (f x).ep = x.ep) : (s.onSession ep f).lapse ep = s.lapse ep := by
  have gone (l : List Session) : (l.map (fun x => if x.ep = ep then f x else x)).filter (fun x => x.ep != ep) =
      l.filter (fun x => x.ep != ep) := by
    induction l with
    | nil => rfl
    | cons x l ih =>
      by_cases own : x.ep = ep
      · simp [own, keeps, ih]
      · simp [own, ih]
  simp only [State.lapse, State.forgetWaiters, State.onSession, gone]

theorem State.answered_lapse (s : State) (r : Req) (st : Nat) (p : List Byte) :
    (s.answered r st p).lapse r.src.endpoint = s.lapse r.src.endpoint := State.lapse_onSession fun _ => rfl

theorem bare_lapse (s : State) (ep : Endpoint) : (s.lapse ep).bare = s.bare.lapse ep := by
  simp only [State.bare, State.lapse, State.forgetWaiters, List.filter_map]
  rfl

/-- The end of a session leaves states that agree but for reports. -/
theorem Reports.lapse {u t : State} (agree : Reports u t) (ep : Endpoint) : Reports (u.lapse ep) (t.lapse ep) := by
  rw [Reports, bare_lapse, bare_lapse, agree.eq]

theorem session?_bare (s : State) (ep : Endpoint) : s.bare.session? ep = (s.session? ep).map Session.bare := List.find?_map

theorem Reports.session?_eq_none {u t : State} (agree : Reports u t) (closed : u.session? ep = none) :
    t.session? ep = none := by
  have same : t.bare.session? ep = u.bare.session? ep := agree.at fun s => s.session? ep
  simpa [session?_bare, closed] using same

/-- A session that is not the Holder's may name group 0x10 alone (R72). -/
theorem subscribeBody_other {r : Req} (other : s.holderSession r.src.endpoint = false) :
    let mask : BitVec 256 := BitVec.ofNat 256 (fromLe r.payload) &&& BitVec.ofNat 256 (2 ^ 16)
    subscribeBody r s = ok (le 32 mask.toNat) (s.onSession r.src.endpoint (fun x => { x with mask := mask })) := by
  simp only [subscribeBody, other, Bool.false_eq_true, if_false]

/-- SESSION_CLOSE leaves no session once its response is sent (R58). -/
theorem sessionClose_leads {r : Req} (ready : Ready sessionCloseCommand r s) :
    Leads (.sessionClose r) s ((s.taken sessionCloseCommand r).lapse r.src.endpoint) := by
  rw [← State.answered_lapse _ r stOk []]
  exact shotas_doneThen ready rfl fun x y agree => Reports.lapse agree _

theorem sessionLapse_leads {dt : Ns} {x : Session} (running : (s.begin dt).running = true)
    (here : (s.begin dt).session? ep = some x) (silent : x.lastRx + 120 * sec ≤ (s.begin dt).clk.mono) :
    Leads (.sessionLapse dt ep) s ((s.begin dt).lapse ep) := by
  have run : exec (.sessionLapse dt ep) s = execSessionLapse dt ep s := rfl
  unfold execSessionLapse at run
  refine leads_of_event run running ?_
  simp only [here, silent, if_true]

/-- An endpoint that has its session needs no room (R57). -/
theorem State.noRoom_of_session (here : (s.session? ep).isSome = true) : s.noRoom ep = false := by
  obtain ⟨x, found⟩ := Option.isSome_iff_exists.mp here
  simp [State.noRoom, found]

/-- A good NOTICE_ACK of an open session is heard and acts; nothing answers it (R69). -/
theorem State.noticeAck_acks {r : Req} (hears : s.hears r.src = true) (request : r.flags.getLsbD 0 = false)
    (lane : r.lane = 0#8) (four : r.payload.length = 4) (here : (s.session? r.src.endpoint).isSome = true) :
    s.noticeAck r = (s.touch r.src).acked r.src.endpoint (fld r.payload 0 4) := by
  simp only [State.noticeAck, hears, request, lane, four, here, State.noRoom_of_session here, Bool.not_true,
    Bool.false_eq_true, ne_eq, not_true_eq_false, false_or, Nat.reduceLT, if_true, if_false]

/-- The notices up to and including the one that is acknowledged go (R69). -/
theorem acknowledge_sent {n : Nat} {old new : List Notice} {m : Notice} (numbered : m.seq = n)
    (sent : m.sentAt.isSome = true) (earlier : ∀ x ∈ old, x.seq ≠ n) : acknowledge n (old ++ m :: new) = new := by
  have skipped : (old ++ m :: new).dropWhile (fun x => x.seq != n) = m :: new := by
    rw [List.dropWhile_append_of_pos fun x here => by simpa using earlier x here]
    simp [numbered]
  have known : (old ++ m :: new).any (fun x => x.seq == n && x.sentAt.isSome) = true := by
    simp [numbered, sent]
  rw [acknowledge, if_pos known, skipped]
  rfl

/-- Settles O9: each event's effect where its guard holds; the end of a session forgets what its answer left in it. -/
theorem sessionsOpenSubscribeAndClose : Obligations.SessionsOpenSubscribeAndClose := by
  refine ⟨fun r s ready => ?_, fun r s ready => ⟨sessionClose_leads ready, fun t next => ?_⟩,
    fun dt ep s x running here silent => sessionLapse_leads running here silent,
    fun r s hears request lane four here => ?_, fun n old new m numbered sent earlier => acknowledge_sent numbered sent earlier⟩
  · intro a mask other
    exact shotas_ok ready (subscribeBody_other other)
  · have reports := (sessionClose_leads ready).reports next
    obtain ⟨-, -, bound⟩ := reports.holder
    exact ⟨reports.session?_eq_none (State.session?_lapse _ _), bound⟩
  · exact congrArg (fun x : State => Host.Outcome.next x.settle) (State.noticeAck_acks hears request lane four here)

end

/-! ### The warm reset (R622) -/

section

variable {r : Req} {s : State} {ep : Endpoint}

/-- A lane of an open session reads as it was set. -/
theorem State.lane_setLane {x : Session} {n : Nat} (here : s.session? ep = some x) (inside : n - 1 < x.lanes.length)
    (l : Lane) : (s.setLane ep n l).lane ep n = l := by
  have found : (s.setLane ep n l).session? ep = some { x with lanes := lset x.lanes (n - 1) l } :=
    State.session?_onSession (f := fun x => { x with lanes := lset x.lanes (n - 1) l }) (fun _ => rfl) here
  simp [State.lane, found, Session.lane, lset_get _ _ inside]

@[simp] theorem State.countRetry_clk (s : State) (r : Req) : (s.countRetry r).clk = s.clk := by
  unfold State.countRetry
  split <;> rfl

@[simp] theorem State.countRetry_sessions (s : State) (r : Req) : (s.countRetry r).link.sessions = s.link.sessions := by
  unfold State.countRetry
  split <;> rfl

theorem State.countRetry_session? (s : State) (r : Req) (ep : Endpoint) : (s.countRetry r).session? ep = s.session? ep := by
  simp [State.session?]

/-- An open session that hears a message stays open, with the same lanes. -/
theorem State.sessionHears_open {x : Session} (here : s.session? r.src.endpoint = some x) :
    (s.sessionHears r).session? r.src.endpoint = some { x with lastRx := s.clk.mono, src := r.src } ∧
      (s.sessionHears r).clk = s.clk := by
  have heard : s.sessionHears r = s.touch r.src := by simp [State.sessionHears, here]
  rw [heard]
  exact ⟨State.session?_onSession (f := fun x => { x with lastRx := s.clk.mono, src := r.src }) (fun _ => rfl) here, rfl⟩

/-- A lane keeps the instant at which its command took it. -/
theorem State.occupy_admittedAt {c : Command} {x : Session} (here : s.session? r.src.endpoint = some x)
    (inside : r.lane.toNat - 1 < x.lanes.length) : (s.occupy c r).admittedAt r = s.clk.mono :=
  congrArg Lane.admittedAt (State.lane_setLane (s := { s with pwr.idleSince := none }) here inside _)

/-- A command that takes a lane of an open session is admitted at that instant. -/
theorem State.taken_admittedAt {c : Command} {x : Session} (here : (s.begin r.dt).session? r.src.endpoint = some x)
    (inside : r.lane.toNat - 1 < x.lanes.length) : (s.taken c r).admittedAt r = (s.begin r.dt).clk.mono := by
  obtain ⟨heard, clock⟩ := State.sessionHears_open (s := (s.begin r.dt).countRetry r) (r := r)
    ((State.countRetry_session? _ _ _).trans here)
  rw [State.taken, State.occupy_admittedAt heard inside, clock, State.countRetry_clk]

/-- A pending warm reset comes at its instant and not before (R622). -/
theorem warmResetDue_leads {dt due : Ns} (running : (s.begin dt).running = true)
    (pending : (s.begin dt).link.warmDue = some due) :
    Leads (.warmResetDue dt) s (if due ≤ (s.begin dt).clk.mono then (s.begin dt).enterReset 4 else s.begin dt) := by
  have run : exec (.warmResetDue dt) s = execWarmResetDue dt s := rfl
  unfold execWarmResetDue at run
  refine leads_of_event run running ?_
  simp only [pending]

/-- Settles O10: the body sets the one pending reset, a lane keeps when its command was admitted, and the event compares
the two instants. -/
theorem warmResetComesAfterItsDelay : Obligations.WarmResetComesAfterItsDelay := by
  refine ⟨fun r s ready short => ?_, fun r s ready here low seven => ?_, fun r s ready long => ?_,
    fun dt s due running pending => ⟨fun come => ?_, fun early => ?_⟩, fun s running => ?_⟩
  · exact shotas_ok ready (if_neg (Nat.not_lt.mpr short))
  · obtain ⟨x, here⟩ := Option.ne_none_iff_exists'.mp here
    have high : r.lane.toNat ≤ 7 := by
      have header := ready.header
      simp only [Command.headerOk, Bool.and_eq_true, decide_eq_true_eq] at header
      obtain ⟨⟨-, high⟩, -⟩ := header
      exact high
    refine State.taken_admittedAt here ?_
    rw [seven x (List.mem_of_find?_eq_some here)]
    omega
  · exact shotas_done ready rfl (if_pos long)
  · simpa only [come, if_true] using warmResetDue_leads running pending
  · simpa only [Nat.not_le.mpr early, if_false] using warmResetDue_leads running pending
  · simp only [State.enterReset, running]

end

/-! ### Commands that waited (R62, R63, R77) -/

section

variable {s u : State} {ep : Endpoint} {n op st : Nat} {r : Req} {c : Command} {p : List Byte}

/-- A waiting command runs, and its result concludes its lane (R63). -/
theorem State.completes_waiting (cmd : (s.lane ep n).cmd = some (op, r)) (waits : (s.lane ep n).phase = .waiting)
    (known : s.commandOf op = some c) :
    s.completes ep n =
      s.conclude c r { s.lane ep n with phase := .idle, cmd := none, seq := (s.lane ep n).seq - 1#32 } (c.body r s) := by
  simp [State.completes, cmd, waits, known]

/-- A lane's command that ends with SUPERSEDED does no more than that (R77). -/
theorem State.completes_superseded (cmd : (s.lane ep n).cmd = some (op, r)) (overtaken : (s.lane ep n).phase = .superseded) :
    s.completes ep n =
      (s.setLane ep n { s.lane ep n with phase := .idle, cached := some (stSuperseded, []) }).respond
        r.src n r.seq op 1 stSuperseded [] := by
  simp [State.completes, State.finish, cmd, overtaken]

/-- Settles O17: the lane's phase says which of the two it is, and a transition goes lane by lane. -/
theorem waitingCommandsFinish : Obligations.WaitingCommandsFinish := by
  refine ⟨fun dt ep lane s u op st p r c running cmd waits known kept body => ?_,
    fun dt ep lane s op r running cmd overtaken => ?_, fun s x l here inside => ?_⟩
  · obtain ⟨t, next, reports⟩ := leads_of_event (i := .finalResponse dt ep lane)
      (f := fun s => s.completes ep lane.toNat) rfl running
      (State.completes_waiting cmd waits known)
    rw [body] at reports
    exact ⟨t, next, (conclude_reports _ _ _ _ kept).trans reports⟩
  · obtain ⟨t, next, reports⟩ := leads_of_event (i := .finalResponse dt ep lane)
      (f := fun s => s.completes ep lane.toNat) rfl running
      (State.completes_superseded cmd overtaken)
    exact ⟨t, next, Reports.trans (respond_bare _ _ _ _ _ _ _ _).symm reports⟩
  · obtain ⟨y, open_, rfl⟩ := List.mem_map.mp here
    obtain ⟨m, held, rfl⟩ := List.mem_map.mp inside
    exact ⟨y, open_, rfl, m, held, rfl⟩

end

/-! ### The module as shipped -/

/-- Every key slot is empty at reset, and so is a number beyond the slots. -/
theorem reset_slot (i : Nat) : State.reset.slot i = .empty := by
  show ((List.replicate 64 KeySlot.empty)[i]?).getD .empty = .empty
  rw [List.getElem?_replicate]
  split <;> rfl

/-- Settles O58: the reset state is written out, and an empty queue gives the step nothing to run. -/
theorem resetLeavesTheModuleAsShipped : Obligations.ResetLeavesTheModuleAsShipped := by
  have legal : lifecycleLegal State.reset.ks.lifecycle := Nat.zero_le 3
  have idle (s : State) (empty : s.pending = []) : step s = .next s := by simp only [step, empty]
  exact ⟨rfl, rfl, rfl, rfl, rfl, fun i => by rw [reset_slot]; rfl, rfl, rfl, rfl, rfl, rfl, rfl, rfl, rfl, rfl, rfl, rfl,
    legal, idle⟩

end Sys2Proof.Machine

/-! ## The host link's buffers and resets, and the parameter commands (spec chapter 3) -/

namespace Sys2Proof.Machine

/-! ### Effects that agree with what is stated but for reports -/

section

variable {i : Instr} {dt : Ns} {f : State → State} {s u : State}

/-- What an event of a running module leaves, where its effect there is known but for reports. -/
theorem leads_of_event_reports (exec_eq : exec i s = event dt f s) (running : (s.begin dt).running = true)
    (effect : Reports u (f (s.begin dt))) : Leads i s u := by
  obtain ⟨t, next, reports⟩ := leads_of_event exec_eq running rfl
  exact ⟨t, next, effect.trans reports⟩

/-- Bytes that pass a window meter's source change the meters alone (R500). -/
theorem State.meterBytes_perf (s : State) (source dir n : Nat) : ∃ p, s.meterBytes source dir n = { s with perf := p } := by
  unfold State.meterBytes
  split
  · exact ⟨s.perf, rfl⟩
  · exact ⟨_, rfl⟩

end

/-! ### The command buffer (R113, R114) -/

section

variable {dt : Ns} {tx : HlTx} {bytes : List Byte} {s : State}

/-- While no buffer is handed over, the command buffer takes bytes up to its 1,500, and the rest marks it as overrun (R113). -/
theorem State.hlAppend_free (free : s.hl.handed = none) :
    Reports { s with hl.cmd := s.hl.cmd ++ bytes.take (1500 - s.hl.cmd.length)
                     hl.overrun := s.hl.overrun || decide (1500 - s.hl.cmd.length < bytes.length)
                     hl.dropped := s.hl.dropped + BitVec.ofNat 16 (bytes.length - (1500 - s.hl.cmd.length)) }
      (s.hlAppend bytes) := by
  obtain ⟨p, metered⟩ := s.meterBytes_perf 2 0 bytes.length
  simp only [State.hlAppend, metered, State.hlBusy, free, Option.isSome_none, Bool.false_eq_true, if_false]
  rfl

/-- While a buffer is handed over, all bytes are dropped and counted (R114). -/
theorem State.hlAppend_busy (busy : s.hl.handed.isSome = true) :
    Reports { s with hl.dropped := s.hl.dropped + BitVec.ofNat 16 bytes.length } (s.hlAppend bytes) := by
  obtain ⟨p, metered⟩ := s.meterBytes_perf 2 0 bytes.length
  simp only [State.hlAppend, metered, State.hlBusy, busy, if_true]
  rfl

theorem State.hlRing_hands (free : s.hl.handed = none) (whole : s.hl.overrun = false) (long : 28 ≤ s.hl.cmd.length) :
    s.hlRing = { s with hl.handed := some s.hl.cmd, hl.cmd := [] } := by
  simp [State.hlRing, State.hlBusy, free, whole, Nat.not_lt.mpr long]

theorem State.hlRing_discards (free : s.hl.handed = none) (bad : s.hl.overrun = true ∨ s.hl.cmd.length < 28) :
    s.hlRing = { s with hl.cmd := [], hl.overrun := false, hl.crcShort := s.hl.crcShort + 1#16 } := by
  have idle : s.hlBusy = false := by simp [State.hlBusy, free]
  have refused : (s.hl.overrun || decide (s.hl.cmd.length < 28)) = true := by simpa using bad
  simp only [State.hlRing, idle, refused, Bool.false_eq_true, if_false, if_true]
  rfl

theorem State.hlRing_busy (busy : s.hl.handed.isSome = true) :
    s.hlRing = { s with hl.dropped := s.hl.dropped + 1#16 } := by
  simp only [State.hlRing, State.hlBusy, busy, if_true]
  rfl

/-- A write to the doorbell that rings leaves what RING leaves, cleared if it clears as well (R114). -/
theorem ring_leads {clearToo : Bool} (running : (s.begin dt).running = true) (writes : (s.begin dt).hlWrites tx = true)
    (doorbell : tx.addr = 0x084#16) :
    Leads (.ring dt tx clearToo) s (if clearToo then (s.begin dt).hlRing.hlClear else (s.begin dt).hlRing) :=
  leads_of_event (i := .ring dt tx clearToo)
    (f := fun s => if s.hlWrites tx ∧ tx.addr = 0x084#16 then (if clearToo then s.hlRing.hlClear else s.hlRing) else s)
    rfl running (if_pos ⟨writes, doorbell⟩)

/-- A write that starts in the command aperture appends its bytes (R113). -/
theorem hlCmdApertureWrite_leads {u : State} (running : (s.begin dt).running = true)
    (writes : (s.begin dt).hlWrites tx = true) (low : 0x100 ≤ tx.addr.toNat) (high : tx.addr.toNat < 0x200)
    (effect : Reports u ((s.begin dt).hlAppend bytes)) : Leads (.hlCmdApertureWrite dt tx bytes) s u :=
  leads_of_event_reports (i := .hlCmdApertureWrite dt tx bytes)
    (f := fun s => if s.hlWrites tx ∧ 0x100 ≤ tx.addr.toNat ∧ tx.addr.toNat < 0x200 then s.hlAppend bytes else s)
    rfl running (by rwa [if_pos ⟨writes, low, high⟩])

/-- Settles O12: an aperture write is `hlAppend`, a doorbell write `hlRing` or `hlClear`, each by the buffer's state. -/
theorem commandBufferFollowsTheDoorbell : Obligations.CommandBufferFollowsTheDoorbell := by
  intro dt tx bytes s running writes a
  refine ⟨fun low high free => ?_, fun low high busy => ?_, fun doorbell =>
    ⟨fun free whole long => ?_, fun free bad => ?_, fun busy => ?_, fun busy => ?_, ?_⟩⟩
  · exact hlCmdApertureWrite_leads running writes low high (State.hlAppend_free free)
  · exact hlCmdApertureWrite_leads running writes low high (State.hlAppend_busy busy)
  · exact State.hlRing_hands free whole long ▸ ring_leads (clearToo := false) running writes doorbell
  · exact State.hlRing_discards free bad ▸ ring_leads (clearToo := false) running writes doorbell
  · exact State.hlRing_busy busy ▸ ring_leads (clearToo := false) running writes doorbell
  · have rung := ring_leads (clearToo := true) running writes doorbell
    rw [if_pos rfl, State.hlRing_busy busy] at rung
    exact rung
  · exact leads_of_event (i := .clear dt tx)
      (f := fun s => if s.hlWrites tx ∧ tx.addr = 0x084#16 then s.hlClear else s) rfl running (if_pos ⟨writes, doorbell⟩)

end

/-! ### The response buffer (R115) -/

section

variable {dt : Ns} {tx : HlTx} {bytes : List Byte} {s : State}

/-- A valid read gives its bytes to the host and changes no more than the meters (R111). -/
theorem State.hlReturn_valid (valid : s.hlBadRead tx = false) :
    ∃ p, s.hlReturn tx bytes = { s with perf := p, out := s.out ++ [.hostData bytes] } := by
  obtain ⟨p, metered⟩ := s.meterBytes_perf 2 1 bytes.length
  have still : ({ s with perf := p } : State).hlBadRead tx = false := valid
  refine ⟨p, ?_⟩
  simp only [State.hlReturn, metered, still, Bool.false_eq_true, if_false]

/-- A valid read of the response aperture gives the head message's next bytes and zeros past its end, and moves on by the
bytes of the message (R115). -/
theorem State.hlConsume_valid (valid : s.hlBadRead tx = false) (n : Nat) :
    let got := ((s.hl.rsp.headD []).drop s.hl.readPos).take n
    Out.hostData (got ++ zeros (n - got.length)) ∈ (s.hlConsume tx n).out ∧
      Reports { s with hl.readPos := s.hl.readPos + got.length
                       hl.pastEnd := s.hl.pastEnd + BitVec.ofNat 16 (n - got.length) } (s.hlConsume tx n) := by
  intro got
  obtain ⟨p, returned⟩ := State.hlReturn_valid (bytes := got ++ zeros (n - got.length))
    (s := { s with hl.readPos := s.hl.readPos + got.length
                   hl.pastEnd := s.hl.pastEnd + BitVec.ofNat 16 (n - got.length) }) valid
  have consumed : s.hlConsume tx n = _ := returned
  rw [consumed]
  exact ⟨List.mem_append_right _ (List.mem_singleton.mpr rfl), rfl⟩

/-- A read that starts in the response aperture reads the response buffer (R115). -/
theorem hlRspApertureRead_next {count : Nat} (running : (s.begin dt).running = true)
    (reads : (s.begin dt).hlReads tx = true) (low : 0x200 ≤ tx.addr.toNat) (high : tx.addr.toNat < 0x300) :
    exec (.hlRspApertureRead dt tx count) s = .next ((s.begin dt).hlConsume tx count).settle := by
  have run : exec (.hlRspApertureRead dt tx count) s = execHlRspApertureRead dt tx count s := rfl
  simp only [run, execHlRspApertureRead, event, running, reads, low, high, and_self, if_true]

theorem pop_next (running : (s.begin dt).running = true) (writes : (s.begin dt).hlWrites tx = true)
    (pops : tx.addr = 0x090#16) : exec (.pop dt tx) s = .next (s.begin dt).hlPop.settle := by
  have run : exec (.pop dt tx) s = execPop dt tx s := rfl
  simp only [run, execPop, event, running, writes, pops, and_self, if_true]

theorem State.hlPop_reports (s : State) : Reports { s with hl.readPos := 0 } s.hlPop := rfl

/-- What stood behind the head message comes first (R115). -/
theorem State.hlPop_rsp (s : State) : s.hl.rsp.drop 1 <+: s.hlPop.hl.rsp := ⟨_, rfl⟩

/-- Settles O13: the aperture's read is `hlConsume`, POP is `hlPop`; what they give out, and the messages that stand behind
the head, the command's end keeps. -/
theorem responseBufferIsReadAndPopped : Obligations.ResponseBufferIsReadAndPopped := by
  refine ⟨fun dt tx count s running reads low high valid => ?_, fun dt tx s running writes pops => ?_⟩
  · intro a got
    obtain ⟨given, reports⟩ := State.hlConsume_valid (s := a) valid count
    obtain ⟨out, -⟩ := settle_handed (a.hlConsume tx count)
    exact ⟨_, hlRspApertureRead_next running reads low high, out _ given, reports.trans (reports_settle _)⟩
  · obtain ⟨-, -, stays⟩ := settle_handed (s.begin dt).hlPop
    exact ⟨_, pop_next running writes pops, (State.hlPop_reports _).trans (reports_settle _),
      (State.hlPop_rsp _).trans stays⟩

end

/-! ### Resets from the host (R117, R118) -/

section

variable {dt : Ns} {tx : HlTx} {s : State}

theorem State.hlModuleReset_resets (outside : s.pwr.state ≠ .lastGasp)
    (may : s.link.bound = false ∨ s.link.floorEp = some .host) : s.hlModuleReset = s.enterReset 5 :=
  if_pos ⟨outside, by simpa using may⟩

theorem State.hlModuleReset_ignored
    (ignored : s.pwr.state = .lastGasp ∨ (s.link.bound = true ∧ s.link.floorEp ≠ some .host)) :
    s.hlModuleReset = { s with hl.resetIgnored := s.hl.resetIgnored + 1#16 } := by
  refine if_neg fun ⟨outside, may⟩ => ?_
  obtain last | ⟨bound, other⟩ := ignored
  · exact outside last
  · simp [bound, other] at may

theorem moduleReset_leads (running : (s.begin dt).running = true) (writes : (s.begin dt).hlWrites tx = true)
    (here : tx.addr = 0x01C#16) : Leads (.moduleReset dt tx) s (s.begin dt).hlModuleReset :=
  leads_of_event (i := .moduleReset dt tx) (f := fun s => if s.hlWrites tx ∧ tx.addr = 0x01C#16 then s.hlModuleReset else s)
    rfl running (if_pos ⟨writes, here⟩)

theorem linkReset_leads {moduleToo : Bool} (running : (s.begin dt).running = true)
    (writes : (s.begin dt).hlWrites tx = true) (here : tx.addr = 0x01C#16) :
    Leads (.linkReset dt tx moduleToo) s
      (if moduleToo then (s.begin dt).hlLinkReset.hlModuleReset else (s.begin dt).hlLinkReset) :=
  leads_of_event (i := .linkReset dt tx moduleToo)
    (f := fun s => if s.hlWrites tx ∧ tx.addr = 0x01C#16 then
      (if moduleToo then s.hlLinkReset.hlModuleReset else s.hlLinkReset) else s)
    rfl running (if_pos ⟨writes, here⟩)

/-- Settles O14: LINK_RESET keeps the Holder binding and the power state, so a MODULE_RESET in the same write is judged by
them as they were. -/
theorem hostLinkResetsAct : Obligations.HostLinkResetsAct := by
  intro dt tx s running writes here a
  refine ⟨linkReset_leads (moduleToo := false) running writes here, fun outside may => ⟨?_, ?_⟩, fun ignored => ?_⟩
  · exact State.hlModuleReset_resets outside may ▸ moduleReset_leads running writes here
  · have resets : a.hlLinkReset.hlModuleReset = a.hlLinkReset.enterReset 5 := State.hlModuleReset_resets outside may
    exact resets ▸ linkReset_leads (moduleToo := true) running writes here
  · exact State.hlModuleReset_ignored ignored ▸ moduleReset_leads running writes here

end

/-! ### Committed values (R94, R95) -/

section

variable {s : State} {v : PVal}

/-- A committed value reads back, also where it is the reset value and has no entry. -/
theorem State.value_setValue_same (s : State) (id idx : Nat) (v : PVal) : (s.setValue id idx v).value id idx = v := by
  have stands (r : ParamRow) : paramDefault (s.setValue id idx v) r idx = paramDefault s r idx := rfl
  cases row : paramRow id with
  | none => simp [State.value, State.setValue, row, tget_tput_same]
  | some r =>
    by_cases reset : paramDefault s r idx = v
    · have gone : tget (s.setValue id idx v).par.vals (pkey id idx) = none := by
        simp [State.setValue, row, reset, tget_tdel_same]
      simp only [State.value, gone, row, stands, reset]
    · simp [State.value, State.setValue, row, reset, tget_tput_same]

/-- A committed value has its entry, or none where it is the reset value. -/
theorem State.setValue_vals (s : State) (id idx : Nat) (v : PVal) :
    (s.setValue id idx v).par.vals = tdel s.par.vals (pkey id idx) ∨
      (s.setValue id idx v).par.vals = tput s.par.vals (pkey id idx) v := ite_eq_or_eq _ _ _

/-- Committing a value leaves the others. -/
theorem State.value_setValue_other {id idx id' idx' : Nat} (v : PVal) (other : pkey id' idx' ≠ pkey id idx) :
    (s.setValue id idx v).value id' idx' = s.value id' idx' := by
  have kept : tget (s.setValue id idx v).par.vals (pkey id' idx') = tget s.par.vals (pkey id' idx') := by
    obtain erased | written := s.setValue_vals id idx v
    · rw [erased, tget_tdel_other _ other]
    · rw [written, tget_tput_other _ _ other]
  have stands (r : ParamRow) : paramDefault (s.setValue id idx v) r idx' = paramDefault s r idx' := rfl
  simp only [State.value, kept, stands]

/-- A key of the parameter space is that of its parameter and index. -/
theorem pkey_div_mod (k : Nat) : pkey (k / 65536) (k % 65536) = k := Nat.div_add_mod' k 65536

/-- The values of a staging area written one after another. -/
def State.writeAll (s : State) (t : Table PVal) : State :=
  t.foldl (fun s e => s.setValue (e.1 / 65536) (e.1 % 65536) e.2) s

theorem State.applied_eq_writeAll (s : State) : s.applied = s.writeAll s.link.staged := rfl

/-- Values of other keys leave a key's value. -/
theorem State.value_writeAll_absent {t : Table PVal} {k : Nat} (absent : ∀ e ∈ t, e.1 ≠ k) :
    (s.writeAll t).value (k / 65536) (k % 65536) = s.value (k / 65536) (k % 65536) := by
  induction t generalizing s with
  | nil => rfl
  | cons e t ih =>
    obtain ⟨first, rest⟩ := List.forall_mem_cons.mp absent
    have other : pkey (k / 65536) (k % 65536) ≠ pkey (e.1 / 65536) (e.1 % 65536) := by
      simpa only [pkey_div_mod] using first.symm
    exact (ih rest).trans (State.value_setValue_other e.2 other)

/-- A value of the staging area reads back, for its keys are distinct. -/
theorem State.value_writeAll {t : Table PVal} {k : Nat} (formed : twf t = true) (staged : tget t k = some v) :
    (s.writeAll t).value (k / 65536) (k % 65536) = v := by
  rw [twf_iff] at formed
  induction t generalizing s with
  | nil => cases staged
  | cons e t ih =>
    obtain ⟨above, formed⟩ := List.pairwise_cons.mp formed
    by_cases own : e.1 = k
    · subst own
      obtain rfl : e.2 = v := by simpa [tget] using staged
      exact (State.value_writeAll_absent fun x later => (above x later).ne').trans (State.value_setValue_same _ _ _ _)
    · exact ih formed (by simpa [tget, own] using staged)

end

/-! ### PARAM_SET, PARAM_COMMIT and PARAM_ABORT (R91–R98) -/

section

variable {r : Req} {s u : State} {es : List (Nat × List Byte)} {p : List Byte}

/-- Entries of which one fails its checks: the whole command answers that status (R91). -/
theorem paramSetBody_refused (parsed : setEntries r.payload = some es) (nonempty : es ≠ []) (few : es.length ≤ 64)
    (refused : (s.stage (r.src = .uart) s.link.staged es).1 ≠ stOk) :
    paramSetBody r s = fail (s.stage (r.src = .uart) s.link.staged es).1 s := by
  have counted : ¬ (es.isEmpty = true ∨ 64 < es.length) := by simp [nonempty, few]
  simp only [paramSetBody, parsed, Option.getD_some, counted, refused, if_false, ne_eq, not_false_eq_true, if_true]

/-- Entries that pass are staged together, within the staging area (R92, R93). -/
theorem paramSetBody_stages (parsed : setEntries r.payload = some es) (nonempty : es ≠ []) (few : es.length ≤ 64)
    (passed : (s.stage (r.src = .uart) s.link.staged es).1 = stOk)
    (ids : stagedIds (s.stage (r.src = .uart) s.link.staged es).2 ≤ 256)
    (size : stagedBytes (s.stage (r.src = .uart) s.link.staged es).2 ≤ 8192) :
    paramSetBody r s =
      ok [] { s with link.staged := (s.stage (r.src = .uart) s.link.staged es).2, link.stagedAt := s.clk.mono } := by
  have counted : ¬ (es.isEmpty = true ∨ 64 < es.length) := by simp [nonempty, few]
  simp only [paramSetBody, parsed, Option.getD_some, counted, passed, Nat.not_lt.mpr ids, Nat.not_lt.mpr size, or_self,
    ne_eq, not_true_eq_false, if_false]

theorem paramCommitBody_empty (empty : s.link.staged = []) : paramCommitBody r s = ok (u16 0) s := by
  simp only [paramCommitBody, empty, List.isEmpty_nil, if_true]

theorem paramCommitBody_refused (staged : s.link.staged ≠ []) (refused : s.applied.rulesStatus ≠ stOk) :
    paramCommitBody r s = fail s.applied.rulesStatus s := by
  simp [paramCommitBody, staged, refused]

theorem paramCommitBody_commits (staged : s.link.staged ≠ []) (passed : s.applied.rulesStatus = stOk) :
    paramCommitBody r s = s.commitAnswer (s.commit (classCode r.src)) r (u16 (stagedIds s.link.staged)) := by
  simp [paramCommitBody, staged, passed]

/-- A commit none of whose plan items waits for room is answered at once, and the UART's rate follows (R48, R224). -/
theorem State.commitAnswer_now (noneWaits : u.plan.held.length ≤ s.plan.held.length) :
    s.commitAnswer u r p = .doneThen stOk p u State.adoptRate := by
  unfold State.commitAnswer
  split
  · exact if_neg (Nat.not_lt.mpr noneWaits)
  · rfl

/-- A commit of which plan items wait for room is answered with the last of them (R224). -/
theorem State.commitAnswer_held {it : Item} {rest : List (Item × Option (Endpoint × Nat × List Byte))}
    (more : s.plan.held.length < u.plan.held.length) (last : u.plan.held = rest ++ [(it, none)]) :
    s.commitAnswer u r p =
      .wait { u with plan.held := rest ++ [(it, some (r.src.endpoint, r.lane.toNat, p))] } := by
  have newest : u.plan.held.reverse = (it, none) :: rest.reverse := by simp [last]
  simp only [State.commitAnswer, newest, more, if_true, List.reverse_cons, List.reverse_reverse]

theorem bare_adoptRate (s : State) : s.adoptRate.bare = { s.bare with link.uartRate := s.num 0x2001 } := rfl

/-- The committed rate is adopted alike in states that agree but for reports. -/
theorem Reports.adoptRate {t : State} (agree : Reports u t) : Reports u.adoptRate t.adoptRate := by
  obtain ⟨identity, -⟩ := agree.same
  have rate : u.num 0x2001 = t.num 0x2001 :=
    State.num_congr agree.params.symm identity.symm (agree.at fun s => s.qm.specs).symm _ _
  rw [Reports, bare_adoptRate, bare_adoptRate, rate, agree.eq]

/-- The lane's answer leaves the committed rate to be adopted. -/
theorem State.answered_adoptRate (u : State) (r : Req) (st : Nat) (p : List Byte) :
    (u.answered r st p).adoptRate = ({ u with link.uartRate := u.num 0x2001 } : State).answered r st p := by
  have rate : (u.answered r st p).num 0x2001 = u.num 0x2001 := State.num_congr rfl rfl rfl _ _
  rw [State.adoptRate, rate]
  rfl

/-- A commit that is answered at once leaves its state at the committed rate (R48). -/
theorem paramCommit_answers (ready : Ready paramCommitCommand r s)
    (body : paramCommitBody r (s.taken paramCommitCommand r) = .doneThen stOk p u State.adoptRate) :
    Answers (.paramCommit r) r s p { u with link.uartRate := u.num 0x2001 } := by
  rw [Answers, ← State.answered_adoptRate]
  exact shotas_doneThen ready body fun _ _ agree => Reports.adoptRate agree

/-- Settles O18: the branches of the three commands' bodies, and that applying a table with distinct keys writes each of its
values once. -/
theorem parametersAreStagedThenCommitted : Obligations.ParametersAreStagedThenCommitted := by
  refine ⟨fun r s es ready parsed nonempty few => ?_, fun r s ready => ?_, fun r s ready => shotas_ok ready rfl,
    fun s k v formed staged => State.applied_eq_writeAll s ▸ State.value_writeAll formed staged⟩
  · intro a x
    exact ⟨fun passed ids size => shotas_ok ready (paramSetBody_stages parsed nonempty few passed ids size),
      fun refused kept => shotas_done ready kept (paramSetBody_refused parsed nonempty few refused)⟩
  · intro a
    refine ⟨fun empty => shotas_ok ready (paramCommitBody_empty empty), fun staged passed => ?_,
      fun staged refused kept => shotas_done ready kept (paramCommitBody_refused staged refused)⟩
    have body : paramCommitBody r a = _ := paramCommitBody_commits staged passed
    exact ⟨fun noneWaits => paramCommit_answers ready (body.trans (State.commitAnswer_now noneWaits)),
      fun it rest more last => shotas_wait ready (body.trans (State.commitAnswer_held more last))⟩

end

/-! ### PARAM_GET (R87, R89, R90) -/

section

variable {r : Req} {s : State} {id : Nat}

@[simp] theorem entries_length (n : Nat) (p : List Byte) : (entries n p).length = fld p 0 2 := by
  simp [entries]

theorem paramGetBody_one {row : ParamRow} (asked : (entries 2 r.payload).map fromLe = [id]) (known : paramRow id = some row)
    (fits : 4 + (s.paramEntry row).1.length ≤ 1472) :
    paramGetBody r s = ok (u16 1 ++ u16 0 ++ (s.paramEntry row).1) (s.paramEntry row).2 := by
  simp [paramGetBody, asked, known, Nat.not_lt.mpr fits]

theorem paramGetBody_unknown (asked : (entries 2 r.payload).map fromLe = [id]) (unknown : paramRow id = none) :
    paramGetBody r s = fail stUnsupported s := by
  simp [paramGetBody, asked, unknown]

theorem paramGetBody_count (count : fld r.payload 0 2 = 0 ∨ 64 < fld r.payload 0 2) : paramGetBody r s = fail stRange s := by
  have outside : ((entries 2 r.payload).map fromLe).isEmpty = true ∨ 64 < ((entries 2 r.payload).map fromLe).length := by
    simpa only [List.isEmpty_iff_length_eq_zero, List.length_map, entries_length] using count
  simp only [paramGetBody, outside, if_true]

/-- Settles O19: the three branches of the command's body. -/
theorem paramGetShowsItsParameters : Obligations.ParamGetShowsItsParameters := by
  refine ⟨fun r s id row ready asked known => ?_, fun r s id ready asked unknown => ?_, fun r s ready count => ?_⟩
  · intro a fits
    exact shotas_ok ready (paramGetBody_one asked known fits)
  · exact shotas_done ready rfl (paramGetBody_unknown asked unknown)
  · exact shotas_done ready rfl (paramGetBody_count count)

end

end Sys2Proof.Machine

/-! ## The light plan (spec chapter 4) -/

namespace Sys2Proof.Machine

/-! ### Operations that leave the light plan alone

What Promenade, the queues, the peer messages and the output chain do changes no part of the light plan; what they report is
erased by `bare`, which keeps the plan. -/

/-- What every step of a fold keeps, the fold keeps. -/
theorem foldl_keeps {σ α β : Type} (g : σ → β) {f : σ → α → σ} (keeps : ∀ s a, g (f s a) = g s) (l : List α) (s : σ) :
    g (l.foldl f s) = g s :=
  (List.foldl_hom g (g₂ := fun b _ => b) fun s a => (keeps s a).symm).symm.trans (List.foldl_fixed l)

section

variable (s : State)

@[simp] theorem bump_plan (id idx n : Nat) : (s.bump id idx n).plan = s.plan := by
  unfold State.bump
  split <;> rfl

@[simp] theorem perfEdge_plan (event what n : Nat) : (s.perfEdge event what n).plan = s.plan :=
  Reports.at (perfEdge_bare s event what n).symm State.plan

@[simp] theorem meterBytes_plan (source dir n : Nat) : (s.meterBytes source dir n).plan = s.plan :=
  Reports.at (meterBytes_bare s source dir n).symm State.plan

@[simp] theorem send_plan (dst : Source) (express : Bool) (bytes : List Byte) : (s.send dst express bytes).plan = s.plan :=
  Reports.at (send_bare s dst express bytes).symm State.plan

@[simp] theorem raise_plan (opcode unit : Nat) (payload : List Byte) : (s.raise opcode unit payload).plan = s.plan :=
  Reports.at (raise_bare s opcode unit payload).symm State.plan

@[simp] theorem histFrom_plan (graph flow : Nat) (r : HistRec) : (s.histFrom graph flow r).plan = s.plan :=
  Reports.at (histFrom_bare s graph flow r).symm State.plan

@[simp] theorem crossed_plan (q d : Nat) : (s.crossed q d).plan = s.plan := by
  unfold State.crossed State.queueLevel
  split
  · dsimp only
    split <;> simp
  · rfl

@[simp] theorem put_plan (q : Nat) (it : Item) : (s.put q it).plan = s.plan := by
  simp [State.put]

@[simp] theorem offer_plan (q : Nat) (it : Item) : (s.offer q it).plan = s.plan := by
  unfold State.offer
  split <;> simp

@[simp] theorem take_plan (q i : Nat) : (s.take q i).plan = s.plan := by
  simp [State.take]

@[simp] theorem push03_plan (graph flow : Nat) (origin : Ns) (c : DriveCmd) : (s.push03 graph flow origin c).plan = s.plan := by
  rw [State.push03, histFrom_plan]
  split <;> simp

@[simp] theorem noteMoved_plan (p : Pid) (asked given : Ns) : (s.noteMoved p asked given).plan = s.plan := by
  unfold State.noteMoved
  split <;> rfl

@[simp] theorem peerPut_plan (l : PeerLane) (opcode : Nat) (payload : List Byte) (handover : Option Nat) :
    (s.peerPut l opcode payload handover).plan = s.plan := by
  rw [State.peerPut, send_plan]
  rfl

@[simp] theorem flushPeersFrom_plan (l : List Item) : (s.flushPeersFrom l).plan = s.plan := by
  induction l generalizing s with
  | nil => rfl
  | cons it l ih =>
    rw [State.flushPeersFrom, ih]
    split
    · split
      · rw [peerPut_plan, foldl_keeps State.plan fun s _ => take_plan s _ _]
      · rfl
    · rfl

@[simp] theorem putPeer_plan (it : Item) (payload : List Byte) : (s.putPeer it payload).plan = s.plan := by
  unfold State.putPeer
  dsimp only
  split
  · exact bump_plan _ _ _ _
  · rw [State.flushPeers, flushPeersFrom_plan, foldl_keeps State.plan fun s _ => by split <;> simp]
    split <;> simp

@[simp] theorem peerSend_plan (m : Mac) (opcode handover : Nat) (payload : List Byte) :
    (s.peerSend m opcode handover payload).plan = s.plan := by
  unfold State.peerSend
  dsimp only
  split
  · rfl
  · rw [putPeer_plan, State.gather]

@[simp] theorem cancelAll_plan (l : List Handover) (reason : Nat) (launch : Ns) : (s.cancelAll l reason launch).plan = s.plan :=
  foldl_keeps State.plan (fun _ _ => peerSend_plan _ _ _ _ _) _ _

@[simp] theorem trackRecord_plan (t : Track) (event : Nat) (stamp : Ns) : (s.trackRecord t event stamp).plan = s.plan := by
  unfold State.trackRecord State.progHist
  dsimp only
  split
  · rfl
  · rw [histFrom_plan, State.gather]

@[simp] theorem promLoad_plan (refused late deferred : Nat) : (s.promLoad refused late deferred).plan = s.plan := by
  unfold State.promLoad
  dsimp only
  split
  · exact raise_plan _ _ _ _
  · rfl

@[simp] theorem settleBatch_plan (number : Nat) (launch : Ns) : (s.settleBatch number launch).plan = s.plan := by
  unfold State.settleBatch
  split
  · split
    · rfl
    · dsimp only
      split
      · rw [promLoad_plan, bump_plan]
      · rfl
  · rfl

@[simp] theorem onCover_plan (p : Pid) (f : PointCover → PointCover) : (s.onCover p f).plan = s.plan := rfl

@[simp] theorem turn_plan (p : Pid) (up : Bool) (t : Ns) : (s.turn p up t).plan = s.plan := by
  unfold State.turn
  dsimp only
  split
  · rfl
  · split <;> simp

@[simp] theorem onCircuit_plan (c : Nat) (f : ChainCircuit → ChainCircuit) : (s.onCircuit c f).plan = s.plan := rfl

@[simp] theorem switch_plan (c : Nat) (on : Bool) : (s.switch c on).plan = s.plan := by
  rw [State.switch, State.hist, histFrom_plan, raise_plan]
  exact bump_plan _ _ _ _

@[simp] theorem follow_plan (c : Nat) : (s.follow c).plan = s.plan := by
  simp only [State.follow, apply_ite State.plan, onCircuit_plan, switch_plan, ite_self]

@[simp] theorem demandNow_plan (c : Nat) : (s.demandNow c).plan = s.plan := by
  simp only [State.demandNow, apply_ite State.plan, onCircuit_plan, ite_self]

@[simp] theorem demandAll_plan : s.demandAll.plan = s.plan := by
  unfold State.demandAll State.followAll
  split
  · exact foldl_keeps State.plan demandNow_plan _ _
  · exact (foldl_keeps State.plan follow_plan _ _).trans (foldl_keeps State.plan demandNow_plan _ _)

@[simp] theorem nodeState_plan (e : Eui) (new : Nat) : (s.nodeState e new).plan = s.plan := by
  unfold State.nodeState State.hist
  split
  · rfl
  · split
    · rfl
    · rw [histFrom_plan, raise_plan]
      rfl

end

/-! ### Operations that leave the lamp records alone

Drive commands are kept in the plan while they can be revised, so issuing one changes the plan, but never its lamp records. -/

section

variable (s : State)

@[simp] theorem setLive_lamps (l : List DriveCmd) : (s.setLive l).plan.lamps = s.plan.lamps := rfl

@[simp] theorem revise_lamps (graph flow : Nat) (origin : Ns) (old new : DriveCmd) :
    (s.revise graph flow origin old new).plan.lamps = s.plan.lamps := by
  unfold State.revise
  dsimp only
  split
  · rfl
  · rw [apply_ite State.plan, histFrom_plan, push03_plan, State.setQueue_plan, ite_self, setLive_lamps]

@[simp] theorem reviseLater_lamps (graph flow : Nat) (origin : Ns) (p : Pid) :
    (s.reviseLater graph flow origin p).plan.lamps = s.plan.lamps := by
  unfold State.reviseLater
  split
  · rfl
  · refine foldl_keeps (fun s : State => s.plan.lamps) (fun s c => ?_) _ s
    split
    · exact revise_lamps _ _ _ _ _ _
    · rfl

@[simp] theorem issue_lamps (graph flow : Nat) (origin : Ns) (c : DriveCmd) :
    (s.issue graph flow origin c).plan.lamps = s.plan.lamps := by
  rw [State.issue, reviseLater_lamps]
  split <;> simp

@[simp] theorem emitGood_lamps (graph flow : Nat) (origin : Ns) (want : DriveCmd) :
    (s.emitGood graph flow origin want).1.plan.lamps = s.plan.lamps := by
  unfold State.emitGood
  dsimp only
  split
  · rfl
  · split
    · rfl
    · split
      · rfl
      · simp

@[simp] theorem planLate_lamps (discarded recovered : Nat) : (s.planLate discarded recovered).plan.lamps = s.plan.lamps := by
  unfold State.planLate
  dsimp only
  split
  · rw [raise_plan]
  · rfl

@[simp] theorem discarded_lamps (c : DriveCmd) : (s.discarded c).plan.lamps = s.plan.lamps := by
  unfold State.discarded State.recover
  dsimp only
  generalize (if c.source = 5 then c.base else c.source) = source
  split
  · rw [planLate_lamps, emitGood_lamps, bump_plan]
  · exact planLate_lamps _ _ _

@[simp] theorem emit_lamps (graph flow : Nat) (origin : Ns) (want : DriveCmd) :
    (s.emit graph flow origin want).1.plan.lamps = s.plan.lamps := by
  unfold State.emit
  split <;> simp

@[simp] theorem fall_lamps (graph flow : Nat) (origin : Ns) (p : Pid) (launch : Ns) :
    (s.fall graph flow origin p launch).1.plan.lamps = s.plan.lamps := by
  unfold State.fall
  dsimp only
  split
  · simp
  · split <;> simp

@[simp] theorem closePoint_lamps (graph flow : Nat) (origin : Ns) (p : Pid) (number : Nat) (nominal : Ns) :
    (s.closePoint graph flow origin p number nominal).1.plan.lamps = s.plan.lamps := by
  unfold State.closePoint
  dsimp only
  split
  · rfl
  · split
    · rw [fall_lamps]
      split <;> simp
    · rfl

theorem pushCover_closes_lamps (origin : Ns) (p : Pid) (number : Nat) (at_ : Ns) :
    (s.pushCover origin p number false at_).1.plan.lamps = s.plan.lamps := by
  unfold State.pushCover State.pushInside
  dsimp only
  split
  · rfl
  · split
    · split <;> simp
    · exact closePoint_lamps _ _ _ _ _ _ _

theorem pushCovers_closes_lamps (origin : Ns) (ps : List Pid) (number : Nat) (at_ : Ns) :
    (s.pushCovers origin ps number false at_).1.plan.lamps = s.plan.lamps := by
  refine foldl_keeps (fun x : State × List PushRec => x.1.plan.lamps) (fun x p => ?_) ps (s, [])
  exact pushCover_closes_lamps x.1 origin p number at_

@[simp] theorem endTrack_lamps (n : Nat) (origin at_ : Ns) (event reason : Nat) (taken : Option Nat) :
    (s.endTrack n origin at_ event reason taken).1.plan.lamps = s.plan.lamps := by
  unfold State.endTrack
  split
  · rfl
  · dsimp only
    rw [pushCovers_closes_lamps]
    split <;> simp

@[simp] theorem cutTrack_lamps (n reason : Nat) : (s.cutTrack n reason).plan.lamps = s.plan.lamps := by
  unfold State.cutTrack
  dsimp only
  split <;> simp

@[simp] theorem graphChange_lamps (sections junctions : List Nat) (points : List Pid) (spots : List (Nat × Int)) :
    (s.graphChange sections junctions points spots).plan.lamps = s.plan.lamps := by
  refine foldl_keeps (fun s : State => s.plan.lamps) (fun s e => ?_) _ s
  exact cutTrack_lamps s e.1 3

end

/-! ### Commands whose answer waits for their plan items (R224) -/

section

variable {i : Instr} {c : Command} {r : Req} {s b : State} {cs : List DriveCmd} {p : List Byte}

/-- A change that makes no items, or none of whose items is the last that waits unanswered, is answered at once. -/
theorem State.planAnswer_now
    (noneWaits : cs = [] ∨ ∀ it rest, (b.planChange cs none).plan.held ≠ rest ++ [(it, none)]) :
    b.planAnswer r cs p = ok p (b.planChange cs none) := by
  unfold State.planAnswer
  dsimp only
  split
  · rfl
  next it w rest newest =>
    refine if_pos (noneWaits.imp List.isEmpty_iff.mpr fun answered => ?_)
    cases w with
    | none => exact absurd (List.reverse_eq_cons_iff.mp newest) (answered it rest.reverse)
    | some w => rfl

/-- A change whose last item waits for room is answered with that item. -/
theorem State.planAnswer_waits {it : Item} {rest : List (Item × Option (Endpoint × Nat × List Byte))} (nonempty : cs ≠ [])
    (last : (b.planChange cs none).plan.held = rest ++ [(it, none)]) :
    b.planAnswer r cs p = .wait { b.planChange cs none with
      plan.held := rest ++ [(it, some (r.src.endpoint, r.lane.toNat, p))] } := by
  have newest : (b.planChange cs none).plan.held.reverse = (it, none) :: rest.reverse := by simp [last]
  simp [State.planAnswer, newest, nonempty]

/-- A command whose body ends with a plan change answers with it. -/
theorem planAnswers_of_body (exec_eq : exec i s = shotas c r s) (ready : Ready c r s)
    (body : c.body r (s.taken c r) = b.planAnswer r cs p) : PlanAnswers i r s cs p b := by
  refine ⟨fun noneWaits => ?_, fun it rest nonempty last => ?_⟩
  · rw [Answers, Leads, exec_eq]
    exact shotas_ok ready (body.trans (State.planAnswer_now noneWaits))
  · rw [Leads, exec_eq]
    exact shotas_wait ready (body.trans (State.planAnswer_waits nonempty last))

end

/-! ### Overrides (R140–R146) -/

section

variable {dt : Ns} {s : State} {h : Nat} {o : Override}

theorem overrideSetBody_late {r : Req} (accepted : s.overrideRefused r.payload = none)
    (late : fld r.payload 24 8 ≤ s.admittedTb r) : overrideSetBody r s = fail stTooLate s := by
  simp only [overrideSetBody, accepted, late, true_or, if_true]

/-- An earlier override of the handle ends where the new one starts (R142). -/
theorem replaceHandle_finish {start : Ns} {sent : Bool} {l : List Override} (mem : o ∈ replaceHandle h start sent l)
    (named : o.handle = h) : o.finish ≤ start := by
  obtain ⟨x, -, rfl⟩ := List.mem_map.mp mem
  by_cases ends : x.handle = h ∧ start < x.finish
  · simp only [ends, and_self, if_true, le_refl]
  · rw [if_neg ends] at named ⊢
    exact Nat.not_lt.mp fun later => ends ⟨named, later⟩

theorem replaceHandle_other {start : Ns} {sent : Bool} {l : List Override} (mem : o ∈ l) (other : o.handle ≠ h) :
    o ∈ replaceHandle h start sent l :=
  List.mem_map.mpr ⟨o, List.mem_filter.mpr ⟨mem, by simp [other]⟩, if_neg fun ⟨same, _⟩ => other same⟩

/-- What would not have begun by the end is withdrawn (R145). -/
theorem endOverride_eq_none {t : Ns} {fade : Nat} : endOverride t fade o = none ↔ t ≤ o.start := by
  unfold endOverride
  split
  next withdrawn => simp [withdrawn]
  next begun => split <;> simpa using begun

theorem endOverride_ends {t : Ns} {fade : Nat} {o' : Override} (ended : endOverride t fade o = some o') :
    o'.finish ≤ t ∧ o'.handle = o.handle := by
  unfold endOverride at ended
  split at ended
  · cases ended
  · split at ended <;> obtain rfl := Option.some.inj ended
    · exact ⟨le_rfl, rfl⟩
    next stays => exact ⟨Nat.not_lt.mp stays, rfl⟩

/-- OVERRIDE_START of an override whose start has come marks it begun, and issues what was not issued before (R146). -/
theorem overrideStart_leads (running : (s.begin dt).running = true)
    (found : (s.begin dt).plan.overrides.find? (fun o => o.handle == h && !o.begun && decide (o.start ≤ (s.begin dt).tb)) = some o) :
    let b := ((s.begin dt).onOverride h o.start (fun o => { o with begun := true, startSent := true })).floorExempt o 1
    Leads (.overrideStart dt h) s
      (if o.startSent then b else b.planChange (b.overrideCmds o (b.tb + b.num 0x3023 * ms) o.fade) none).demandAll := by
  intro b
  have exec_eq : exec (.overrideStart dt h) s = execOverrideStart dt h s := rfl
  unfold execOverrideStart at exec_eq
  refine leads_of_event exec_eq running ?_
  rw [found]

/-- OVERRIDE_END of an override whose end has come removes it, and issues what was not issued before (R145, R146). -/
theorem overrideEnd_leads (running : (s.begin dt).running = true)
    (found : (s.begin dt).plan.overrides.find? (fun o => o.handle == h && decide (o.finish ≤ (s.begin dt).tb)) = some o) :
    let b := { s.begin dt with plan.overrides := (s.begin dt).plan.overrides.filter (fun x => x != o) }
    let c := if o.begun then b.floorExempt o 2 else b
    Leads (.overrideEnd dt h) s
      (if o.endSent then c else c.planChange (c.overrideCmds o (c.tb + c.num 0x3023 * ms) o.endFade) none).demandAll := by
  intro b c
  have exec_eq : exec (.overrideEnd dt h) s = execOverrideEnd dt h s := rfl
  unfold execOverrideEnd at exec_eq
  refine leads_of_event exec_eq running ?_
  rw [found]

end

/-- Settles O20: the branches of the two commands' bodies, whose plan items are answered as R224 says, the two events, and what
replacing and ending an override leaves of it. -/
theorem overridesStartEndAndReplace : Obligations.OverridesStartEndAndReplace := by
  refine ⟨fun r s ready => ?_, fun r s ready => ?_, fun dt h s o => overrideStart_leads, fun dt h s o => overrideEnd_leads,
    fun h start sent l o => ⟨replaceHandle_finish, replaceHandle_other⟩,
    fun o t fade => ⟨endOverride_eq_none, fun _ => endOverride_ends⟩⟩
  · intro a p admitted eff o earlier stored b cs accepted
    have passes : a.overrideRefused r.payload = none := accepted
    refine ⟨fun early inTime bounded => planAnswers_of_body rfl ready ?_, fun late => shotas_done ready rfl ?_⟩
    · have timely : ¬ (fld p 24 8 ≤ admitted ∨ (fld p 32 4 ≠ 0xFFFFFFFF ∧ fld p 16 8 + fld p 32 4 * ms < admitted)) :=
        fun late => late.elim (Nat.not_le.mpr early) fun ⟨bound, past⟩ =>
          inTime.elim bound fun within => absurd past (Nat.not_lt.mpr within)
      show overrideSetBody r a = _
      unfold overrideSetBody
      simp only [passes]
      exact (if_neg timely).trans (if_neg bounded)
    · exact overrideSetBody_late passes late
  · intro a h fade t named b handle short
    have formed : ¬ ((255 < h ∧ h ≠ 0xFFFF) ∨ 60000 < fade) := by omega
    exact planAnswers_of_body rfl ready (if_neg formed)

/-! ### Lamp types and records (R168, R169) -/

section

variable (s : State)

/-- LAMP_SET's store of one record changes the records by that record alone. -/
theorem storeLamp_lamps (l : Lamp) : (s.storeLamp l).plan.lamps = tput s.plan.lamps (pointKey l.point) l := by
  unfold State.storeLamp
  refine (foldl_keeps (fun s : State => s.plan.lamps) (fun s ch => ?_) (List.range 2) _).trans ?_
  · refine iteInduction (motive := fun t : State => t.plan.lamps = s.plan.lamps) (fun _ => ?_) fun _ => rfl
    split <;> rfl
  · dsimp only
    split
    · split <;> simp
    · rfl

theorem removeLamp_lamps (p : Pid) : (s.removeLamp p).plan.lamps = tdel s.plan.lamps (pointKey p) := by
  unfold State.removeLamp
  dsimp only
  split <;> simp [State.setMap, State.putNode]

theorem removeLamps_lamps (ps : List Pid) :
    (ps.foldl State.removeLamp s).plan.lamps = ps.foldl (fun t p => tdel t (pointKey p)) s.plan.lamps :=
  (List.foldl_hom (fun s : State => s.plan.lamps) fun s p => (removeLamp_lamps s p).symm).symm

end

section

variable {r : Req} {s : State}

/-- Records that pass their checks and fit the table are stored, and their points relaunched (R168, R157). -/
theorem lampSetBody_stores (nonempty : (entries 16 r.payload).map lampAt ≠ [])
    (accepted : firstRefusal (((entries 16 r.payload).map lampAt).map s.lampRefused) = none)
    (fits : (s.tablePoints (((entries 16 r.payload).map lampAt).foldl (fun t l => tput t (pointKey l.point) l)
      s.plan.lamps)).length ≤ min 4096 s.pointsFitted) :
    let ls := (entries 16 r.payload).map lampAt
    let moved := ls.filter (fun l => ((s.lampOf l.point).map (fun o => o.type)) != some l.type)
    lampSetBody r s = ((ls.foldl State.storeLamp s).reconfigure (moved.map (fun l => l.point))).demandAll.relaunchAnswer r
      (ls.map (fun l => l.point)) [] := by
  obtain ⟨most, fitted⟩ := Nat.le_min.mp fits
  simp only [lampSetBody, List.isEmpty_iff, nonempty, accepted, Nat.not_lt.mpr most, Nat.not_lt.mpr fitted, if_false]

theorem lampRemoveBody_removes (nonempty : ((entries 6 r.payload).map (fun b => pidAt b 0)).dedup ≠ [])
    (accepted : firstRefusal (((entries 6 r.payload).map (fun b => pidAt b 0)).dedup.map s.pointRefused) = none) :
    let gone := ((entries 6 r.payload).map (fun b => pidAt b 0)).dedup.filter (fun p => (s.lampOf p).isSome)
    lampRemoveBody r s = ok (u16 gone.length ++ u16 0) (gone.foldl State.removeLamp s).demandAll := by
  simp only [lampRemoveBody, List.isEmpty_iff, nonempty, accepted, if_false]

/-- Settles O21: the branches of the three commands' bodies, and that storing a record writes its key of the table alone, as
nothing of a graph change touches the records. -/
theorem lampTypesAndRecordsAreStored : Obligations.LampTypesAndRecordsAreStored := by
  refine ⟨fun r s ready => ?_, fun r s ready => ?_, fun s l => ⟨?_, fun k other => ?_⟩, fun r s ready => ?_⟩
  · intro a ts used nonempty few valid clash
    have ranged : ¬ (ts.isEmpty = true ∨ 16 < ts.length ∨ (!ts.all typeOk) = true) := by
      simpa [nonempty, few] using valid
    exact ⟨fun clear => planAnswers_of_body rfl ready ((if_neg ranged).trans (if_neg (Bool.eq_false_iff.mp clear))),
      fun clashes => shotas_done ready rfl ((if_neg ranged).trans (if_pos clashes))⟩
  · intro a ls moved nonempty accepted fits
    exact planAnswers_of_body rfl ready (lampSetBody_stores nonempty accepted fits)
  · rw [storeLamp_lamps, tget_tput_same]
  · rw [storeLamp_lamps, tget_tput_other _ _ other]
  · intro a ps gone nonempty accepted
    exact shotas_ok ready (lampRemoveBody_removes nonempty accepted)

end

/-! ### What LAMP_REMOVE leaves (R169) -/

section

variable {s : State}

/-- A read after several keys are erased. -/
theorem tget_foldl_tdel {α β : Type} (key : β → Nat) (l : List β) (t : Table α) (k : Nat) :
    tget (l.foldl (fun t b => tdel t (key b)) t) k = if k ∈ l.map key then none else tget t k := by
  induction l generalizing t with
  | nil => simp
  | cons b l ih =>
    rw [List.foldl_cons, ih]
    by_cases here : k = key b
    · subst here
      simp [tget_tdel_same]
    · simp [tget_tdel_other t here, here]

/-- A point that a command may name is one of the module's own (R25). -/
theorem lampOf_of_named {p : Pid} (named : s.pointRefused p = none) : s.lampOf p = tget s.plan.lamps (pointKey p) := by
  refine if_pos (by_contra fun foreign => ?_)
  have refused : s.pidRefused p = some stRange := if_pos (.inl foreign)
  unfold State.pointRefused at named
  split at named
  · cases named
  · exact absurd (refused.symm.trans named) nofun

theorem firstRefusal_eq_none {l : List (Option Nat)} (passed : firstRefusal l = none) : ∀ x ∈ l, x = none := by
  unfold firstRefusal at passed
  split at passed
  · cases passed
  · exact fun x mem => List.findSome?_eq_none_iff.mp passed x mem

/-- LAMP_REMOVE leaves no record of a point that it names: it had none, or its record is removed. -/
theorem lampRemove_leaves_none {ps : List Pid} (accepted : firstRefusal (ps.map s.pointRefused) = none) {p : Pid}
    (named : p ∈ ps) :
    tget ((ps.filter (fun p => (s.lampOf p).isSome)).foldl State.removeLamp s).demandAll.plan.lamps (pointKey p) = none := by
  rw [demandAll_plan, removeLamps_lamps, tget_foldl_tdel]
  split
  · rfl
  next stays =>
    rw [← lampOf_of_named (firstRefusal_eq_none accepted _ (List.mem_map_of_mem named))]
    exact Option.not_isSome_iff_eq_none.mp fun recorded =>
      stays (List.mem_map_of_mem (List.mem_filter.mpr ⟨named, recorded⟩))

end

/-! ### TYPE_GET's types (Table 4.8) -/

section

theorem slice_append_left {a : List Byte} (b : List Byte) {n : Nat} (whole : a.length = n) : slice (a ++ b) 0 n = a := by
  rw [slice, List.drop_zero, List.take_left' whole]

theorem slice_append_right (a b : List Byte) {off n : Nat} (behind : a.length ≤ off) :
    slice (a ++ b) off n = slice b (off - a.length) n := by
  rw [slice, slice, List.drop_append, List.drop_eq_nil_of_le behind, List.nil_append]

/-- The n-th of several parts of one length. -/
theorem slice_flatten_map {α : Type} {f : α → List Byte} {k : Nat} (part : ∀ a, (f a).length = k) {l : List α} {n : Nat}
    {a : α} (here : l[n]? = some a) : slice (l.map f).flatten (k * n) k = f a := by
  induction l generalizing n with
  | nil => simp at here
  | cons b l ih =>
    rw [List.map_cons, List.flatten_cons]
    cases n with
    | zero =>
      obtain rfl : b = a := by simpa using here
      exact slice_append_left _ (part b)
    | succ n =>
      rw [slice_append_right _ _ (by rw [part, Nat.mul_succ]; omega), part, Nat.mul_succ, Nat.add_sub_cancel]
      exact ih (by simpa using here)

@[simp] theorem LampType.bytes_length (t : LampType) : t.bytes.length = 12 := by
  simp [LampType.bytes]

/-- The entry of TYPE_GET for a type: the stored type, or the factory's (R350). -/
def State.typeEntry (s : State) (i : Nat) : List Byte :=
  ((tget s.plan.types i).map LampType.bytes).getD (LampType.factory i 0).bytes

/-- The payload of TYPE_GET. -/
def State.typeTable (s : State) : List Byte := u16 16 ++ u16 0 ++ ((List.range 16).map s.typeEntry).flatten

variable (s : State)

theorem typeGetBody_eq (r : Req) : typeGetBody r s = ok s.typeTable s := rfl

@[simp] theorem State.typeEntry_length (i : Nat) : (s.typeEntry i).length = 12 := by
  unfold State.typeEntry
  cases tget s.plan.types i <;> simp

theorem State.typeTable_length : s.typeTable.length = 196 := by
  simp [State.typeTable, List.length_flatten, Function.comp_def]

theorem State.typeTable_count : fld s.typeTable 0 2 = 16 := by
  rw [State.typeTable, List.append_assoc]
  exact fld_le_append 2 16 _

variable {s}

theorem State.typeTable_entry {i : Nat} {t : LampType} (stored : tget s.plan.types i = some t) (inside : i < 16) :
    slice s.typeTable (4 + 12 * i) 12 = t.bytes := by
  rw [State.typeTable, slice_append_right _ _ (by simp), List.length_append, u16_length, u16_length, Nat.add_sub_cancel_left,
    slice_flatten_map s.typeEntry_length (List.getElem?_range inside), State.typeEntry, stored, Option.map_some, Option.getD_some]

end

/-! ### Queries (Tables 4.8 and 4.9, R626) -/

section

variable {r : Req} {s : State}

theorem targetQueryBody_shows {l : Lamp} {ty : LampType} (named : s.pointRefused (pidAt r.payload 0) = none)
    (recorded : s.lampOf (pidAt r.payload 0) = some l) (typed : tget s.plan.types l.type = some ty) :
    targetQueryBody r s = ok (s.target (pidAt r.payload 0) l ty) s := by
  simp only [targetQueryBody, named, recorded, typed]

/-- Settles O22: each body answers from the state it leaves as it was, and TYPE_GET's types are parts of 12 bytes behind its
count. -/
theorem lightPlanQueriesChangeNothing : Obligations.LightPlanQueriesChangeNothing := by
  refine fun r s => ⟨fun ready => shotas_ok ready rfl, fun ready => ?_, fun ready => shotas_ok ready rfl,
    fun ready => shotas_ok ready rfl,
    fun l ty ready named recorded typed => shotas_ok ready (targetQueryBody_shows named recorded typed),
    fun ready => ?_⟩
  · exact ⟨_, State.typeTable_length _, State.typeTable_count _, fun i t stored inside => State.typeTable_entry stored inside,
      shotas_ok ready (typeGetBody_eq _ r)⟩
  · intro d
    refine ⟨fun real early late => shotas_ok ready (if_neg ?_), fun missing => shotas_done ready rfl (if_pos (.inl ?_))⟩
    · rintro (missing | before | after)
      · simp [d, real] at missing
      · exact absurd before (Int.not_lt.mpr early)
      · exact absurd after (Int.not_lt.mpr late)
    · simpa using missing

end

/-! ### Timers (R129, R134, R160–R167, R416) -/

section

variable {dt : Ns} {s : State}

/-- A count leaves what a night's stay depends on. -/
@[simp] theorem nightStays_bump (s : State) (id idx n : Nat) (x : Night) :
    (s.bump id idx n).nightStays x = s.nightStays x := by
  unfold State.bump
  split <;> rfl

/-- NIGHT_RESOLVE at or after 12:00 adds the night of a date that has none, and drops those over (R134). -/
theorem nightResolve_leads (running : (s.begin dt).running = true) (known : (s.begin dt).civilKnown = true)
    (noon : 43200 ≤ (s.begin dt).civilOfTb (s.begin dt).tb % 86400)
    (fresh : (s.begin dt).plan.nights.any (fun n => (n.day : Int) = (s.begin dt).dayAt (s.begin dt).tb) = false) :
    let x := (s.begin dt).resolved ((s.begin dt).dayAt (s.begin dt).tb)
    Leads (.nightResolve dt) s
      { x.2 with plan.nights := x.2.plan.nights.filter (fun n => n.lit && x.2.nightStays n) ++ [x.1] } := by
  have exec_eq : exec (.nightResolve dt) s = execNightResolve dt s := rfl
  unfold execNightResolve at exec_eq
  refine leads_of_event exec_eq running ?_
  have resolves : ¬ ((!(s.begin dt).civilKnown) = true ∨ (s.begin dt).civilOfTb (s.begin dt).tb % 86400 < 43200 ∨
      ((s.begin dt).plan.nights.any (fun n => (n.day : Int) = (s.begin dt).dayAt (s.begin dt).tb)) = true) := by
    simpa [known, fresh] using noon
  refine (if_neg resolves).trans ?_
  simp only [State.resolved, nightStays_bump]

theorem photoDebounce_leads {u : State} (running : (s.begin dt).running = true)
    (effect : (if (s.begin dt).plan.photo.since + (s.begin dt).num 0x3006 * sec ≤ (s.begin dt).clk.mono then
      (s.begin dt).photoCounts (s.begin dt).plan.photo.dark else s.begin dt) = u) : Leads (.photoDebounce dt) s u := by
  have exec_eq : exec (.photoDebounce dt) s = execPhotoDebounce dt s := rfl
  unfold execPhotoDebounce at exec_eq
  exact leads_of_event exec_eq running effect

theorem photoWindowExpiry_leads {n : Night} {u : State} (running : (s.begin dt).running = true)
    (held : (s.begin dt).heldNight = some n)
    (effect : (if n.finish ≤ (s.begin dt).tb + (s.begin dt).num 0x3020 * sec then (s.begin dt).issuePlan n.finish
      else s.begin dt) = u) : Leads (.photoWindowExpiry dt) s u := by
  have exec_eq : exec (.photoWindowExpiry dt) s = execPhotoWindowExpiry dt s := rfl
  unfold execPhotoWindowExpiry at exec_eq
  refine leads_of_event exec_eq running ?_
  simpa only [held] using effect

/-- DIAG_DUE of a due channel of a clear point launches its pulse, with that of the other channel where it falls due within the
same lit period (R165). -/
theorem diagDue_leads {point : Pid} {l : Lamp} {ty : LampType} {ch : Nat} (running : (s.begin dt).running = true)
    (recorded : (s.begin dt).lampOf point = some l) (typed : tget (s.begin dt).plan.types l.type = some ty) :
    let a := s.begin dt
    let w := a.tb + a.num 0x3023 * ms
    let ahead := match a.plan.nights.find? (fun n => n.lit && n.start ≤ a.tb && a.tb < n.finish) with
      | some n => n.finish - a.tb
      | none => 0
    a.served 0x07 = true → a.baseLit = true → a.channelDue (pointKey point) ch 0 = true → a.inPulse (pointKey point) ch = false →
    a.clearOf l.section_ (w - a.num 0x3032 * ms) (w + ty.diagMs * ms + a.num 0x3032 * ms) = true →
    Leads (.diagDue dt point ch) s
      (a.pulse point ty (ch :: (if a.channelDue (pointKey point) (1 - ch) ahead then [1 - ch] else [])) w) := by
  intro a w ahead served lit due idle clear
  have exec_eq : exec (.diagDue dt point ch) s = execDiagDue dt point ch s := rfl
  unfold execDiagDue at exec_eq
  refine leads_of_event exec_eq running ?_
  simp only [recorded, typed, Option.bind_some, Option.map_some]
  have launches : ¬ ((!a.served 0x07) = true ∨ (!a.baseLit) = true ∨ (!a.channelDue (pointKey point) ch 0) = true ∨
      a.inPulse (pointKey point) ch = true ∨
      (!a.clearOf l.section_ (w - a.num 0x3032 * ms) (w + ty.diagMs * ms + a.num 0x3032 * ms)) = true) := by
    simp only [served, lit, due, idle, clear, Bool.not_true, Bool.false_eq_true, or_self, not_false_eq_true]
  exact if_neg launches

/-- A channel that becomes UNDIAGNOSED: its state is set, and a change of it reported (R167). -/
theorem channelState_undiagnosed {point : Pid} {ch : Nat} {d : ChannelDiag}
    (counted : tget s.plan.diag (pointKey point * 2 + ch) = some d) :
    Reports { s with plan.diag := if d.state = 2 then s.plan.diag
                                  else tput s.plan.diag (pointKey point * 2 + ch) { d with state := 2 } }
      (s.channelState point ch 2) := by
  simp only [State.channelState, counted]
  split
  · rfl
  · exact (raise_bare _ _ _ _).symm

theorem undiagnosed_leads {point : Pid} {ch : Nat} {d : ChannelDiag} (running : (s.begin dt).running = true)
    (counted : tget (s.begin dt).plan.diag (pointKey point * 2 + ch) = some d) (channel : ch < 2)
    (passed : (s.begin dt).num 0x3030 * sec ≤ (s.begin dt).litCount d) :
    Leads (.undiagnosed dt point ch) s
      { s.begin dt with plan.diag := if d.state = 2 then (s.begin dt).plan.diag
                                     else tput (s.begin dt).plan.diag (pointKey point * 2 + ch) { d with state := 2 } } := by
  have exec_eq : exec (.undiagnosed dt point ch) s = execUndiagnosed dt point ch s := rfl
  unfold execUndiagnosed at exec_eq
  refine leads_of_event_reports exec_eq running ?_
  simpa only [counted, channel, passed, and_self, if_true] using channelState_undiagnosed counted

/-- The drive command that a queued item carries, where it is the one for the point and launch instant. -/
def driveFor (point : Pid) (launch : Ns) (it : Item) : Option DriveCmd :=
  match it.body with
  | .drive c => if c.point = point ∧ c.launch = launch then some c else none
  | _ => none

/-- LATE_DISCARD as an event on the queue's item for the point and launch. -/
theorem lateDiscard_eq (point : Pid) (launch : Ns) : exec (.lateDiscard dt point launch) s = event dt (fun s =>
    match (s.queue 0x03).items.findSome? (driveFor point launch) with
    | some c =>
      if c.tol ≠ 0xFFFF ∧ launch + c.tol * ms < s.tb then
        ((s.purge 0x03 (fun it => (driveFor point launch it).isSome)).bump 0x30F0).discarded c
      else s
    | none => s) s := rfl

/-- LATE_DISCARD of a command past its launch plus tolerance (R160, R161). -/
theorem lateDiscard_leads {point : Pid} {launch : Ns} {c : DriveCmd} (running : (s.begin dt).running = true)
    (waiting : ((s.begin dt).queue 0x03).items.findSome? (driveFor point launch) = some c) (bounded : c.tol ≠ 0xFFFF)
    (past : launch + c.tol * ms < (s.begin dt).tb) :
    Leads (.lateDiscard dt point launch) s
      ((((s.begin dt).purge 0x03 (fun it => (driveFor point launch it).isSome)).bump 0x30F0).discarded c) := by
  refine leads_of_event (lateDiscard_eq point launch) running ?_
  simp only [waiting, bounded, past, ne_eq, not_false_eq_true, and_self, if_true]

end

/-- Settles O23: each event's effect where its guard holds. -/
theorem lightPlanTimersAct : Obligations.LightPlanTimersAct := by
  intro dt s running a
  exact ⟨nightResolve_leads running, leads_of_event rfl running rfl,
    fun counts => photoDebounce_leads running (if_pos counts),
    fun young => photoDebounce_leads running (if_neg (Nat.not_le.mpr young)),
    fun n held => ⟨fun due => photoWindowExpiry_leads running held (if_pos due),
      fun early => photoWindowExpiry_leads running held (if_neg (Nat.not_le.mpr early))⟩,
    fun point l ty ch => diagDue_leads running,
    fun point ch d counted channel passed => undiagnosed_leads running counted channel passed,
    fun point launch c => lateDiscard_leads running,
    fun circuit fitted => leads_of_event rfl running (if_pos fitted)⟩

end Sys2Proof.Machine

/-! ## Promenade (spec chapter 5): the road graph, tracks, and handovers -/

namespace Sys2Proof.Machine

/-! ### The road graph (R171–R173, R175) -/

section

variable {r : Req} {s : State}

/-- SECTION_SET refuses an empty list, a record that fails its checks, and a junction with too many ends (R172). -/
theorem sectionSet_refusal_iff {xs : List Section} {t : Table Section} :
    (xs.isEmpty ∨ !xs.all s.sectionOk ∨ !s.endsOk t) ↔ (xs = [] ∨ xs.all s.sectionOk = false ∨ s.endsOk t = false) := by
  rw [List.isEmpty_iff, Bool.not_eq_true', Bool.not_eq_true']

theorem junctionSet_refusal_iff {xs : List Junction} :
    (xs.isEmpty ∨ !xs.all junctionOk) ↔ (xs = [] ∨ xs.all junctionOk = false) := by
  rw [List.isEmpty_iff, Bool.not_eq_true']

/-- PLACE_SET of accepted records stores them and relaunches their points (R173, R175). -/
theorem placeSetBody_stores (nonempty : entries 12 r.payload ≠ [])
    (accepted : firstRefusal ((entries 12 r.payload).map s.placeRefused) = none) :
    let es := entries 12 r.payload
    let ps := es.map (fun b => pidAt b 0)
    let b := s.graphChange [] [] ps (es.filterMap s.spotOf)
    let t := es.foldl (fun t b =>
      if fld b 8 4 = 0xFFFFFFFF then tdel t (pointKey (pidAt b 0)) else tput t (pointKey (pidAt b 0)) (fld b 8 4)) b.prom.places
    placeSetBody r s = { b with prom.places := t }.relaunchAnswer r ps [] := by
  simp only [placeSetBody, List.isEmpty_iff, nonempty, accepted, if_false]

/-- The numbers GRAPH_REMOVE names, each once. -/
def removedNumbers (p : List Byte) : List Nat := ((List.range (fld p 2 2)).map (fun i => fld p (4 + 2 * i) 2)).dedup

/-- GRAPH_REMOVE of a known kind with numbers in its range comes to the checks of R172. -/
theorem graphRemove_inRange {kind : Nat} {ns : List Nat} (known : kind ≤ 1) (nonempty : ns ≠ [])
    (small : ∀ n ∈ ns, n < if kind = 0 then 256 else 512) :
    ¬ (1 < kind ∨ ns.isEmpty ∨ ns.any (fun n => (if kind = 0 then 256 else 512) ≤ n)) := by
  simpa [nonempty, known] using small

theorem graphRemoveBody_sections (kind : fld r.payload 0 1 = 0) (nonempty : removedNumbers r.payload ≠ [])
    (small : ∀ n ∈ removedNumbers r.payload, n < 256) :
    let ns := removedNumbers r.payload
    let gone := ns.filter (fun n => (s.sectionOf n).isSome)
    let b := s.graphChange gone [] [] []
    graphRemoveBody r s = if ns.any (fun n => (s.sectionOf n).isSome && s.flag 0x4080 n) then fail stState s
      else ok (u16 gone.length ++ u16 0) { b with prom.sections := tkeep b.prom.sections (fun n _ => !gone.contains n) } := by
  have inRange := graphRemove_inRange (kind := fld r.payload 0 1) (by omega) nonempty
    (by simpa only [kind, if_true] using small)
  exact (if_neg inRange).trans (if_pos kind)

theorem graphRemoveBody_junctions (kind : fld r.payload 0 1 = 1) (nonempty : removedNumbers r.payload ≠ [])
    (small : ∀ n ∈ removedNumbers r.payload, n < 512) :
    let ns := removedNumbers r.payload
    let gone := ns.filter (fun n => (s.junctionOf n).isSome)
    graphRemoveBody r s = if ns.any (fun n => 0 < endsAt s.prom.sections n) then fail stState s
      else ok (u16 gone.length ++ u16 0) { s with prom.junctions := tkeep s.prom.junctions (fun n _ => !gone.contains n) } := by
  have notSection : fld r.payload 0 1 ≠ 0 := by omega
  have inRange := graphRemove_inRange (kind := fld r.payload 0 1) (by omega) nonempty
    (by simpa only [notSection, if_false] using small)
  exact (if_neg inRange).trans (if_neg notSection)

/-- GRAPH_GET has no records of a kind above 2. -/
theorem graphGetBody_unknown (kind : 2 < fld r.payload 0 1) : graphGetBody r s = fail stRange s := by
  obtain ⟨k, above⟩ := Nat.exists_eq_add_of_le' kind
  simp only [graphGetBody, above]

/-- Settles O26: the branches of the six commands' bodies. -/
theorem roadGraphIsSetReadAndRemoved : Obligations.RoadGraphIsSetReadAndRemoved := by
  refine fun r s => ⟨fun ready => ?_, fun ready => ?_, fun ready => ?_, fun ready => ⟨?_, ?_⟩, fun ready => ?_,
    fun ready => shotas_ok ready rfl⟩
  · intro a xs t
    refine ⟨fun nonempty valid ends => shotas_ok ready (if_neg fun refused => ?_),
      fun refused => shotas_done ready rfl (if_pos (sectionSet_refusal_iff.mpr refused))⟩
    rcases sectionSet_refusal_iff.mp refused with empty | invalid | crowded
    · exact nonempty empty
    · exact Bool.eq_false_iff.mp invalid valid
    · exact Bool.eq_false_iff.mp crowded ends
  · intro a xs b
    refine ⟨fun nonempty valid => shotas_ok ready (if_neg fun refused => ?_),
      fun refused => shotas_done ready rfl (if_pos (junctionSet_refusal_iff.mpr refused))⟩
    rcases junctionSet_refusal_iff.mp refused with empty | invalid
    · exact nonempty empty
    · exact Bool.eq_false_iff.mp invalid valid
  · intro a es ps b nonempty accepted t
    exact planAnswers_of_body rfl ready (placeSetBody_stores nonempty accepted)
  · intro kind nonempty small gone b
    have body := graphRemoveBody_sections (s := s.taken graphRemoveCommand r) kind nonempty small
    refine ⟨fun off => shotas_ok ready (body.trans (if_neg ?_)), fun on => shotas_done ready rfl (body.trans (if_pos ?_))⟩
    · simpa [removedNumbers] using off
    · simpa [removedNumbers] using on
  · intro kind nonempty small gone
    have body := graphRemoveBody_junctions (s := s.taken graphRemoveCommand r) kind nonempty small
    refine ⟨fun unused => shotas_ok ready (body.trans (if_neg ?_)),
      fun used => shotas_done ready rfl (body.trans (if_pos ?_))⟩
    · simpa [removedNumbers] using unused
    · simpa [removedNumbers] using used
  · exact ⟨fun kind => shotas_ok ready (by simp only [graphGetCommand, graphGetBody, kind]),
      fun kind => shotas_ok ready (by simp only [graphGetCommand, graphGetBody, kind]),
      fun kind => shotas_ok ready (by simp only [graphGetCommand, graphGetBody, kind]),
      fun kind => shotas_done ready rfl (graphGetBody_unknown kind)⟩

end

/-! ### Operations that leave the tracks and the rewinds alone

Covering points, sending commands, records and peer messages changes no track, and begins no rewind: what a track's flow
leaves is what its own steps write. -/

/-- The tracks, and what Backstep has under way: the rewinds that wait and the replays. -/
def State.tracking (s : State) : Table Track × List (PushRec × Ns) × Table Replay :=
  (s.prom.tracks, s.bs.waiting, s.bs.replays)

section

variable (s : State)

@[simp] theorem setQueue_tracking (q : Nat) (x : Queue) : (s.setQueue q x).tracking = s.tracking := rfl

@[simp] theorem bump_tracking (id idx n : Nat) : (s.bump id idx n).tracking = s.tracking := by
  unfold State.bump
  split <;> rfl

@[simp] theorem perfEdge_tracking (event what n : Nat) : (s.perfEdge event what n).tracking = s.tracking :=
  Reports.at (perfEdge_bare s event what n).symm State.tracking

@[simp] theorem meterBytes_tracking (source dir n : Nat) : (s.meterBytes source dir n).tracking = s.tracking :=
  Reports.at (meterBytes_bare s source dir n).symm State.tracking

@[simp] theorem send_tracking (dst : Source) (express : Bool) (bytes : List Byte) :
    (s.send dst express bytes).tracking = s.tracking :=
  Reports.at (send_bare s dst express bytes).symm State.tracking

@[simp] theorem raise_tracking (opcode unit : Nat) (payload : List Byte) :
    (s.raise opcode unit payload).tracking = s.tracking :=
  Reports.at (raise_bare s opcode unit payload).symm State.tracking

@[simp] theorem histFrom_tracking (graph flow : Nat) (r : HistRec) : (s.histFrom graph flow r).tracking = s.tracking :=
  Reports.at (histFrom_bare s graph flow r).symm State.tracking

@[simp] theorem crossed_tracking (q d : Nat) : (s.crossed q d).tracking = s.tracking := by
  unfold State.crossed State.queueLevel
  split
  · dsimp only
    split <;> simp
  · rfl

@[simp] theorem put_tracking (q : Nat) (it : Item) : (s.put q it).tracking = s.tracking := by
  rw [State.put, meterBytes_tracking, perfEdge_tracking, crossed_tracking]
  rfl

@[simp] theorem offer_tracking (q : Nat) (it : Item) : (s.offer q it).tracking = s.tracking := by
  unfold State.offer
  split <;> simp

@[simp] theorem take_tracking (q i : Nat) : (s.take q i).tracking = s.tracking := by
  simp [State.take]

@[simp] theorem push03_tracking (graph flow : Nat) (origin : Ns) (c : DriveCmd) :
    (s.push03 graph flow origin c).tracking = s.tracking := by
  rw [State.push03, histFrom_tracking]
  split <;> simp

theorem tracking_revisions (l : List Revision) : { s with bs.revisions := l }.tracking = s.tracking := rfl

@[simp] theorem setLive_tracking (l : List DriveCmd) : (s.setLive l).tracking = s.tracking := rfl

@[simp] theorem noteMoved_tracking (p : Pid) (asked given : Ns) : (s.noteMoved p asked given).tracking = s.tracking := by
  unfold State.noteMoved
  split <;> rfl

/-! Peer messages and records -/

@[simp] theorem peerPut_tracking (l : PeerLane) (opcode : Nat) (payload : List Byte) (handover : Option Nat) :
    (s.peerPut l opcode payload handover).tracking = s.tracking := by
  rw [State.peerPut, send_tracking]
  rfl

@[simp] theorem flushPeersFrom_tracking (l : List Item) : (s.flushPeersFrom l).tracking = s.tracking := by
  induction l generalizing s with
  | nil => rfl
  | cons it l ih =>
    rw [State.flushPeersFrom, ih]
    split
    · split
      · rw [peerPut_tracking, foldl_keeps State.tracking fun s _ => take_tracking s _ _]
      · rfl
    · rfl

@[simp] theorem putPeer_tracking (it : Item) (payload : List Byte) : (s.putPeer it payload).tracking = s.tracking := by
  unfold State.putPeer
  dsimp only
  split
  · exact bump_tracking _ _ _ _
  · rw [State.flushPeers, flushPeersFrom_tracking, foldl_keeps State.tracking fun s _ => by split <;> simp]
    split <;> simp

@[simp] theorem gather_tracking (p : PushRec) : (s.gather p).tracking = s.tracking := rfl

@[simp] theorem peerSend_tracking (m : Mac) (opcode handover : Nat) (payload : List Byte) :
    (s.peerSend m opcode handover payload).tracking = s.tracking := by
  unfold State.peerSend
  dsimp only
  split <;> simp

@[simp] theorem cancelAll_tracking (l : List Handover) (reason : Nat) (launch : Ns) :
    (s.cancelAll l reason launch).tracking = s.tracking :=
  foldl_keeps State.tracking (fun _ _ => peerSend_tracking _ _ _ _ _) _ _

@[simp] theorem trackRecord_tracking (t : Track) (event : Nat) (stamp : Ns) :
    (s.trackRecord t event stamp).tracking = s.tracking := by
  unfold State.trackRecord State.progHist
  dsimp only
  split <;> simp

@[simp] theorem promLoad_tracking (refused late deferred : Nat) : (s.promLoad refused late deferred).tracking = s.tracking := by
  unfold State.promLoad
  dsimp only
  split
  · exact raise_tracking _ _ _ _
  · rfl

/-! Commands -/

@[simp] theorem revise_tracking (graph flow : Nat) (origin : Ns) (old new : DriveCmd) :
    (s.revise graph flow origin old new).tracking = s.tracking := by
  unfold State.revise
  split
  · rfl
  · refine (tracking_revisions _ _).trans ?_
    rw [apply_ite State.tracking]
    simp

@[simp] theorem reviseLater_tracking (graph flow : Nat) (origin : Ns) (p : Pid) :
    (s.reviseLater graph flow origin p).tracking = s.tracking := by
  unfold State.reviseLater
  split
  · rfl
  · refine foldl_keeps State.tracking (fun s c => ?_) _ s
    split <;> simp

@[simp] theorem issue_tracking (graph flow : Nat) (origin : Ns) (c : DriveCmd) :
    (s.issue graph flow origin c).tracking = s.tracking := by
  rw [State.issue, reviseLater_tracking]
  split <;> simp

@[simp] theorem emitGood_tracking (graph flow : Nat) (origin : Ns) (want : DriveCmd) :
    (s.emitGood graph flow origin want).1.tracking = s.tracking := by
  unfold State.emitGood
  dsimp only
  split
  · rfl
  · split
    · rfl
    · split
      · rfl
      · simp

@[simp] theorem planLate_tracking (discarded recovered : Nat) : (s.planLate discarded recovered).tracking = s.tracking := by
  unfold State.planLate
  dsimp only
  split
  · exact raise_tracking _ _ _ _
  · rfl

@[simp] theorem discarded_tracking (c : DriveCmd) : (s.discarded c).tracking = s.tracking := by
  unfold State.discarded State.recover
  dsimp only
  generalize (if c.source = 5 then c.base else c.source) = source
  split <;> simp

@[simp] theorem emit_tracking (graph flow : Nat) (origin : Ns) (want : DriveCmd) :
    (s.emit graph flow origin want).1.tracking = s.tracking := by
  unfold State.emit
  split <;> simp

/-! Coverage -/

@[simp] theorem openBatch_tracking (number : Nat) (launch : Ns) (settled : Option Ns) :
    (s.openBatch number launch settled).tracking = s.tracking := by
  unfold State.openBatch
  split <;> rfl

@[simp] theorem settleBatch_tracking (number : Nat) (launch : Ns) : (s.settleBatch number launch).tracking = s.tracking := by
  unfold State.settleBatch
  split
  · split
    · rfl
    · dsimp only
      split
      · rw [promLoad_tracking, bump_tracking]
        rfl
      · rfl
  · rfl

@[simp] theorem onCover_tracking (p : Pid) (f : PointCover → PointCover) : (s.onCover p f).tracking = s.tracking := rfl

@[simp] theorem turn_tracking (p : Pid) (up : Bool) (t : Ns) : (s.turn p up t).tracking = s.tracking := by
  unfold State.turn
  dsimp only
  split
  · rfl
  · split <;> simp

@[simp] theorem fall_tracking (graph flow : Nat) (origin : Ns) (p : Pid) (launch : Ns) :
    (s.fall graph flow origin p launch).1.tracking = s.tracking := by
  unfold State.fall
  dsimp only
  split
  · simp
  · split <;> simp

@[simp] theorem openPoint_tracking (graph flow : Nat) (origin : Ns) (p : Pid) (number : Nat) (nominal : Ns) :
    (s.openPoint graph flow origin p number nominal).1.tracking = s.tracking := by
  refine iteInduction (motive := fun x : State × List PushRec => x.1.tracking = s.tracking) (fun _ => ?_) fun _ => ?_
  · simp
  · refine iteInduction (motive := fun x : State × List PushRec => x.1.tracking = s.tracking) (fun _ => ?_) fun _ => ?_ <;> simp

@[simp] theorem closePoint_tracking (graph flow : Nat) (origin : Ns) (p : Pid) (number : Nat) (nominal : Ns) :
    (s.closePoint graph flow origin p number nominal).1.tracking = s.tracking := by
  unfold State.closePoint
  dsimp only
  split
  · rfl
  · split
    · rw [fall_tracking]
      split <;> simp
    · rfl

theorem pushInside_tracking (flow : Nat) (origin : Ns) (body : Body) {atOnce : State × List PushRec}
    (h : atOnce.1.tracking = s.tracking) : (s.pushInside flow origin body atOnce).1.tracking = s.tracking := by
  unfold State.pushInside
  split
  · rfl
  · split
    · dsimp only
      split
      · rfl
      · exact put_tracking _ _ _
    · exact h

@[simp] theorem pushCover_tracking (origin : Ns) (p : Pid) (number : Nat) (opens : Bool) (at_ : Ns) :
    (s.pushCover origin p number opens at_).1.tracking = s.tracking := by
  refine pushInside_tracking _ _ _ _ ?_
  split <;> simp

@[simp] theorem pushCovers_tracking (origin : Ns) (ps : List Pid) (number : Nat) (opens : Bool) (at_ : Ns) :
    (s.pushCovers origin ps number opens at_).1.tracking = s.tracking := by
  refine foldl_keeps (fun x : State × List PushRec => x.1.tracking) (fun x p => ?_) ps (s, [])
  exact pushCover_tracking x.1 origin p number opens at_

end

/-! ### Table 5.5's instants -/

/-- How long a track of a state lasts unheard, or unconfirmed (R185, Table 5.5). -/
def State.lastsTo (s : State) (t : Track) : TrackState → Ns
  | .tentative => t.since + s.num 0x4022 * ms
  | .confirmed => t.heard + s.coastTime t
  | .shadow => t.heard + s.coastTime t

/-- The reason with which the handovers of a track that ends so are withdrawn, 0 where it has none (R209). -/
def TrackState.endReason : TrackState → Nat
  | .confirmed => 2
  | .tentative => 0
  | .shadow => 0

/-! ### What a track's course is read from -/

/-- What a track's course, its times and the service of its flow are read from. -/
structure TrackView where
  prom : Prom
  ring : Ring
  vals : Table PVal
  id : Ident
  specs : Table QueueSpec
  slots : List GraphSlot
  newest : Table Nat
  waiting : List (PushRec × Ns)
  replays : Table Replay

def State.trackView (s : State) : TrackView :=
  { prom := s.prom, ring := s.ring, vals := s.par.vals, id := s.id, specs := s.qm.specs, slots := s.fe.slots
    newest := s.bs.newest, waiting := s.bs.waiting, replays := s.bs.replays }

section

variable {s t : State} (h : s.trackView = t.trackView)

include h

theorem value_of_trackView (id idx : Nat) : s.value id idx = t.value id idx :=
  State.value_congr (congrArg TrackView.vals h) (congrArg TrackView.id h) (congrArg TrackView.specs h) id idx

theorem num_of_trackView (id idx : Nat) : s.num id idx = t.num id idx := by
  rw [State.num, State.num, value_of_trackView h]

theorem flag_of_trackView (id idx : Nat) : s.flag id idx = t.flag id idx := by
  rw [State.flag, State.flag, value_of_trackView h]

theorem trackOf_of_trackView (n : Nat) : s.trackOf n = t.trackOf n :=
  congrArg (fun v : TrackView => tget v.prom.tracks n) h

theorem newest_of_trackView (key : Nat) : s.newest key = t.newest key :=
  congrArg (fun v : TrackView => cget v.newest key) h

theorem consumer_of_trackView (q : Nat) : s.consumer q = t.consumer q := by
  have slots : s.fe.slots = t.fe.slots := congrArg TrackView.slots h
  simp only [State.consumer, State.slotOf, slots]

theorem coastTime_of_trackView (x : Track) : s.coastTime x = t.coastTime x := by
  rw [State.coastTime, State.coastTime, num_of_trackView h, num_of_trackView h]

theorem lastsTo_of_trackView (x : Track) (st : TrackState) : s.lastsTo x st = t.lastsTo x st := by
  cases st <;> simp only [State.lastsTo, num_of_trackView h, coastTime_of_trackView h]

theorem extend_of_trackView (kind : Nat) (back : Bool) (limit : Int) (p : Path) :
    s.extend kind back limit p = t.extend kind back limit p := by
  have prom : s.prom = t.prom := congrArg TrackView.prom h
  simp only [State.extend, State.sectionOf, State.junctionOf, prom]

theorem walkOn_of_trackView (fuel cap kind : Nat) (back : Bool) (ps : List Leg) (cut : Nat) :
    s.walkOn fuel cap kind back ps cut = t.walkOn fuel cap kind back ps cut := by
  induction fuel generalizing ps cut with
  | zero => rfl
  | succ fuel ih => simp only [State.walkOn, extend_of_trackView h, ih]

theorem openTo_of_trackView (x : Track) : s.openTo x = t.openTo x := by
  simp only [State.openTo, State.kindOf, num_of_trackView h]

theorem branches_of_trackView (x : Track) (at_ : Ns) : s.branches x at_ = t.branches x at_ := by
  simp only [State.branches, State.walk, openTo_of_trackView h, walkOn_of_trackView h]

theorem roadEnd_of_trackView (p : Path) : s.roadEnd p = t.roadEnd p := by
  have prom : s.prom = t.prom := congrArg TrackView.prom h
  have ring : s.ring = t.ring := congrArg TrackView.ring h
  simp only [State.roadEnd, State.junctionOf, prom, ring, flag_of_trackView h]

theorem endedAt_of_trackView (x : Track) (at_ : Ns) : s.endedAt x at_ = t.endedAt x at_ := by
  have ends : s.roadEnd = t.roadEnd := funext (roadEnd_of_trackView h)
  simp only [State.endedAt, branches_of_trackView h, ends]

end

section

variable (s : State)

@[simp] theorem bump_trackView (id idx n : Nat) : (s.bump id idx n).trackView = s.trackView := by
  unfold State.bump
  split <;> rfl

@[simp] theorem perfEdge_trackView (event what n : Nat) : (s.perfEdge event what n).trackView = s.trackView := by
  refine foldl_keeps State.trackView (fun s e => ?_) _ s
  split <;> rfl

@[simp] theorem enliven_trackView (w : Work) : (s.enliven w).2.trackView = s.trackView := by
  unfold State.enliven
  dsimp only
  split
  · split <;> rfl
  · split
    · rfl
    · exact bump_trackView _ _ _ _

@[simp] theorem checkpoint_trackView (key : Nat) (stamp : Ns) (serial : Nat) :
    (s.checkpoint key stamp serial).trackView = s.trackView := by
  unfold State.checkpoint
  dsimp only
  split
  · rfl
  · rw [perfEdge_trackView]
    rfl

theorem enliven_item (w : Work) : (s.enliven w).1.item = w.item ∧ (s.enliven w).1.pass = w.pass := by
  unfold State.enliven
  dsimp only
  split
  · split <;> exact ⟨rfl, rfl⟩
  · split <;> exact ⟨rfl, rfl⟩

end

/-! ### What a track's flow does when it is served -/

/-- The state and the last batch of track `n`, with what Backstep has under way. -/
def State.progress (s : State) (n : Nat) : Option (TrackState × Ns) × List (PushRec × Ns) × Table Replay :=
  ((s.trackOf n).map (fun t => (t.state, t.lastBatch)), s.bs.waiting, s.bs.replays)

section

variable {s : State} {n : Nat} {t : Track}

theorem trackOf_of_tracking {s t : State} (h : s.tracking = t.tracking) (n : Nat) : s.trackOf n = t.trackOf n :=
  congrArg (fun x : Table Track × List (PushRec × Ns) × Table Replay => tget x.1 n) h

theorem progress_of_tracking {s t : State} (h : s.tracking = t.tracking) (n : Nat) : s.progress n = t.progress n :=
  congrArg (fun x : Table Track × List (PushRec × Ns) × Table Replay =>
    ((tget x.1 n).map (fun t => (t.state, t.lastBatch)), x.2)) h

theorem progress_eq {u : State} {x : Option (TrackState × Ns)} {y : List (PushRec × Ns) × Table Replay}
    (track : (u.trackOf n).map (fun t => (t.state, t.lastBatch)) = x) (rewinds : (u.bs.waiting, u.bs.replays) = y) :
    u.progress n = (x, y) := Prod.ext track rewinds

theorem tget_tmap {α : Type} (l : Table α) (m k : Nat) (f : α → α) :
    tget (tmap l m f) k = if m = k then (tget l k).map f else tget l k := by
  induction l with
  | nil => simp [tmap]
  | cons e l ih =>
    obtain ⟨j, v⟩ := e
    simp only [tmap] at ih
    by_cases hm : j = m
    · by_cases hk : j = k
      · subst hm hk
        simp [tmap, tget]
      · subst hm
        simp [tmap, tget, hk, ih]
    · by_cases hk : j = k
      · subst hk
        simp [tmap, tget, hm, Ne.symm hm]
      · simp [tmap, tget, hm, hk, ih]

theorem trackOf_onTrack (s : State) (m n : Nat) (f : Track → Track) :
    (s.onTrack m f).trackOf n = if m = n then (s.trackOf n).map f else s.trackOf n := tget_tmap _ _ _ _

/-- A change of a track's handovers is no progress of it. -/
theorem onTrack_sent_progress (s : State) (m n : Nat) (f : Track → List Handover) :
    (s.onTrack m (fun t => { t with sent := f t })).progress n = s.progress n := by
  refine progress_eq ?_ rfl
  rw [trackOf_onTrack]
  split
  · rw [Option.map_map]
    rfl
  · rfl

theorem handoverThrough_progress (s : State) (t : Track) (launch : Ns) (x : Nat × Int × Int) (n : Nat) :
    (s.handoverThrough t launch x).progress n = s.progress n := by
  unfold State.handoverThrough
  split
  · rfl
  · split
    · rfl
    · dsimp only
      split
      · rfl
      · rw [progress_of_tracking (peerSend_tracking _ _ _ _ _), onTrack_sent_progress]
        split
        · exact progress_of_tracking (bump_tracking s 0x40F4 0 1) n
        · rfl

theorem handoverPart_progress (s : State) (t : Track) (portals : List (Nat × Int × Int)) (launch : Ns) (n : Nat) :
    (s.handoverPart t portals launch).progress n = s.progress n := by
  unfold State.handoverPart
  dsimp only
  rw [foldl_keeps (fun s : State => s.progress n) fun s x => handoverThrough_progress s t launch x n]
  split
  · rfl
  · rw [onTrack_sent_progress]
    exact progress_of_tracking (cancelAll_tracking _ _ _ _) n

theorem delTrack_progress {u : State} (still : u.tracking = s.tracking) (n : Nat) :
    { u with prom.tracks := tdel u.prom.tracks n }.progress n = (none, s.bs.waiting, s.bs.replays) := by
  refine progress_eq ?_ (congrArg Prod.snd still)
  exact congrArg (Option.map _) (tget_tdel_same u.prom.tracks n)

/-- A track that ends is no track (R185). -/
theorem endTrack_progress (origin at_ : Ns) (event reason : Nat) (taken : Option Nat) (found : s.trackOf n = some t) :
    (s.endTrack n origin at_ event reason taken).1.progress n = (none, s.bs.waiting, s.bs.replays) := by
  unfold State.endTrack
  rw [found]
  dsimp only
  rw [progress_of_tracking (pushCovers_tracking _ _ _ _ _ _)]
  refine delTrack_progress ?_ n
  split <;> simp

/-- A track that notes a batch's coverage and instant keeps its state. -/
theorem onTrack_lastBatch_progress {u : State} (still : u.tracking = s.tracking) (found : s.trackOf n = some t)
    (f : Track → List Pid) (tb : Ns) :
    (u.onTrack n (fun t => { t with covered := f t, lastBatch := tb })).progress n =
      (some (t.state, tb), s.bs.waiting, s.bs.replays) := by
  refine progress_eq ?_ (congrArg Prod.snd still)
  rw [trackOf_onTrack, if_pos rfl, trackOf_of_tracking still, found]
  rfl

theorem pushCovers_progress (s : State) (origin : Ns) (ps : List Pid) (number : Nat) (opens : Bool) (at_ : Ns) (n : Nat) :
    (s.pushCovers origin ps number opens at_).1.progress n = s.progress n :=
  progress_of_tracking (pushCovers_tracking s origin ps number opens at_) n

/-- A batch leaves its track in its state, with the batch's instant as its last (R191). -/
theorem batch_progress (origin tb : Ns) (found : s.trackOf n = some t) :
    (s.batch n origin tb).1.progress n = (some (t.state, tb), s.bs.waiting, s.bs.replays) := by
  unfold State.batch
  rw [found]
  dsimp only
  split
  next t' _ =>
    rw [apply_ite (fun s : State => s.progress n), handoverPart_progress, ite_self, pushCovers_progress, pushCovers_progress]
    exact onTrack_lastBatch_progress (by simp) found _ tb
  next =>
    rw [pushCovers_progress, pushCovers_progress]
    exact onTrack_lastBatch_progress (by simp) found _ tb

end

/-! ### A track's tick (Table 5.5) -/

section

variable {s : State} {n : Nat} {t : Track} {at_ : Ns}

/-- A track whose time is out ends (Table 5.5). -/
theorem tick_ends {st : TrackState} (found : s.trackOf n = some t) (state : t.state = st) (out_ : s.lastsTo t st ≤ at_) :
    s.tick n at_ = s.endTrack n at_ (s.lastsTo t st) 3 st.endReason := by
  cases st <;> (simp only [State.tick, found, state]; exact if_pos out_)

/-- A CONFIRMED track that is heard of and has road ahead makes its batch (R191). -/
theorem tick_batches (found : s.trackOf n = some t) (confirmed : t.state = .confirmed) (heard : at_ < t.heard + s.coastTime t)
    (road : s.endedAt t at_ = none) (due : t.lastBatch + s.num 0x4003 * ms ≤ at_) : s.tick n at_ = s.batch n at_ at_ := by
  simp only [State.tick, found, confirmed, Nat.not_le.mpr heard, road, due, if_true, if_false]

end

/-! ### The service of a track's flow -/

section

variable {s : State} {g n : Nat} {at_ : Ns}

@[simp] theorem leaveFlow_tracking (s : State) (w : Work) (o : ItemOutcome) : (s.leaveFlow w o).tracking = s.tracking :=
  iteInduction (motive := fun u : State => u.tracking = s.tracking) (fun _ => rfl) fun _ => rfl

theorem newest_tracking (s : State) (l : Table Ns) : { s with bs.newest := l }.tracking = s.tracking := rfl

theorem setLog_tracking (s : State) (key : Nat) (l : List LogEntry) : (s.setLog key l).tracking = s.tracking := rfl

@[simp] theorem bsLoad_tracking (s : State) (stragglers capped unprotected early : Nat) :
    (s.bsLoad stragglers capped unprotected early).tracking = s.tracking := by
  unfold State.bsLoad
  dsimp only
  split
  · exact raise_tracking _ _ _ _
  · rfl

@[simp] theorem commitFrom_tracking (fuel : Nat) (s : State) : (s.commitFrom fuel).tracking = s.tracking := by
  induction fuel generalizing s with
  | zero => rfl
  | succ fuel ih =>
    unfold State.commitFrom
    split
    · rfl
    · split
      · rfl
      · rw [ih, bsLoad_tracking]
        exact bump_tracking s _ _ _

@[simp] theorem commitEarly_tracking (s : State) : s.commitEarly.tracking = s.tracking := commitFrom_tracking _ _

@[simp] theorem logServed_tracking (s : State) (w : Work) (pushes : List PushRec) :
    (s.logServed w pushes).tracking = s.tracking := by
  unfold State.logServed
  dsimp only
  split
  · rfl
  · rw [commitEarly_tracking, newest_tracking, setLog_tracking]
    split <;> simp

theorem settleReplays_idle (fuel : Nat) {s : State} (idle : s.bs.replays = []) : State.settleReplays fuel s = s := by
  cases fuel with
  | zero => rfl
  | succ fuel => simp only [State.settleReplays, idle, List.find?_nil]

/-- With no rewind waiting and no replay under way, a served item has no further consequence for the tracks (R271, R279). -/
theorem afterServed_idle {s : State} (waiting : s.bs.waiting = []) (idle : s.bs.replays = []) :
    s.afterServed.tracking = s.tracking := by
  simp only [State.afterServed, waiting, List.filter_nil, List.foldl_nil, settleReplays_idle, idle]
  rw [State.tracking, State.tracking, waiting, idle]

theorem flowKey_tickWork (key : Nat) (at_ : Ns) : flowKey (tickWork key at_).item = key := by
  show key / 65536 * 65536 + key % 65536 = key
  omega

theorem isTick_tickWork (key : Nat) (at_ : Ns) : isTick (tickWork key at_).item = true := by
  show hasBit 8 3 = true
  decide

/-- The standard program ticks the track whose flow a tick item is of (log entry 6). -/
theorem program_tickWork (s : State) {w : Work} {key : Nat} (item : w.item = (tickWork key at_).item) (track : key % 65536 = n) :
    s.program w = s.tick n at_ := by
  subst track
  simp only [State.program, item, isTick_tickWork]
  rfl

/-- The flow of a track stands free, and an instant is not earlier than what it has served. -/
structure FreeFlow (s : State) (g n : Nat) (at_ : Ns) : Prop where
  consumer : s.consumer 0x00 = some g
  track : isTrackFlow n = true
  idle : s.inService (g * 65536 + n) = false
  hold : s.holdOf (g * 65536 + n) = []
  newest : s.newest (g * 65536 + n) ≤ at_
  stamped : 0 < at_
  waiting : s.bs.waiting = []
  replays : s.bs.replays = []

theorem FreeFlow.number_lt (free : FreeFlow s g n at_) : n < 65536 := by
  have track := free.track
  simp only [isTrackFlow, Bool.and_eq_true, decide_eq_true_eq] at track
  omega

/-- In a flow that stands free a tick is in order (Table 7.2). -/
theorem FreeFlow.meeting {u : State} (free : FreeFlow s g n at_) (view : u.trackView = s.trackView) :
    u.meeting (g * 65536 + n) at_ = .inOrder := by
  have newest : u.newest (g * 65536 + n) ≤ at_ := newest_of_trackView view _ ▸ free.newest
  simp only [State.meeting, Nat.ne_of_gt free.stamped, newest, if_true, if_false]

/-- The track's flow is the standard graph's. -/
theorem FreeFlow.standardFlow {u : State} (free : FreeFlow s g n at_) (view : u.trackView = s.trackView) :
    u.standardFlow (g * 65536 + n) = true := by
  have graph : (g * 65536 + n) / 65536 = g := by
    have := free.number_lt
    omega
  rw [State.standardFlow, consumer_of_trackView view, free.consumer, graph, beq_self_eq_true]

/-- What serving a tick item leaves of the tracks is what the track's tick leaves, on a state in which they stand as they did. -/
theorem runProgram_tickWork {v : State} {w : Work} {key : Nat} (standard : w.standard = true) (first : w.pass = .first)
    (item : w.item = (tickWork key at_).item) (track : key % 65536 = n) :
    ∃ u : State, u.trackView = v.trackView ∧ (v.runProgram none w).1.tracking = (u.tick n at_).1.tracking := by
  have own : w.pass ≠ .replayed := by rw [first]; decide
  refine ⟨{ v with bs.replaying := w.replays, bs.gathered := []
                   bs.serving := some (w.item.graph, w.item.flow, w.item.origin) }, rfl, ?_⟩
  rw [← program_tickWork _ item track]
  simp only [State.runProgram, standard, own, Bool.not_true, Bool.false_eq_true, if_false, Option.getD_none]
  rfl

/-- A served item of the track's flow: its alarm, its log and what is committed leave the tracks alone. -/
theorem logged_tracking (v : State) (w : Work) (o : ItemOutcome) (pushes : List PushRec) (waiting : v.bs.waiting = [])
    (idle : v.bs.replays = []) : ((v.leaveFlow w o).logServed w pushes).afterServed.tracking = v.tracking := by
  have still : ((v.leaveFlow w o).logServed w pushes).tracking = v.tracking := by simp
  rw [afterServed_idle, still]
  · exact (congrArg (fun x => x.2.1) still).trans waiting
  · exact (congrArg (fun x => x.2.2) still).trans idle

/-- What serves a track's tick in order: checkpoint, program, alarm, log (R191, Table 7.2). -/
def State.serveInOrder (s : State) (w0 : Work) (key : Nat) (at_ : Ns) : State :=
  let r := s.enliven w0
  let v := r.2.checkpoint key at_ (r.2.bs.serial + 1)
  let w := v.seated { r.1 with context := 0 }
  let p := { v with bs.serial := w.serial }.runProgram none w
  ((p.1.leaveFlow w { state := none, endFlow := false, pushes := [], pops := [], alarm := none, ops := 0, perfReads := []
                      badAccess := false, node := 0, errors := [] }).logServed w p.2).afterServed

theorem serveTick_inOrder (free : FreeFlow s g n at_) :
    s.serveTick n at_ = s.serveInOrder { tickWork (g * 65536 + n) at_ with pass := .first } (g * 65536 + n) at_ := by
  have open_ : ¬ (s.inService (g * 65536 + n) = true ∨ (!(s.holdOf (g * 65536 + n)).isEmpty) = true) := by
    simp [free.idle, free.hold]
  unfold State.serveTick
  simp only [free.consumer, free.meeting (enliven_trackView _ _), if_true]
  exact if_neg open_

theorem serveInOrder_progress {w0 : Work} {key : Nat} (item : w0.item = (tickWork key at_).item) (first : w0.pass = .first)
    (track : key % 65536 = n) (standard : ∀ u : State, u.trackView = s.trackView → u.standardFlow key = true)
    (waiting : s.bs.waiting = []) (idle : s.bs.replays = []) {x : Option (TrackState × Ns)}
    (ticks : ∀ u : State, u.trackView = s.trackView → (u.tick n at_).1.progress n = (x, u.bs.waiting, u.bs.replays)) :
    (s.serveInOrder w0 key at_).progress n = (x, [], []) := by
  obtain ⟨item', first'⟩ := enliven_item s w0
  have view := (checkpoint_trackView (s.enliven w0).2 key at_ ((s.enliven w0).2.bs.serial + 1)).trans (enliven_trackView s w0)
  unfold State.serveInOrder
  dsimp only
  generalize (s.enliven w0).2.checkpoint key at_ ((s.enliven w0).2.bs.serial + 1) = v at view ⊢
  generalize hw : v.seated { (s.enliven w0).1 with context := 0 } = w
  have standard : w.standard = true := by
    rw [← hw, ← standard v view, ← flowKey_tickWork key at_, ← item, ← item']
    rfl
  have served : w.item = (tickWork key at_).item ∧ w.pass = .first := by
    rw [← hw]
    exact ⟨item'.trans item, first'.trans first⟩
  obtain ⟨u, uView, ticked⟩ := runProgram_tickWork (v := { v with bs.serial := w.serial }) standard served.2 served.1 track
  have uView := uView.trans view
  have left := (progress_of_tracking ticked n).trans (ticks u uView)
  have waiting : u.bs.waiting = [] := (congrArg TrackView.waiting uView).trans waiting
  have idle : u.bs.replays = [] := (congrArg TrackView.replays uView).trans idle
  rw [waiting, idle] at left
  rw [progress_of_tracking (logged_tracking _ w _ _ (congrArg (fun x => x.2.1) left) (congrArg (fun x => x.2.2) left)), left]

theorem FreeFlow.serveTick_progress (free : FreeFlow s g n at_) {x : Option (TrackState × Ns)}
    (ticks : ∀ u : State, u.trackView = s.trackView → (u.tick n at_).1.progress n = (x, u.bs.waiting, u.bs.replays)) :
    (s.serveTick n at_).progress n = (x, [], []) := by
  have number : (g * 65536 + n) % 65536 = n := by
    have := free.number_lt
    omega
  rw [serveTick_inOrder free]
  refine serveInOrder_progress ?_ ?_ number (fun _ => free.standardFlow) free.waiting free.replays ticks <;> rfl

end

/-! ### The events of tracks (R184, R185, R191, Table 5.5) -/

section

variable {s : State} {g n : Nat} {at_ : Ns} {t : Track}

theorem trackOf_eq_none_of_progress {y : List (PushRec × Ns) × Table Replay} (gone : s.progress n = (none, y)) :
    s.trackOf n = none :=
  Option.map_eq_none_iff.mp (congrArg Prod.fst gone)

theorem endTrack_trackOf (s : State) (n : Nat) (origin at_ : Ns) (event reason : Nat) (taken : Option Nat) :
    (s.endTrack n origin at_ event reason taken).1.trackOf n = none := by
  cases found : s.trackOf n with
  | none => simp only [State.endTrack, found]
  | some t => exact trackOf_eq_none_of_progress (endTrack_progress _ _ _ _ _ found)

/-- Served when its time is out, a track is no track. -/
theorem serveTick_ends {st : TrackState} (free : FreeFlow s g n at_) (found : s.trackOf n = some t) (state : t.state = st)
    (out_ : s.lastsTo t st ≤ at_) : (s.serveTick n at_).trackOf n = none := by
  refine trackOf_eq_none_of_progress (free.serveTick_progress fun u view => ?_)
  have found := (trackOf_of_trackView view n).trans found
  rw [← lastsTo_of_trackView view] at out_
  rw [tick_ends found state out_, endTrack_progress _ _ _ _ _ found]

/-- Served at its tick with road ahead, a CONFIRMED track makes its batch (R191). -/
theorem serveTick_batches (free : FreeFlow s g n at_) (found : s.trackOf n = some t) (confirmed : t.state = .confirmed)
    (heard : at_ < t.heard + s.coastTime t) (road : s.endedAt t at_ = none) (due : t.lastBatch + s.num 0x4003 * ms ≤ at_) :
    ∃ x, (s.serveTick n at_).trackOf n = some x ∧ x.lastBatch = at_ ∧ x.state = .confirmed := by
  have left : (s.serveTick n at_).progress n = (some (t.state, at_), [], []) := by
    refine free.serveTick_progress fun u view => ?_
    have found := (trackOf_of_trackView view n).trans found
    rw [← coastTime_of_trackView view] at heard
    rw [← endedAt_of_trackView view] at road
    rw [← num_of_trackView view] at due
    rw [tick_batches found confirmed heard road due, batch_progress _ _ found]
  obtain ⟨x, stands, shown⟩ := Option.map_eq_some_iff.mp (congrArg Prod.fst left)
  obtain ⟨state, batch⟩ := Prod.mk.inj shown
  exact ⟨x, stands, batch, state.trans confirmed⟩

end

section

variable {dt : Ns} {s : State} {n : Nat} {due : Track → Option Ns} {t : Track} {d : Ns}

theorem trackDue_serves (found : s.trackOf n = some t) (served : s.served 0x00 = true) (at_ : due t = some d)
    (come : d ≤ s.tb) : s.trackDue n due = s.serveTick n d := by
  simp only [State.trackDue, found, Option.bind_some, at_, come, served, and_self, if_true]

theorem trackDue_early (found : s.trackOf n = some t) (at_ : due t = some d) (early : s.tb < d) : s.trackDue n due = s := by
  simp only [State.trackDue, found, Option.bind_some, at_, Nat.not_le.mpr early, false_and, if_false]

theorem trackDue_never (found : s.trackOf n = some t) (never : due t = none) : s.trackDue n due = s := by
  simp only [State.trackDue, found, Option.bind_some, never]

end

/-- When a CONFIRMED track's tick is due: pm.tick_ms after its last batch, or where it comes to the end of the road first. -/
def State.tickDue (s : State) (t : Track) : Option Ns :=
  let tick := t.lastBatch + s.num 0x4003 * ms
  if t.state = .confirmed then some (min tick ((s.endedAt t s.tb).getD tick)) else none

/-- When the timeout of tracks of a state is due. -/
def State.timeoutDue (s : State) (st : TrackState) (t : Track) : Option Ns :=
  if t.state = st then some (s.lastsTo t st) else none

/-- The timeout of tracks of a state. -/
def TrackState.timeout (dt : Ns) (n : Nat) : TrackState → Instr
  | .tentative => .tentativeTimeout dt n
  | .confirmed => .trackCoastTimeout dt n
  | .shadow => .shadowTimeout dt n

section

variable {dt : Ns} {s u : State} {n : Nat} (running : (s.begin dt).running = true)

include running

theorem trackTick_leads (effect : (s.begin dt).trackDue n (s.begin dt).tickDue = u) : Leads (.trackTick dt n) s u :=
  leads_of_event (f := fun s => s.trackDue n s.tickDue) rfl running effect

theorem timeout_leads (st : TrackState) (effect : (s.begin dt).trackDue n ((s.begin dt).timeoutDue st) = u) :
    Leads (st.timeout dt n) s u := by
  cases st <;> exact leads_of_event (f := fun s => s.trackDue n (s.timeoutDue _)) rfl running effect

end

section

variable {dt : Ns} {s : State} {n : Nat} {t : Track} (running : (s.begin dt).running = true)
  (found : (s.begin dt).trackOf n = some t) (served : (s.begin dt).served 0x00 = true)

include running found served

/-- TRACK_TICK of a CONFIRMED track with road ahead, heard of within its coast time, makes its batch. -/
theorem trackTick_batches (confirmed : t.state = .confirmed) {tick : Ns} (at_ : t.lastBatch + (s.begin dt).num 0x4003 * ms = tick)
    (road : (s.begin dt).endedAt t (s.begin dt).tb = none) (ahead : (s.begin dt).endedAt t tick = none)
    (come : tick ≤ (s.begin dt).tb) (heard : tick < t.heard + (s.begin dt).coastTime t)
    (flow : ∃ g, FreeFlow (s.begin dt) g n tick) :
    ∃ u x, Leads (.trackTick dt n) s u ∧ u.trackOf n = some x ∧ x.lastBatch = tick ∧ x.state = .confirmed := by
  have due : (s.begin dt).tickDue t = some tick := by
    simp only [State.tickDue, confirmed, road, at_, Option.getD_none, min_self, if_true]
  obtain ⟨g, flow⟩ := flow
  obtain ⟨x, stands, batch, state⟩ := serveTick_batches flow found confirmed heard ahead at_.le
  exact ⟨_, x, trackTick_leads running (trackDue_serves found served due come), stands, batch, state⟩

/-- The timeout of a track whose time is out serves its flow; where that stands free, the track ends. -/
theorem timeout_ends (st : TrackState) (state : t.state = st) (come : (s.begin dt).lastsTo t st ≤ (s.begin dt).tb) :
    Leads (st.timeout dt n) s ((s.begin dt).serveTick n ((s.begin dt).lastsTo t st)) ∧
      ((∃ g, FreeFlow (s.begin dt) g n ((s.begin dt).lastsTo t st)) →
        ∃ u, Leads (st.timeout dt n) s u ∧ u.trackOf n = none) := by
  have serves := timeout_leads running st (trackDue_serves found served (if_pos state) come)
  exact ⟨serves, fun ⟨_, flow⟩ => ⟨_, serves, serveTick_ends flow found state le_rfl⟩⟩

omit served in
/-- The timeout of another state's tracks changes nothing. -/
theorem timeout_never {st : TrackState} (other : t.state ≠ st) : Leads (st.timeout dt n) s (s.begin dt) :=
  timeout_leads running st (trackDue_never found (if_neg other))

end

/-! ### Holds of points (R189, R190, R197, R202) -/

section

variable {dt : Ns} {s u : State} {p : Pid} {e : Ns} (running : (s.begin dt).running = true)

include running

/-- UNTRACKED_COVER_EXPIRY closes the coverage of no track whose time has run out (R202). -/
theorem untrackedCoverExpiry_leads :
    let a := s.begin dt
    Leads (.untrackedCoverExpiry dt) s ((a.prom.loose.filter (fun l => l.until_ ≤ a.tb)).foldl
      (fun s l => (s.pushCovers l.until_ l.points l.number false l.until_).1)
      { a with prom.loose := a.prom.loose.filter (fun l => a.tb < l.until_) }) := by
  have exec_eq : exec (.untrackedCoverExpiry dt) s = execUntrackedCoverExpiry dt s := rfl
  unfold execUntrackedCoverExpiry at exec_eq
  exact leads_of_event exec_eq running rfl

/-- HOLD_EXPIRY of a hold that has run out turns the level to rest; a deferred fall goes out where there is room (R189, R197). -/
theorem holdExpiry_leads (closed : ((s.begin dt).coverOf p).closedAt = some e)
    (past : e + (s.begin dt).num 0x4008 * sec ≤ (s.begin dt).tb)
    (effect : (if ((s.begin dt).coverOf p).deferredAt.isSome && (s.begin dt).room 0x03 1 then (s.begin dt).sendFall p
      else s.begin dt) = u) : Leads (.holdExpiry dt p) s (u.onCover p (fun c => { c with closedAt := none })) := by
  have exec_eq : exec (.holdExpiry dt p) s = execHoldExpiry dt p s := rfl
  unfold execHoldExpiry at exec_eq
  refine leads_of_event exec_eq running ?_
  simp only [closed, past, if_true, effect]

/-- FLAP_HOLD_EXPIRY of a hold that has run out ends it, and lets a point fall that nothing keeps active (R190). -/
theorem flapHoldExpiry_leads (held : ((s.begin dt).coverOf p).flapUntil = some e) (past : e ≤ (s.begin dt).tb) {b : State}
    (free : (s.begin dt).onCover p (fun c => { c with flapUntil := none }) = b)
    (effect : (if b.promActive p (b.tb + b.num 0x4002 * ms) then b
      else ((b.onCover p (fun c => { c with active := true })).fall 0xFF 0 b.tb p (b.tb + b.num 0x4002 * ms)).1) = u) :
    Leads (.flapHoldExpiry dt p) s u := by
  have exec_eq : exec (.flapHoldExpiry dt p) s = execFlapHoldExpiry dt p s := rfl
  unfold execFlapHoldExpiry at exec_eq
  refine leads_of_event exec_eq running ?_
  simp only [held, past, if_true, free]
  exact effect

/-- FALL_DEFER_EXPIRY of a fall deferred for its time counts it and sends it (R197). -/
theorem fallDeferExpiry_leads (deferred : ((s.begin dt).coverOf p).deferredAt = some e)
    (past : e + (s.begin dt).num 0x4028 * sec ≤ (s.begin dt).clk.mono) :
    Leads (.fallDeferExpiry dt p) s (((s.begin dt).bump 0x40F3).sendFall p) := by
  have exec_eq : exec (.fallDeferExpiry dt p) s = execFallDeferExpiry dt p s := rfl
  unfold execFallDeferExpiry at exec_eq
  refine leads_of_event exec_eq running ?_
  simp only [deferred, past, if_true]

end

/-- Settles O27: each timeout serves its track's flow when its instant has come; in a flow that stands free the service comes to
the track's tick, which ends the track or makes its batch. -/
theorem tracksTickCoastAndEnd : Obligations.TracksTickCoastAndEnd := by
  refine ⟨fun dt s n t running => ?_, fun a n at_ t found => ?_,
    fun a origin at_ n event reason => endTrack_trackOf a n origin at_ event reason none, fun dt s running => ?_⟩
  · intro a tick due free found served
    have freeFlow {at_ : Ns} : free at_ → ∃ g, FreeFlow a g n at_ :=
      fun ⟨g, consumer, track, idle, hold, newest, stamped, waiting, replays⟩ =>
        ⟨g, consumer, track, idle, hold, newest, stamped, waiting, replays⟩
    have ends (st : TrackState) (state : t.state = st) (come : a.lastsTo t st ≤ a.tb) :
        Leads (st.timeout dt n) s (a.serveTick n (a.lastsTo t st)) ∧
          (free (a.lastsTo t st) → ∃ u, Leads (st.timeout dt n) s u ∧ u.trackOf n = none) :=
      (timeout_ends running found served st state come).imp_right fun over_ flow => over_ (freeFlow flow)
    refine ⟨fun confirmed => ?_, ends .tentative, ends .shadow, fun other => ?_,
      timeout_never (st := .tentative) running found, timeout_never (st := .shadow) running found⟩
    · have tickDue : a.tickDue t = some due := if_pos confirmed
      exact ⟨fun come => trackTick_leads running (trackDue_serves found served tickDue come),
        fun early => trackTick_leads running (trackDue_early found tickDue early),
        fun road ahead come heard flow =>
          trackTick_batches running found served confirmed rfl road ahead come heard (freeFlow flow),
        ends .confirmed confirmed⟩
    · exact ⟨trackTick_leads running (trackDue_never found (if_neg other)),
        timeout_never (st := .confirmed) running found other⟩
  · exact ⟨tick_ends found, tick_ends found, tick_ends found⟩
  · intro a
    refine ⟨untrackedCoverExpiry_leads running, fun p e closed past => ⟨fun level => ?_, fun deferred room => ?_⟩,
      fun p e held past => ⟨fun active => flapHoldExpiry_leads running held past rfl (if_pos active),
        fun rest => flapHoldExpiry_leads running held past rfl (if_neg (Bool.eq_false_iff.mp rest))⟩,
      fun p e => fallDeferExpiry_leads running⟩
    · exact holdExpiry_leads running closed past (by rw [level]; rfl)
    · exact holdExpiry_leads running closed past (if_pos (Bool.and_eq_true_iff.mpr ⟨deferred, room⟩))

/-! ### Handovers (R206–R210) -/

section

variable {r : Req} {s : State} {jn : Junction}

/-- A HANDOVER for a portal of this module, from the module at its far side, of valid fields (R206, Table 5.8). -/
structure HandoverFits (s : State) (p : List Byte) (jn : Junction) : Prop where
  portal : s.portalJunction (fld p 11 1) = some jn
  sender : s.moduleOfRing (pidAt p 4) = true
  neighbour : jn.neighbour = pidSegment (pidAt p 4)
  peerPortal : jn.peerPortal = fld p 10 1
  fields : handoverOk p = true

/-- A HANDOVER's answer with its launch, a RESULT, and the state it leaves (R207). -/
def handoverAnswer (launch : Ns) (y : Nat × State) : Result := ok (u64 launch ++ u8 y.1 ++ zeros 3) y.2

/-- The state that takes a handover: a launch that had to be moved is counted (R192). -/
def State.lateCounted (s : State) (asked launch : Ns) : State :=
  if asked < launch then (s.bump 0x40F2).promLoad 0 1 0 else s

/-- What a HANDOVER of valid fields comes to: the refusal of R207, or the track or coverage that takes it. -/
theorem handoverBody_fits (fits : HandoverFits s r.payload jn) (room : s.served 0x05 = false ∨ s.room 0x05 1 = true) :
    let p := r.payload
    let launch := max (fld p 16 8) s.soonest
    handoverBody r s = match s.entryOf jn.number with
      | none => handoverAnswer launch (2, s)
      | some (sect, x, fwd) =>
        if !s.served 0x05 ∨ !s.flag 0x4080 sect then handoverAnswer launch (2, s)
        else handoverAnswer launch ((s.lateCounted (fld p 16 8) launch).takeHandover p (sourceMac r.src) sect x fwd launch) := by
  have valid : ¬ ((!s.moduleOfRing (pidAt r.payload 4)) = true ∨ jn.neighbour ≠ pidSegment (pidAt r.payload 4) ∨
      jn.peerPortal ≠ fld r.payload 10 1 ∨ (!handoverOk r.payload) = true) := by
    simp [fits.sender, fits.neighbour, fits.peerPortal, fits.fields]
  have free : ¬ (s.served 0x05 = true ∧ (!s.room 0x05 1) = true) := by
    rcases room with idle | room
    · simp [idle]
    · simp [room]
  unfold handoverBody
  simp only [fits.portal]
  rw [if_neg valid, if_neg free]
  rfl

/-- A handover is refused with RESULT 2 while no graph serves queue 0x05 (R207; log entry 59). -/
theorem handoverBody_unserved (fits : HandoverFits s r.payload jn) (idle : s.served 0x05 = false) :
    handoverBody r s = handoverAnswer (max (fld r.payload 16 8) s.soonest) (2, s) := by
  rw [handoverBody_fits fits (.inl idle)]
  split
  · rfl
  · exact if_pos (.inl (by rw [idle]; rfl))

/-- The place of a handover's shadow: the track it has or is about to fill, or a free one where fewer than 64 handovers are open
(Table 5.7). -/
def State.handoverPlace (s : State) (mac : Mac) (id : Nat) : Option Nat :=
  match s.shadowPlace mac id with
  | some n => some n
  | none => if s.handoversOpen < 64 then s.freeTrack else none

theorem takeHandover_eq (p : List Byte) (mac : Mac) (sect : Nat) (x : Int) (fwd : Bool) (launch : Ns) :
    s.takeHandover p mac sect x fwd launch =
      let ps := s.beyondPortal (fld p 12 1) sect x fwd ((fld p 40 4 : Int) * cm)
      match s.handoverPlace mac (fld p 0 4) with
      | some n => (0, s.peerItem n (fld p 32 8) mac 0x40C0 (p.take 16 ++ u64 launch ++ p.drop 24))
      | none => (1, ((s.bump 0x40FA 0 ps.2).promLoad 1 0 0).renewLoose mac (fld p 0 4) ps.1 launch) := rfl

theorem takeHandover_placed {p : List Byte} {mac : Mac} {n : Nat} (sect : Nat) (x : Int) (fwd : Bool) (launch : Ns)
    (place : s.handoverPlace mac (fld p 0 4) = some n) :
    s.takeHandover p mac sect x fwd launch =
      (0, s.peerItem n (fld p 32 8) mac 0x40C0 (p.take 16 ++ u64 launch ++ p.drop 24)) := by
  rw [takeHandover_eq, place]

theorem takeHandover_unplaced {p : List Byte} {mac : Mac} (sect : Nat) (x : Int) (fwd : Bool) (launch : Ns)
    (place : s.handoverPlace mac (fld p 0 4) = none) :
    let ps := s.beyondPortal (fld p 12 1) sect x fwd ((fld p 40 4 : Int) * cm)
    s.takeHandover p mac sect x fwd launch =
      (1, ((s.bump 0x40FA 0 ps.2).promLoad 1 0 0).renewLoose mac (fld p 0 4) ps.1 launch) := by
  rw [takeHandover_eq, place]

section

variable {sect : Nat} {x : Int} {fwd : Bool} (fits : HandoverFits s r.payload jn)
  (entry : s.entryOf jn.number = some (sect, x, fwd)) (served : s.served 0x05 = true) (room : s.room 0x05 1 = true)

include fits entry room

/-- With a graph on queue 0x05 and room in it, a handover is refused while Promenade is off for the section that its portal leads
to (R207). -/
theorem handoverBody_off (off : s.flag 0x4080 sect = false) :
    handoverBody r s = ok (u64 (max (fld r.payload 16 8) s.soonest) ++ u8 2 ++ zeros 3) s := by
  rw [handoverBody_fits fits (.inr room)]
  simp only [entry]
  exact if_pos (.inr (by rw [off]; rfl))

include served in
/-- Otherwise it is taken. -/
theorem handoverBody_on (on : s.flag 0x4080 sect = true) {launch : Ns} (moved : max (fld r.payload 16 8) s.soonest = launch)
    {b : State} (counted : s.lateCounted (fld r.payload 16 8) launch = b) {result : Nat} {u : State}
    (taken : b.takeHandover r.payload (sourceMac r.src) sect x fwd launch = (result, u)) :
    handoverBody r s = ok (u64 launch ++ u8 result ++ zeros 3) u := by
  rw [handoverBody_fits fits (.inr room)]
  simp only [entry, moved, counted, taken]
  exact if_neg (by simp [served, on])

end

end

/-! ### The flow of a handed-over track (R207–R209, Table 5.5) -/

section

variable {s : State} {n : Nat} {t : Track}

/-- What a shadow's update covers is all that it changes of the track. -/
theorem coverShadow_trackOf (origin : Ns) (h : Handover) (found : s.trackOf n = some t) :
    ∃ covered, (s.coverShadow n origin h).1.trackOf n = some { t with covered := covered } := by
  refine ⟨t.covered.filter (fun p => !(s.batchPlan t h.launch).closes.contains p) ++ (s.batchPlan t h.launch).opens, ?_⟩
  unfold State.coverShadow
  rw [found]
  dsimp only
  rw [trackOf_of_tracking (pushCovers_tracking _ _ _ _ _ _), trackOf_of_tracking (pushCovers_tracking _ _ _ _ _ _),
    trackOf_onTrack, if_pos rfl, trackOf_of_tracking (openBatch_tracking _ _ _ _), trackOf_of_tracking (bump_tracking _ _ _ _),
    found]
  rfl

/-- A HANDOVER that reaches a flow without a track opens its shadow (R207). -/
theorem shadowUpdate_opens (origin : Ns) (mac : Mac) {p : List Byte} {jn : Junction} {e : Nat × Int × Bool}
    (portal : s.portalJunction (fld p 11 1) = some jn) (entry : s.entryOf jn.number = some e) (none_ : s.trackOf n = none) :
    ∃ t, (s.shadowUpdate n origin mac p).1.trackOf n = some t ∧ t.state = .shadow ∧
      t.received = some (handoverOf mac p) := by
  obtain ⟨sect, x, fwd⟩ := e
  have way : (s.portalJunction (handoverOf mac p).portal).bind (fun j => s.entryOf j.number) = some (sect, x, fwd) := by
    show (s.portalJunction (fld p 11 1)).bind _ = _
    rw [portal, Option.bind_some, entry]
  unfold State.shadowUpdate
  simp only [way, none_]
  have stands (t : Track) (origin : Ns) :
      ({ s with prom.tracks := tput s.prom.tracks n t }.trackRecord t 1 origin).trackOf n = some t := by
    rw [trackOf_of_tracking (trackRecord_tracking _ _ _ _)]
    exact tget_tput_same _ _ _
  obtain ⟨covered, covers⟩ := coverShadow_trackOf origin (handoverOf mac p) (stands _ origin)
  exact ⟨_, covers, rfl, rfl⟩

theorem handedOver_ends (origin : Ns) {mac : Mac} {id : Nat} (found : s.trackOf n = some t)
    (sent : t.sent.any (fun h => h.peer == mac && h.id == id) = true) : (s.handedOver n origin mac id).1.trackOf n = none := by
  simp only [State.handedOver, found, sent, if_true, endTrack_trackOf]

theorem shadowCancel_ends {mac : Mac} {p : List Byte} (found : s.trackOf n = some t) (shadow : t.state = .shadow)
    (received : t.received.any (fun h => h.peer == mac && h.id == fld p 0 4) = true) :
    (s.shadowCancel n mac p).1.trackOf n = none := by
  simp only [State.shadowCancel, found, shadow, received, and_self, if_true, endTrack_trackOf]

end

/-! ### HANDOVER_TAKEN and HANDOVER_CANCEL (R208, R209) -/

section

variable {r : Req} {s : State}

/-- A message for a track's flow goes there where queue 0x05 has room for it, or no graph serves it. -/
theorem toTrack_goes {n : Nat} {stamp : Ns} {mac : Mac} {opcode : Nat} {p : List Byte}
    (room : s.served 0x05 = false ∨ s.room 0x05 1 = true) :
    s.toTrack (some n) stamp mac opcode p = ok [] (s.peerItem n stamp mac opcode p) := by
  refine if_neg fun ⟨served, full⟩ => ?_
  rcases room with idle | room
  · exact Bool.eq_false_iff.mp idle served
  · simp [room] at full

theorem handoverTakenBody_toTrack (sender : s.moduleOfRing (pidAt r.payload 4) = true) (stamped : fld r.payload 12 8 ≠ 0) :
    handoverTakenBody r s = s.toTrack ((s.senderOf (sourceMac r.src) (fld r.payload 0 4)).map (fun t => t.number))
      (fld r.payload 12 8) (sourceMac r.src) 0x40C1 r.payload :=
  if_neg (by simp [sender, stamped])

theorem handoverCancelBody_valid (sender : s.moduleOfRing (pidAt r.payload 4) = true) (low : 1 ≤ fld r.payload 10 1)
    (high : fld r.payload 10 1 ≤ 3) (stamped : fld r.payload 12 8 ≠ 0) :
    handoverCancelBody r s = match s.shadowPlace (sourceMac r.src) (fld r.payload 0 4) with
      | some n => s.toTrack (some n) (fld r.payload 12 8) (sourceMac r.src) 0x40C2 r.payload
      | none => ok [] (s.cancelLoose (sourceMac r.src) (fld r.payload 0 4) (fld r.payload 12 8)) := by
  refine (if_neg ?_).trans rfl
  simp [sender, stamped, high, Nat.one_le_iff_ne_zero.mp low]

end

/-! ### The module's own peer messages (R54, R210) -/

section

variable {r : Req} {op st : Nat} {s u : State} {msg : PeerMsg}

theorem peerResponse_leads (effect : (s.begin r.dt).peerResponse r op st = u) : Leads (.peerResponse r op st) s u :=
  effect ▸ ⟨_, rfl, reports_settle _⟩

/-- A response on a lane without an unanswered message is discarded and counted (R54). -/
theorem peerResponse_stray (hears : s.hears r.src = true) (none_ : (s.peerLane (reqMac r) r.lane.toNat).outstanding = none) :
    s.peerResponse r op st = { s with link.counts.dirDiscards := s.link.counts.dirDiscards + 1 } := by
  simp only [State.peerResponse, hears, none_, Bool.not_true, Bool.false_eq_true, if_false]

/-- A final response that matches the lane's message frees the lane, and does what an answer does (R210). -/
theorem peerResponse_final (hears : s.hears r.src = true)
    (sent : (s.peerLane (reqMac r) r.lane.toNat).outstanding = some msg) (seq : (s.peerLane (reqMac r) r.lane.toNat).seq = r.seq)
    (ring : isRing r.src.endpoint = true) (final : r.flags.getLsbD 1 = false) (notBusy : st ≠ stBusy)
    (inSequence : st ≠ stSequence) :
    s.peerResponse r msg.opcode st =
      (((s.touch r.src).setPeerLane { s.peerLane (reqMac r) r.lane.toNat with outstanding := none }).peerAnswered
        (reqMac r) msg st r.payload).peerGoOn := by
  simp only [State.peerResponse, State.peerResponds, hears, sent, seq, ring, final, notBusy, inSequence, Bool.not_true,
    Bool.false_eq_true, and_self, if_true, if_false]

end

section

variable {s : State} {m : Mac} {lane : Nat} {msg : PeerMsg}

/-- Promenade's messages wait 30 ms for an answer, and are sent again twice (R210). -/
theorem resendRule_promenade {op : Nat} (group : op / 256 = 0x40) : resendRule op = (30 * ms, 2) :=
  if_neg (by omega)

theorem peerResend_early (sent : (s.peerLane m lane).outstanding = some msg) (group : msg.opcode / 256 = 0x40)
    (early : s.clk.mono < msg.sentAt + 30 * ms) : s.peerResend m lane = s := by
  simp only [State.peerResend, sent, resendRule_promenade group, early, if_true]

theorem peerResend_gives_up (sent : (s.peerLane m lane).outstanding = some msg) (group : msg.opcode / 256 = 0x40)
    (waited : msg.sentAt + 30 * ms ≤ s.clk.mono) (last : 2 ≤ msg.resends) :
    s.peerResend m lane = (s.setPeerLane { s.peerLane m lane with outstanding := none, synced := false }).peerGoOn := by
  simp only [State.peerResend, sent, resendRule_promenade group, Nat.not_lt.mpr waited, last, if_true, if_false]

theorem peerResend_again (sent : (s.peerLane m lane).outstanding = some msg) (group : msg.opcode / 256 = 0x40)
    (waited : msg.sentAt + 30 * ms ≤ s.clk.mono) (more : msg.resends < 2) :
    s.peerResend m lane =
      (s.setPeerLane { s.peerLane m lane with
        outstanding := some { msg with sentAt := s.clk.mono, resends := msg.resends + 1 } }).send (peerSource m)
        (msg.opcode / 256 == 0x40)
        (message lane (if msg.sync then 12 else 8) (s.peerLane m lane).seq.toNat msg.opcode 0 0#64 msg.payload) := by
  simp only [State.peerResend, sent, resendRule_promenade group, Nat.not_lt.mpr waited, Nat.not_le.mpr more, if_false]

theorem peerResend_leads {dt : Ns} {lane : Byte} {u : State} (running : (s.begin dt).running = true)
    (effect : (s.begin dt).peerResend m lane.toNat = u) : Leads (.peerResend dt m lane) s u :=
  leads_of_event (f := fun s => s.peerResend m lane.toNat) rfl running effect

/-- An event that ends by sending a message has handed it to its port, and leaves the rest but for reports. -/
theorem event_sends {dt : Ns} {f : State → State} {s b : State} {dst : Source} {express : Bool} {bytes : List Byte}
    (running : (s.begin dt).running = true) (effect : f (s.begin dt) = b.send dst express bytes) :
    ∃ t, event dt f s = .next t ∧ Reports b t ∧ t.delivers dst bytes := by
  refine ⟨_, rfl, ?_⟩
  rw [if_pos running, effect]
  exact ⟨(send_bare b dst express bytes).symm.trans (settle_bare _).symm, (settle_handed _).delivers (send_delivers _ _ _ _)⟩

end

/-! ### Lost handovers (R210) -/

/-- A handover of the ID whose crossing instant has come unanswered, and that has not been counted as lost. -/
def Handover.losesAt (id : Nat) (now_ : Ns) (h : Handover) : Bool :=
  h.id == id && decide (h.crossing ≤ now_) && !h.answered && !h.lost

section

variable {s : State} {id n : Nat} {t : Track}

theorem handoverCrossing_leads {dt : Ns} {u : State} (running : (s.begin dt).running = true)
    (effect : (s.begin dt).loseHandover id = u) : Leads (.handoverCrossing dt id) s u :=
  leads_of_event (f := fun s => s.loseHandover id) rfl running effect

theorem loseHandover_counts (found : s.prom.tracks.find? (fun e => e.2.sent.any (Handover.losesAt id s.tb)) = some (n, t)) :
    s.loseHandover id = (s.bump 0x40F5).onTrack n (fun t =>
      { t with sent := t.sent.map (fun h => if Handover.losesAt id s.tb h then { h with lost := true } else h) }) := by
  unfold Handover.losesAt at found ⊢
  simp only [State.loseHandover, found]

theorem loseHandover_idle (none_ : s.prom.tracks.all (fun e => !e.2.sent.any (Handover.losesAt id s.tb)) = true) :
    s.loseHandover id = s := by
  have missing : s.prom.tracks.find? (fun e => e.2.sent.any (Handover.losesAt id s.tb)) = none := by
    simpa using none_
  unfold Handover.losesAt at missing
  simp only [State.loseHandover, missing]

end

/-- Settles O28: the branches of the three commands' bodies, the flow's handling of the three messages, the module's own messages,
and the crossing of an unanswered handover. -/
theorem handoversAreTakenRenewedAndWithdrawn : Obligations.HandoversAreTakenRenewedAndWithdrawn := by
  refine ⟨fun r s jn ready => ?_, fun a n origin mac p jn e => shadowUpdate_opens origin mac,
    fun a n id origin mac p t found => ?_, fun r s ready => ?_, fun r s ready => ?_, fun r op st s hears => ?_,
    fun r st s msg hears => ?_, fun dt m lane s msg running => ?_, fun dt id n s t running => ?_⟩
  · intro a p mac launch b place portal sender neighbour peerPortal fields
    have fits : HandoverFits a p jn := ⟨portal, sender, neighbour, peerPortal, fields⟩
    refine ⟨fun idle => shotas_ok ready (handoverBody_unserved fits idle), fun sect x fwd entry served room => ?_⟩
    exact ⟨fun off => shotas_ok ready (handoverBody_off fits entry room off), fun on =>
      ⟨fun n free => shotas_ok ready
          (handoverBody_on fits entry served room on rfl rfl (takeHandover_placed sect x fwd launch free)),
        fun full => shotas_ok ready
          (handoverBody_on fits entry served room on rfl rfl (takeHandover_unplaced sect x fwd launch full))⟩⟩
  · exact ⟨handedOver_ends origin found, shadowCancel_ends found⟩
  · intro a p sender stamped
    have body := handoverTakenBody_toTrack (r := r) sender stamped
    refine ⟨fun t known room => shotas_ok ready (body.trans ?_), fun unknown => shotas_ok ready (body.trans ?_)⟩
    · rw [known]
      exact toTrack_goes room
    · rw [unknown]
      rfl
  · intro a p sender low high stamped
    have body := handoverCancelBody_valid (r := r) sender low high stamped
    refine ⟨fun n shadow room => shotas_ok ready (body.trans ?_), fun none_ => shotas_ok ready (body.trans ?_)⟩
    · rw [shadow]
      exact toTrack_goes room
    · rw [none_]
  · intro a none_
    exact peerResponse_leads (peerResponse_stray hears none_)
  · intro a l sent seq ring final notBusy inSequence
    exact peerResponse_leads (peerResponse_final hears sent seq ring final notBusy inSequence)
  · intro a l sent group
    exact ⟨fun waited more => event_sends (f := fun s => s.peerResend m lane.toNat) running
        (peerResend_again sent group waited more),
      fun waited last => peerResend_leads running (peerResend_gives_up sent group waited last),
      fun early => peerResend_leads running (peerResend_early sent group early)⟩
  · intro a lost
    exact ⟨fun found => handoverCrossing_leads running (loseHandover_counts found),
      fun none_ => handoverCrossing_leads running (loseHandover_idle none_)⟩

end Sys2Proof.Machine

/-! ## Graphs, engines and queues (spec chapter 6) -/

namespace Sys2Proof.Machine

/-! ### What counting and reporting leave alone -/

section

variable {u t : State}

/-- A queue other than the History Store's stands alike in states that agree but for reports. -/
theorem Reports.queue (agree : Reports u t) {q : Nat} (other : q ≠ 0x0A) : t.queue q = u.queue q := by
  have read (s : State) : s.bare.queue q = s.queue q := by
    simp only [State.queue, State.bare, tget_tdel_other _ other]
  rw [← read t, ← read u, agree.eq]

theorem Reports.specs (agree : Reports u t) : t.qm.specs = u.qm.specs := agree.at (fun s : State => s.qm.specs)

theorem Reports.slotOf (agree : Reports u t) (g : Nat) : t.slotOf g = u.slotOf g := agree.at (fun s : State => s.slotOf g)

/-- A parameter's value stands alike in states that agree but for reports. -/
theorem Reports.num (agree : Reports u t) (id idx : Nat) : t.num id idx = u.num id idx :=
  State.num_congr agree.params (agree.at State.id) agree.specs id idx

variable (s : State)

@[simp] theorem bump_qm (id idx n : Nat) : (s.bump id idx n).qm = s.qm := by
  unfold State.bump
  split <;> rfl

@[simp] theorem perfEdge_qm (event what n : Nat) : (s.perfEdge event what n).qm = s.qm :=
  foldl_keeps State.qm (fun s e => by split <;> rfl) _ s

@[simp] theorem meterBytes_qm (source dir n : Nat) : (s.meterBytes source dir n).qm = s.qm := by
  obtain ⟨p, meters⟩ := s.meterBytes_perf source dir n
  rw [meters]

@[simp] theorem perfEdge_par (event what n : Nat) : (s.perfEdge event what n).par = s.par :=
  foldl_keeps State.par (fun s e => by split <;> rfl) _ s

@[simp] theorem meterBytes_par (source dir n : Nat) : (s.meterBytes source dir n).par = s.par := by
  obtain ⟨p, meters⟩ := s.meterBytes_perf source dir n
  rw [meters]

/-- A queue is read off the queue manager. -/
theorem State.queue_congr {s t : State} (same : s.qm = t.qm) (q : Nat) : s.queue q = t.queue q := by
  rw [State.queue, State.queue, same]

theorem bump_counter (id idx : Nat) : (s.bump id idx).counter id idx = (s.counter id idx + 1) % counterMod id := by
  rw [State.bump, if_neg Nat.one_ne_zero, State.counter_setCounter_same]

end

/-! ### Pushes and pops (R249–R251) -/

section

variable {s : State} {q q' : Nat}

/-- A crossing of a queue's level is marked on that queue, and its items stand (R250). -/
theorem crossed_items (d : Nat) (other : q ≠ 0x0A) : ((s.crossed q d).queue q).items = (s.queue q).items := by
  have counted : (s.bump 0x4C86 q).queue q = s.queue q := State.queue_congr (bump_qm s _ _ _) q
  unfold State.crossed State.queueLevel
  split
  · dsimp only
    split
    · rw [State.queue_setQueue_same, counted]
    · rw [Reports.queue (raise_bare _ _ _ _).symm other, State.queue_setQueue_same, counted]
  · rfl

theorem crossed_queue_other (d : Nat) (apart : q' ≠ q) (other : q' ≠ 0x0A) : (s.crossed q d).queue q' = s.queue q' := by
  have counted : (s.bump 0x4C86 q).queue q' = s.queue q' := State.queue_congr (bump_qm s _ _ _) q'
  unfold State.crossed State.queueLevel
  split
  · dsimp only
    split
    · rw [State.queue_setQueue_other _ _ apart, counted]
    · rw [Reports.queue (raise_bare _ _ _ _).symm other, State.queue_setQueue_other _ _ apart, counted]
  · rfl

/-- An item as the queue keeps it: with the instant and the place of its push (R216). -/
def State.stamped (s : State) (it : Item) : Item := { it with enq := s.clk.timeBase / us % pow32, order := s.qm.pushed }

/-- A push adds its item at the end. -/
theorem put_items (it : Item) (other : q ≠ 0x0A) : ((s.put q it).queue q).items = (s.queue q).items ++ [s.stamped it] := by
  unfold State.put
  rw [State.queue_congr (meterBytes_qm _ _ _ _), State.queue_congr (perfEdge_qm _ _ _ _), crossed_items _ other,
    State.queue_setQueue_same]
  rfl

theorem put_queue_other (it : Item) (apart : q' ≠ q) (other : q' ≠ 0x0A) : (s.put q it).queue q' = s.queue q' := by
  unfold State.put
  rw [State.queue_congr (meterBytes_qm _ _ _ _), State.queue_congr (perfEdge_qm _ _ _ _), crossed_queue_other _ apart other,
    State.queue_setQueue_other _ _ apart]
  rfl

theorem offer_refused (it : Item) (full : s.room q 1 = false) : s.offer q it = s.bump 0x4C88 q := by
  simp only [State.offer, full, Bool.false_eq_true, if_false]

theorem offer_put (it : Item) (room : s.room q 1 = true) : s.offer q it = s.put q it := if_pos room

theorem offer_queue_other (it : Item) (apart : q' ≠ q) (other : q' ≠ 0x0A) : (s.offer q it).queue q' = s.queue q' := by
  unfold State.offer
  split
  · exact put_queue_other it apart other
  · exact State.queue_congr (bump_qm s _ _ _) q'

/-- What a pop counts besides: the pop's edge, and the bytes of its cell (R494, R500). -/
def State.countPop (s : State) (q : Nat) : State := (s.perfEdge 0x0011 q 1).meterBytes 8 1 64

@[simp] theorem countPop_qm : (s.countPop q).qm = s.qm := by simp [State.countPop]

@[simp] theorem countPop_par : (s.countPop q).par = s.par := by simp [State.countPop]

/-- A pop of an empty queue (R251). -/
theorem pop_empty (empty : (s.queue q).items = []) : s.pop q =
    ({ (s.queue q).last.getD .zero with flags := ((s.queue q).last.getD .zero).flags ||| 4 }, (s.bump 0x4C87 q).countPop q) := by
  unfold State.pop
  dsimp only
  split
  · next it rest head => simp [empty] at head
  · rfl

/-- A pop of a queue with items. -/
theorem pop_head {it : Item} {rest : List Item} (head : (s.queue q).items = it :: rest) : s.pop q =
    (it, (s.setQueue q { s.queue q with items := rest, last := some it }).countPop q) := by
  unfold State.pop
  dsimp only
  split
  · next it' rest' head' =>
    obtain ⟨rfl, rfl⟩ := List.cons.inj (head.symm.trans head')
    rfl
  · next empty => simp [head] at empty

theorem pop_empty_counter (empty : (s.queue q).items = []) :
    (s.pop q).2.counter 0x4C87 q = (s.counter 0x4C87 q + 1) % counterMod 0x4C87 := by
  rw [pop_empty empty, ← bump_counter]
  exact congrArg (fun p : Params => cget p.counts (pkey 0x4C87 q)) countPop_par

theorem pop_empty_items (empty : (s.queue q).items = []) : ((s.pop q).2.queue q).items = [] := by
  rw [pop_empty empty, State.queue_congr countPop_qm, State.queue_congr (bump_qm s _ _ _), empty]

theorem pop_head_queue {it : Item} {rest : List Item} (head : (s.queue q).items = it :: rest) :
    (s.pop q).2.queue q = { s.queue q with items := rest, last := some it } := by
  rw [pop_head head, State.queue_congr countPop_qm, State.queue_setQueue_same]

end

/-! ### Table 6.7's queue entries (R255) -/

section

variable (s : State) (q : Nat)

@[simp] theorem fld_u16 (v : Nat) : fld (u16 v) 0 2 = v % 65536 := fld_le 2 v

theorem bit_le_one (b : Bool) : bit b ≤ 1 := by cases b <;> decide

@[simp] theorem State.queueEntry_length : (s.queueEntry q).length = 20 := by
  simp [State.queueEntry]

theorem State.queueEntry_number : fld (s.queueEntry q) 0 1 = q % 256 := by
  simp [State.queueEntry, fld_append_left]

theorem State.queueEntry_depth : fld (s.queueEntry q) 2 2 = s.depth q % 65536 := by
  simp [State.queueEntry, fld_append_left, fld_append_right]

theorem State.queueEntry_status : fld (s.queueEntry q) 1 1 =
    bit (s.depth q == 0) + 2 * bit (s.above q) + 4 * bit (s.queueFull q) := by
  have small : bit (s.depth q == 0) + 2 * bit (s.above q) + 4 * bit (s.queueFull q) < 256 := by
    have empty := bit_le_one (s.depth q == 0)
    have above := bit_le_one (s.above q)
    have full := bit_le_one (s.queueFull q)
    omega
  simp [State.queueEntry, fld_append_left, fld_append_right, Nat.mod_eq_of_lt small]

/-- Bit 0 of a queue's status is EMPTY. -/
theorem State.queueEntry_empty : fld (s.queueEntry q) 1 1 % 2 = 1 ↔ (s.queue q).items = [] := by
  have parity (a b : Nat) : (bit (s.depth q == 0) + 2 * a + 4 * b) % 2 = bit (s.depth q == 0) := by
    have empty := bit_le_one (s.depth q == 0)
    omega
  rw [s.queueEntry_status, parity, ← List.length_eq_zero_iff]
  simp [bit, State.depth]

end

/-- Settles O31: a queue's two ends are changed by a push and a pop as R251 says, and counts and reports leave the queues. -/
theorem fullQueuesRefuseAndEmptyOnesUnderrun : Obligations.FullQueuesRefuseAndEmptyOnesUnderrun := by
  intro s q
  refine ⟨s.queueEntry_empty q,
    fun empty => ⟨congrArg Prod.fst (pop_empty empty), pop_empty_items empty, pop_empty_counter empty⟩,
    fun it rest head => ⟨congrArg Prod.fst (pop_head head), ?_, ?_⟩, fun it => offer_refused it, fun it room other => ?_,
    fun q' it apart other => congrArg Queue.items (offer_queue_other it apart other)⟩
  · rw [pop_head_queue head]
  · rw [pop_head_queue head]
  · exact ⟨s.stamped it, by rw [offer_put it room, put_items it other], rfl, rfl, rfl⟩

/-! ### The queries of Tables 6.7, 6.8 and 7.7 (R255, R293) -/

section

variable {r : Req} {s : State}

@[simp] theorem State.engineEntry_length (s : State) (e : Nat) : (s.engineEntry e).length = 16 := by
  simp [State.engineEntry]

/-- The ENGINE_STATUS response. -/
def State.engineTable (s : State) : List Byte := u16 16 ++ u16 0 ++ ((List.range 16).map s.engineEntry).flatten

theorem State.engineTable_count (s : State) : fld s.engineTable 0 2 = 16 := by
  simp only [State.engineTable, List.append_assoc]
  exact fld_le_append 2 16 _

theorem State.engineTable_length (s : State) : s.engineTable.length = 4 + 16 * 16 := by
  simp [State.engineTable, List.length_flatten, Function.comp_def]

theorem engineStatus_answers (ready : Ready engineStatusCommand r s) :
    Answers (.engineStatus r) r s (s.taken engineStatusCommand r).engineTable (s.taken engineStatusCommand r) :=
  shotas_ok ready rfl

/-- The QUEUE_STATUS response for `n` queues from `q` on. -/
def State.queueTable (s : State) (q n : Nat) : List Byte :=
  u16 n ++ u16 0 ++ ((List.range n).map (fun i => s.queueEntry (q + i))).flatten

theorem State.queueTable_count (s : State) (q : Nat) {n : Nat} (small : n < 65536) : fld (s.queueTable q n) 0 2 = n := by
  simp only [State.queueTable, List.append_assoc]
  exact (fld_le_append 2 n _).trans (Nat.mod_eq_of_lt small)

theorem State.queueTable_length (s : State) (q n : Nat) : (s.queueTable q n).length = 4 + 20 * n := by
  simp [State.queueTable, List.length_flatten, Function.comp_def]
  omega

/-- The i-th entry stands behind the count. -/
theorem State.queueTable_entry (s : State) (q : Nat) {n i : Nat} (inside : i < n) {off w : Nat} (within : off + w ≤ 20) :
    fld (s.queueTable q n) (4 + 20 * i + off) w = fld (s.queueEntry (q + i)) off w := by
  have behind : 4 + 20 * i + off - (u16 n ++ u16 0).length = 20 * i + off := by
    rw [List.length_append, u16_length, u16_length]
    omega
  rw [State.queueTable, fld_append_right _ _ (by rw [List.length_append, u16_length, u16_length]; omega), behind,
    fld_flatten_map (f := fun i => s.queueEntry (q + i)) (fun i => s.queueEntry_length (q + i))
      (List.getElem?_range inside) within]

theorem queueStatusBody_inRange (some_ : 1 ≤ fld r.payload 1 1) (few : fld r.payload 1 1 ≤ 64)
    (inside : fld r.payload 0 1 + fld r.payload 1 1 ≤ 256) :
    queueStatusBody r s = ok (s.queueTable (fld r.payload 0 1) (fld r.payload 1 1)) s :=
  if_neg (by omega)

theorem queueStatusBody_beyond
    (beyond : fld r.payload 1 1 = 0 ∨ 64 < fld r.payload 1 1 ∨ 256 < fld r.payload 0 1 + fld r.payload 1 1) :
    queueStatusBody r s = fail stRange s := if_pos beyond

end

/-- Settles O30: each body's result is its table, whose entries have one length and follow the count. -/
theorem graphEngineAndQueueQueries : Obligations.GraphEngineAndQueueQueries := by
  intro r s
  refine ⟨fun ready => shotas_ok ready rfl,
    fun ready => ⟨_, State.engineTable_count _, State.engineTable_length _, engineStatus_answers ready⟩, fun ready => ?_,
    fun ready => shotas_ok ready rfl⟩
  intro q n
  refine ⟨fun some_ few inside => ⟨(s.taken queueStatusCommand r).queueTable q n, State.queueTable_count _ q (by omega),
      State.queueTable_length _ q n, fun i within => ⟨?_, ?_⟩, shotas_ok ready (queueStatusBody_inRange some_ few inside)⟩,
    fun beyond => shotas_done ready rfl (queueStatusBody_beyond beyond)⟩
  · exact (State.queueTable_entry _ q within (off := 0) (by decide)).trans (State.queueEntry_number _ _)
  · exact (State.queueTable_entry _ q within (by decide)).trans (State.queueEntry_depth _ _)

/-! ### Graph slots (Table 6.4) -/

section

variable {r : Req} {s : State} {g : Nat}

theorem State.slotOf_setSlot_same (x : GraphSlot) (inside : g < s.fe.slots.length) : (s.setSlot g x).slotOf g = x := by
  simp only [State.slotOf, State.setSlot, lset_get _ _ inside, Option.getD_some]

theorem State.answered_slotOf (s : State) (r : Req) (st : Nat) (p : List Byte) (g : Nat) :
    (s.answered r st p).slotOf g = s.slotOf g := by
  rw [State.slotOf, State.answered_fe, ← State.slotOf]

@[simp] theorem State.enterSlot_slots_length (s : State) (g : Nat) (new : SlotState) (cause : Nat) :
    (s.enterSlot g new cause).fe.slots.length = s.fe.slots.length := by
  simp [State.enterSlot, State.graphState, State.setSlot]

/-- GRAPH_LOAD into an empty slot of an image that is held, of kind 5, whole, readable and within the limits (R240). -/
theorem graphLoadBody_loads {i : Image} {x : GraphInfo} (inside : fld r.payload 0 1 < 8)
    (empty : (s.slotOf (fld r.payload 0 1)).state = .empty) (held : s.imageOf (fld r.payload 4 4) = some i)
    (kind : i.kind = 5) (digest : sha256 i.payload = i.digest) (info : graphInfo (fld r.payload 0 1) i = some x)
    (fits : s.graphFits (fld r.payload 0 1) x = true) :
    graphLoadBody r s = ok (u32 x.codeBytes ++ u8 (0x20 + 28 * fld r.payload 0 1) ++ u8 x.queues.length ++ u16 0)
      ((s.loadGraph (fld r.payload 0 1) x (Config.graphCode i.payload)).graphState (fld r.payload 0 1) .empty .loaded 1) := by
  simp only [graphLoadBody, Nat.not_le.mpr inside, empty, held, kind, digest, info, fits, ne_eq, not_true_eq_false,
    Bool.not_true, Bool.false_eq_true, if_false]

theorem graphLoadBody_inUse (inside : fld r.payload 0 1 < 8) (used : (s.slotOf (fld r.payload 0 1)).state ≠ .empty) :
    graphLoadBody r s = fail stState s := (if_neg (Nat.not_le.mpr inside)).trans (if_pos used)

/-! ### Boundaries (R242) -/

/-- A command for a boundary: it waits for one that is to come, acts at once on one that has passed where the flags allow it, and
is else too late. -/
def State.atBoundary (s : State) (flags : Nat) (t : Ns) (report : Ns → List Byte) (waits acts : Ns → State) : Result :=
  match s.boundary flags t with
  | none => fail stTooLate s
  | some (b, atOnce) => if atOnce then ok (report b) (acts b) else ok (report b) (waits b)

section

variable {flags : Nat} {t : Ns} (report : Ns → List Byte) (waits acts : Ns → State)

theorem State.atBoundary_future (future : s.tb < t) : s.atBoundary flags t report waits acts = ok (report t) (waits t) := by
  simp only [State.atBoundary, State.boundary, future, Bool.false_eq_true, if_true, if_false]

theorem State.atBoundary_immediate (past : t ≤ s.tb) (immediate : hasBit flags 0 = true) :
    s.atBoundary flags t report waits acts = ok (report s.tb) (acts s.tb) := by
  simp only [State.atBoundary, State.boundary, Nat.not_lt.mpr past, immediate, if_true, if_false]

theorem State.atBoundary_late (past : t ≤ s.tb) (strict : hasBit flags 0 = false) :
    s.atBoundary flags t report waits acts = fail stTooLate s := by
  simp only [State.atBoundary, State.boundary, Nat.not_lt.mpr past, strict, Bool.false_eq_true, if_false]

/-- What a command for a boundary is answered, and leaves, for an instant to come and for one that has passed. -/
theorem boundary_answers {c : Command} {i : Instr} (exec_eq : exec i s = shotas c r s) (ready : Ready c r s)
    (body : c.body r (s.taken c r) = (s.taken c r).atBoundary flags t report waits acts) :
    ((s.taken c r).tb < t → Answers i r s (report t) (waits t)) ∧
    (t ≤ (s.taken c r).tb → hasBit flags 0 = true → Answers i r s (report (s.taken c r).tb) (acts (s.taken c r).tb)) ∧
    (t ≤ (s.taken c r).tb → hasBit flags 0 = false → Leads i s ((s.taken c r).answered r stTooLate [])) := by
  simp only [Answers, Leads, exec_eq]
  exact ⟨fun future => shotas_ok ready (body.trans (State.atBoundary_future _ _ _ future)),
    fun past immediate => shotas_ok ready (body.trans (State.atBoundary_immediate _ _ _ past immediate)),
    fun past strict => shotas_done ready rfl (body.trans (State.atBoundary_late _ _ _ past strict))⟩

end

/-- GRAPH_START of a graph that may start (R241). -/
theorem graphStartBody_admitted (inside : fld r.payload 0 1 < 8) (stamped : fld r.payload 4 8 ≠ 0)
    (ready : (s.slotOf (fld r.payload 0 1)).state = .loaded ∨ (s.slotOf (fld r.payload 0 1)).state = .suspended)
    (free : s.consumesTaken (fld r.payload 0 1) (fld r.payload 0 1) (s.slotOf (fld r.payload 0 1)).info = false) :
    graphStartBody r s = s.atBoundary (fld r.payload 1 1) (fld r.payload 4 8) u64
      (fun b => (s.setSlot (fld r.payload 0 1) { s.slotOf (fld r.payload 0 1) with instant := b }).enterSlot
        (fld r.payload 0 1) .armed 1)
      (s.startGraph (fld r.payload 0 1)) :=
  (if_neg (by omega)).trans (if_neg (by simp [ready, free]))

/-- GRAPH_STOP of an ARMED graph takes it back at once (Table 6.4). -/
theorem graphStopBody_armed (inside : fld r.payload 0 1 < 8) (stamped : fld r.payload 4 8 ≠ 0)
    (armed : (s.slotOf (fld r.payload 0 1)).state = .armed) :
    graphStopBody r s = ok (u64 s.tb) (s.enterSlot (fld r.payload 0 1) .loaded 1) :=
  (if_neg (by omega)).trans (if_pos armed)

theorem graphStopBody_running (inside : fld r.payload 0 1 < 8) (stamped : fld r.payload 4 8 ≠ 0)
    (runs : (s.slotOf (fld r.payload 0 1)).state = .running) :
    graphStopBody r s = s.atBoundary (fld r.payload 1 1) (fld r.payload 4 8) u64
      (fun b => s.setSlot (fld r.payload 0 1) { s.slotOf (fld r.payload 0 1) with change := some (b, none) })
      (fun _ => s.stopGraph (fld r.payload 0 1) .loaded 1) :=
  (if_neg (by omega)).trans <| (if_neg (by simp [runs])).trans (if_neg (by simp [runs]))

/-- A swap that R241 and R245 allow. -/
theorem State.swapRefused_eq_none {a b : Nat} (runs : (s.slotOf a).state = .running) (loaded : (s.slotOf b).state = .loaded)
    (free : s.consumesTaken b a (s.slotOf b).info = false)
    (holds : (s.slotOf a).info.layout = (s.slotOf b).info.layout → (s.slotOf a).info.flows ≤ (s.slotOf b).info.flows) :
    s.swapRefused a b = none :=
  (if_neg (by simp [runs, loaded, free])).trans (if_neg fun ⟨same, few⟩ => Nat.not_lt.mpr (holds same) few)

/-- The GRAPH_SWAP response: the boundary, and the flows that are carried over (R245). -/
def State.swapReport (s : State) (a b : Nat) (at_ : Ns) : List Byte :=
  u64 at_ ++ u32 (if (s.slotOf a).info.layout = (s.slotOf b).info.layout then s.liveFlows a else 0) ++ u32 0

theorem graphSwapBody_admitted (inside : fld r.payload 0 1 < 8) (inside' : fld r.payload 1 1 < 8)
    (stamped : fld r.payload 4 8 ≠ 0) (allowed : s.swapRefused (fld r.payload 0 1) (fld r.payload 1 1) = none) :
    graphSwapBody r s = s.atBoundary (fld r.payload 2 1) (fld r.payload 4 8)
      (s.swapReport (fld r.payload 0 1) (fld r.payload 1 1))
      (fun b => s.setSlot (fld r.payload 0 1)
        { s.slotOf (fld r.payload 0 1) with change := some (b, some (fld r.payload 1 1)) })
      (s.swapGraphs (fld r.payload 0 1) (fld r.payload 1 1)) := by
  have valid : ¬ (8 ≤ fld r.payload 0 1 ∨ 8 ≤ fld r.payload 1 1 ∨ fld r.payload 4 8 = 0) := by omega
  simp only [graphSwapBody, valid, allowed, if_false]
  rfl

/-! ### Unloading (R241) -/

theorem tget_tkeep_eq_none {α : Type} {p : Nat → α → Bool} {k : Nat} (dropped : ∀ v, p k v = false) (t : Table α) :
    tget (tkeep t p) k = none := by
  induction t with
  | nil => rfl
  | cons e t ih =>
    obtain ⟨j, v⟩ := e
    by_cases kept : p j v = true
    · have apart : j ≠ k := fun same => absurd (same ▸ kept) (Bool.eq_false_iff.mp (dropped v))
      simpa only [tkeep, List.filter_cons, kept, if_true, tget, apart, if_false] using ih
    · simpa only [tkeep, List.filter_cons, kept, Bool.false_eq_true, if_false] using ih

/-- The queue is one of the slot's own. -/
def GraphSlot.owns (x : GraphSlot) (q : Nat) : Bool := x.firstQueue ≤ q && q < x.firstQueue + x.info.queues.length

theorem GraphSlot.owns_iff {x : GraphSlot} {q : Nat} :
    x.owns q = true ↔ x.firstQueue ≤ q ∧ q < x.firstQueue + x.info.queues.length := by
  simp [GraphSlot.owns]

/-- The slot emptied, its code erased, and its queues gone with their levels. -/
def State.unloadGraph (s : State) (g : Nat) : State :=
  let x := s.slotOf g
  let s := s.enterSlot g .empty 1
  { s.setSlot g .empty with
    fe.stores := s.fe.stores.map (fun t => tdel t g)
    qm.specs := tkeep s.qm.specs (fun q _ => !x.owns q)
    qm.queues := tkeep s.qm.queues (fun q _ => !x.owns q)
    par.vals := tkeep s.par.vals (fun k _ => !(k / 65536 == 0x4C82 && x.owns (k % 65536))) }

theorem graphUnloadBody_unloads (inside : fld r.payload 0 1 < 8)
    (ready : (s.slotOf (fld r.payload 0 1)).state = .loaded ∨ (s.slotOf (fld r.payload 0 1)).state = .suspended) :
    graphUnloadBody r s = ok [] (s.unloadGraph (fld r.payload 0 1)) :=
  (if_neg (Nat.not_le.mpr inside)).trans (if_neg (by simp [ready]))

theorem State.unloadGraph_slotOf (inside : g < s.fe.slots.length) : (s.unloadGraph g).slotOf g = .empty :=
  State.slotOf_setSlot_same (s := s.enterSlot g .empty 1) .empty (by rwa [State.enterSlot_slots_length])

theorem State.unloadGraph_specs {q : Nat} (own : (s.slotOf g).owns q = true) : tget (s.unloadGraph g).qm.specs q = none :=
  tget_tkeep_eq_none (p := fun q _ => !(s.slotOf g).owns q) (fun _ => by simp [own]) _

theorem State.unloadGraph_items {q : Nat} (own : (s.slotOf g).owns q = true) : ((s.unloadGraph g).queue q).items = [] := by
  have gone : tget (s.unloadGraph g).qm.queues q = none :=
    tget_tkeep_eq_none (p := fun q _ => !(s.slotOf g).owns q) (fun _ => by simp [own]) _
  rw [State.queue, gone, Option.getD_none]

/-- GRAPH_UNLOAD leaves its slot empty and the slot's queues gone. -/
theorem graphUnload_leaves {a : State} (taken : s.taken graphUnloadCommand r = a) (ready : Ready graphUnloadCommand r s)
    (slot : fld r.payload 0 1 = g) (inside : g < 8) (stands : (a.slotOf g).state = .loaded ∨ (a.slotOf g).state = .suspended)
    (held : g < a.fe.slots.length) (high : 0x20 ≤ (a.slotOf g).firstQueue) :
    ∃ t, exec (.graphUnload r) s = .next t ∧ t.slotOf g = .empty ∧
      ∀ q, (a.slotOf g).owns q = true → tget t.qm.specs q = none ∧ (t.queue q).items = [] := by
  subst taken slot
  obtain ⟨t, next, agree⟩ := shotas_ok ready (graphUnloadBody_unloads inside stands)
  refine ⟨t, next, ?_, fun q own => ⟨?_, ?_⟩⟩
  · rw [agree.slotOf, State.answered_slotOf, State.unloadGraph_slotOf held]
  · rw [agree.specs, State.answered_qm, State.unloadGraph_specs own]
  · have other : q ≠ 0x0A := by
      obtain ⟨low, -⟩ := GraphSlot.owns_iff.mp own
      omega
    rw [agree.queue other, State.queue_congr (State.answered_qm _ _ _ _), State.unloadGraph_items own]

/-! ### What an event's outcome says of the state it leaves -/

section

variable {i : Instr} {u v : State}

/-- A command whose outcome is a state at its settling. -/
theorem leads_of_next {x : Host.Outcome State Fault Refusal} (exec_eq : exec i s = x) (next : x = .next u.settle) : Leads i s u :=
  ⟨_, exec_eq.trans next, reports_settle u⟩

/-- What a command leads to, it leads to but for reports. -/
theorem Leads.butFor (leads : Leads i s v) (agree : Reports u v) : Leads i s u := by
  obtain ⟨t, next, reports⟩ := leads
  exact ⟨t, next, agree.trans reports⟩

end

/-! ### The dispatch boundary (R243) -/

section

variable {dt : Ns} (running : (s.begin dt).running = true)

include running

theorem dispatchBoundary_starts (armed : ((s.begin dt).slotOf g).state = .armed)
    (due : ((s.begin dt).slotOf g).instant ≤ (s.begin dt).tb) :
    Leads (.dispatchBoundary dt g) s ((s.begin dt).startGraph g ((s.begin dt).slotOf g).instant) := by
  refine leads_of_next (x := execDispatchBoundary dt g s) rfl ?_
  simp only [execDispatchBoundary, event, running, armed, due, if_true]

theorem dispatchBoundary_stops {t : Ns} (runs : ((s.begin dt).slotOf g).state = .running)
    (waits : ((s.begin dt).slotOf g).change = some (t, none)) (due : t ≤ (s.begin dt).tb) :
    Leads (.dispatchBoundary dt g) s ((s.begin dt).stopGraph g .loaded 1) := by
  refine leads_of_next (x := execDispatchBoundary dt g s) rfl ?_
  simp only [execDispatchBoundary, event, running, runs, waits, Nat.not_lt.mpr due, if_true, if_false]

/-- A waiting swap is made, or dropped where what has become of the other graph no longer allows it (log entry 92). -/
theorem dispatchBoundary_swaps {t : Ns} {h : Nat} (runs : ((s.begin dt).slotOf g).state = .running)
    (waits : ((s.begin dt).slotOf g).change = some (t, some h)) (due : t ≤ (s.begin dt).tb) :
    ((s.begin dt).swapRefused g h = none → Leads (.dispatchBoundary dt g) s ((s.begin dt).swapGraphs g h t)) ∧
    (((s.begin dt).swapRefused g h).isSome = true →
      Leads (.dispatchBoundary dt g) s ((s.begin dt).setSlot g { (s.begin dt).slotOf g with change := none })) := by
  refine ⟨fun allowed => leads_of_next (x := execDispatchBoundary dt g s) rfl ?_,
    fun refused => leads_of_next (x := execDispatchBoundary dt g s) rfl ?_⟩
  · simp only [execDispatchBoundary, event, running, runs, waits, Nat.not_lt.mpr due, allowed, Option.isSome_none,
      Bool.false_eq_true, if_true, if_false]
  · simp only [execDispatchBoundary, event, running, runs, waits, Nat.not_lt.mpr due, refused, if_true, if_false]

theorem dispatchBoundary_loaded (loaded : ((s.begin dt).slotOf g).state = .loaded) :
    Leads (.dispatchBoundary dt g) s (s.begin dt) := by
  refine leads_of_next (x := execDispatchBoundary dt g s) rfl ?_
  simp only [execDispatchBoundary, event, running, loaded, if_true]

end

end

/-- Settles O29: each command's body past its checks, the three outcomes of a boundary proved once for start, stop and swap, and
what the boundary's event does with each kind of slot. -/
theorem graphSlotsFollowTheirTable : Obligations.GraphSlotsFollowTheirTable := by
  refine ⟨fun r s i x ready => ⟨fun inside empty held kind digest info fits => ?_, fun inside used => ?_⟩,
    fun r s taken => ?_, fun r s taken => ?_, fun r s taken => ?_, fun r s taken => ?_, fun dt g h t s running => ?_⟩
  · exact shotas_ok ready (graphLoadBody_loads inside empty held kind digest info fits)
  · exact shotas_done ready rfl (graphLoadBody_inUse inside used)
  · intro a g t x inside stamped ready free
    exact (boundary_answers (i := .graphStart r) _ _ _ rfl taken (graphStartBody_admitted inside stamped ready free) :)
  · intro a g t x inside stamped
    exact ⟨fun armed => shotas_ok taken (graphStopBody_armed inside stamped armed),
      fun runs => (boundary_answers (i := .graphStop r) _ _ _ rfl taken (graphStopBody_running inside stamped runs) :)⟩
  · intro a g h t same report inside inside' runs loaded stamped free holds
    exact (boundary_answers (i := .graphSwap r) _ _ _ rfl taken
      (graphSwapBody_admitted inside inside' stamped (State.swapRefused_eq_none runs loaded free holds)) :)
  · intro a g x inside stands held high
    obtain ⟨t, next, empty, gone⟩ := graphUnload_leaves (a := a) (g := g) rfl taken rfl inside stands held high
    exact ⟨t, next, empty, fun q low up => gone q (GraphSlot.owns_iff.mpr ⟨low, up⟩)⟩
  · exact ⟨dispatchBoundary_starts running, dispatchBoundary_stops running, dispatchBoundary_swaps running,
      dispatchBoundary_loaded running⟩

/-! ### Engines: dispatch, completion and the program's faults (R217–R223) -/

section

variable {dt : Ns} {e : Nat} {s : State}

/-- The scheduler gives a retired engine nothing (R228). -/
theorem dispatch_retired (retired : (s.engine e).state ≠ 0) : s.dispatch e = s := if_pos (.inl retired)

theorem complete_idle (o : ItemOutcome) (idle : (s.engine e).cur = none) : s.complete e o = s := by
  simp only [State.complete, idle]

/-- An outcome that shows a fault has no other effect (R220, R223). -/
theorem complete_faults {o : ItemOutcome} {w : Work} {cause : Nat} (serves : (s.engine e).cur = some w)
    (fault : s.outcomeFault w o = some cause) : s.complete e o = s.programFault e w cause o.node := by
  simp only [State.complete, serves, fault]

section

variable (running : (s.begin dt).running = true)

include running

theorem itemDispatch_leads (errors : List CellError) :
    Leads (.itemDispatch dt e errors) s ((errors.foldl State.cellError (s.begin dt)).dispatch e) :=
  leads_of_event (f := fun s => (s.cellErrors errors).dispatch e) rfl running rfl

theorem itemComplete_leads {o : ItemOutcome} {u : State} (effect : (s.begin dt).complete e o = u) :
    Leads (.itemComplete dt e o) s u :=
  leads_of_event (f := fun s => s.complete e o) rfl running effect

theorem itemOpsLimit_faults {node : Nat} {w : Work} (serves : ((s.begin dt).engine e).cur = some w) :
    Leads (.itemOpsLimit dt e node) s ((s.begin dt).programFault e w 2 node) := by
  refine leads_of_next (x := execItemOpsLimit dt e node s) rfl ?_
  simp only [execItemOpsLimit, event, running, serves, if_true]

theorem itemOpsLimit_idle {node : Nat} (idle : ((s.begin dt).engine e).cur = none) :
    Leads (.itemOpsLimit dt e node) s (s.begin dt) := by
  refine leads_of_next (x := execItemOpsLimit dt e node s) rfl ?_
  simp only [execItemOpsLimit, event, running, idle, if_true]

/-! ### Engines: retirement and return (R228–R232) -/

theorem engineMemoryError_retires (inside : e < 16) (live : ((s.begin dt).engine e).state = 0) :
    Leads (.engineMemoryError dt e) s ((s.begin dt).retire e 2).1.afterRetire := by
  refine leads_of_next (x := execEngineMemoryError dt e s) rfl ?_
  simp only [execEngineMemoryError, event, running, Nat.not_le.mpr inside, live, ne_eq, not_true_eq_false, or_self, if_true,
    if_false]

theorem engineMemoryError_retired (retired : ((s.begin dt).engine e).state ≠ 0) :
    Leads (.engineMemoryError dt e) s (s.begin dt) := by
  refine leads_of_next (x := execEngineMemoryError dt e s) rfl ?_
  simp only [execEngineMemoryError, event, running, retired, ne_eq, not_false_eq_true, or_true, if_true]

theorem engineStall_retired (retired : ((s.begin dt).engine e).state ≠ 0) (pass : Bool) :
    Leads (.engineStall dt e pass) s (s.begin dt) := by
  refine leads_of_next (x := execEngineStall dt e pass s) rfl ?_
  simp only [execEngineStall, event, running, retired, ne_eq, not_false_eq_true, or_true, if_true]

/-- An engine that stalls is retired; where its item has not stalled an engine before, it stays so until its retest (R229). -/
theorem engineStall_retires (inside : e < 16) (live : ((s.begin dt).engine e).state = 0)
    (kept : ((s.begin dt).retire e 1).2 = false) (pass : Bool) :
    Leads (.engineStall dt e pass) s ((s.begin dt).retire e 1).1.afterRetire := by
  refine leads_of_next (x := execEngineStall dt e pass s) rfl ?_
  simp only [execEngineStall, event, running, Nat.not_le.mpr inside, live, kept, ne_eq, not_true_eq_false, or_self,
    Bool.false_eq_true, false_and, if_true, if_false]

/-- An engine whose item stalls a second engine is at fault no more than its item: it returns where it passes (R230). -/
theorem engineStall_returns (inside : e < 16) (live : ((s.begin dt).engine e).state = 0)
    (discarded : ((s.begin dt).retire e 1).2 = true) (fit : (((s.begin dt).retire e 1).1.engine e).state ≠ 4) :
    Leads (.engineStall dt e true) s (((s.begin dt).retire e 1).1.settle.reinstate e).afterRetire := by
  refine leads_of_next (x := execEngineStall dt e true s) rfl ?_
  simp only [execEngineStall, event, running, Nat.not_le.mpr inside, live, discarded, fit, ne_eq, not_true_eq_false,
    not_false_eq_true, or_self, and_self, if_true, if_false]

theorem engineRetest_returns (enabled : (s.begin dt).flag 0x4803 = true)
    (retired : ((s.begin dt).engine e).state = 1 ∨ ((s.begin dt).engine e).state = 2)
    (rested : maxOf ((s.begin dt).engine e).times + 60 * sec ≤ (s.begin dt).clk.mono) :
    Leads (.engineRetest dt e true) s ((s.begin dt).reinstate e) := by
  refine leads_of_next (x := execEngineRetest dt e true s) rfl ?_
  have off : (((s.begin dt).engine e).state == 1 || ((s.begin dt).engine e).state == 2) = true := by simpa using retired
  simp only [execEngineRetest, event, running, enabled, off, rested, decide_true, Bool.and_self, if_true]

theorem engineRetest_fails : Leads (.engineRetest dt e false) s (s.begin dt) := by
  refine leads_of_next (x := execEngineRetest dt e false s) rfl ?_
  simp only [execEngineRetest, event, running, Bool.and_false, Bool.false_eq_true, if_true, if_false]

end

end

/-! ### Errors in flow states and in the Backstep store (R235, R285) -/

section

variable {dt : Ns} {s : State} {g f key n : Nat} {x : FlowState}

/-- A flow's state zeroed and marked lost, and the loss counted (R235). -/
def State.zeroFlow (s : State) (key : Nat) : State :=
  (s.onFlow key (fun y => { y with bytes := zeros 64, lost := true })).bump 0x48F2

/-- The record of a lost flow state is all that a flow outside the standard graph leaves besides. -/
theorem loseState_plain (live : tget s.fe.flows key = some x) (plain : s.consumer 0x00 ≠ some (key / 65536)) :
    Reports (s.zeroFlow key) (s.loseState key) := by
  have other : s.standardFlow key = false := by simpa [State.standardFlow] using plain
  simp only [State.loseState, live, other, Bool.not_false, if_true]
  exact (recordAt_bare _ _ _ _ _).symm

theorem loseRecord_reports (s : State) (key kind : Nat) : Reports s (s.loseRecord key kind) := (record_bare _ _ _ _).symm

theorem cutTrack_trackOf (s : State) (n reason : Nat) : (s.cutTrack n reason).trackOf n = none := by
  unfold State.cutTrack
  dsimp only
  split <;> exact endTrack_trackOf s n s.tb s.tb 3 reason none

/-- The loss of a track flow's state ends its track (log entry 91). -/
theorem loseState_track (live : tget s.fe.flows key = some x) (standard : s.standardFlow key = true)
    (track : isTrackFlow (key % 65536) = true) : (s.loseState key).trackOf (key % 65536) = none := by
  simp only [State.loseState, live, standard, track, Bool.not_true, Bool.false_eq_true, if_true, if_false]
  exact cutTrack_trackOf _ _ _

/-- The number of a track's flow is the flow's own part of its key. -/
theorem trackFlow_key (g : Nat) (track : isTrackFlow f = true) :
    (g * 65536 + f) / 65536 = g ∧ (g * 65536 + f) % 65536 = f := by
  have low : f < 65536 := by
    simp only [isTrackFlow, Bool.and_eq_true, decide_eq_true_eq] at track
    omega
  omega

section

variable (running : (s.begin dt).running = true)

include running

theorem flowStateError_corrected (m : FlowMemory) :
    Leads (.flowStateError dt g f ⟨m, true⟩) s ((s.begin dt).bump 0x48F3) := by
  refine leads_of_next (x := execFlowStateError dt g f ⟨m, true⟩ s) rfl ?_
  simp only [execFlowStateError, event, running, if_true]

theorem flowStateError_state :
    Leads (.flowStateError dt g f ⟨.state, false⟩) s ((s.begin dt).loseState (g * 65536 + f)) := by
  refine leads_of_next (x := execFlowStateError dt g f ⟨.state, false⟩ s) rfl ?_
  simp only [execFlowStateError, event, running, Bool.false_eq_true, if_true, if_false]

theorem flowStateError_track (live : tget (s.begin dt).fe.flows (g * 65536 + f) = some x)
    (standard : (s.begin dt).consumer 0x00 = some g) (track : isTrackFlow f = true) :
    ∃ u, Leads (.flowStateError dt g f ⟨.state, false⟩) s u ∧ u.trackOf f = none := by
  obtain ⟨graph, flow⟩ := trackFlow_key g track
  refine ⟨_, flowStateError_state running, ?_⟩
  have owned : (s.begin dt).standardFlow (g * 65536 + f) = true := by simp [State.standardFlow, standard, graph]
  have ended := loseState_track live owned (by rwa [flow])
  rwa [flow] at ended

/-- An uncorrectable error in a checkpoint that is held, and in a log entry: but for its record, the loss is marked (R285). -/
theorem flowStateError_checkpoint (held : n < ((s.begin dt).ckptsOf (g * 65536 + f)).length) :
    Leads (.flowStateError dt g f ⟨.checkpoint n, false⟩) s ((s.begin dt).setCkpts (g * 65536 + f)
      (lmod ((s.begin dt).ckptsOf (g * 65536 + f)) n (fun c => { c with lost := true }))) := by
  refine (leads_of_next (x := execFlowStateError dt g f ⟨.checkpoint n, false⟩ s) rfl ?_).butFor
    (loseRecord_reports _ (g * 65536 + f) 1)
  simp only [execFlowStateError, event, running, held, Bool.false_eq_true, if_true, if_false]

theorem flowStateError_logEntry (held : n < ((s.begin dt).logOf (g * 65536 + f)).length) :
    Leads (.flowStateError dt g f ⟨.logEntry n, false⟩) s ((s.begin dt).setLog (g * 65536 + f)
      (lmod ((s.begin dt).logOf (g * 65536 + f)) n (fun x => { x with lost := true }))) := by
  refine (leads_of_next (x := execFlowStateError dt g f ⟨.logEntry n, false⟩ s) rfl ?_).butFor
    (loseRecord_reports _ (g * 65536 + f) 2)
  simp only [execFlowStateError, event, running, held, Bool.false_eq_true, if_true, if_false]

end

end

/-- Settles O32: each event's effect under its guard; the loss of a flow's state has a case of its own where the
state was a track's. -/
theorem enginesServeRetireAndReturn : Obligations.EnginesServeRetireAndReturn := by
  intro dt e s running
  refine ⟨itemDispatch_leads running, fun retired => ?_, fun o w serves => ⟨fun cause fault => ?_, fun sound => ?_⟩,
    fun o node idle => ⟨itemComplete_leads running (complete_idle o idle), itemOpsLimit_idle running idle⟩,
    fun w node => itemOpsLimit_faults running,
    fun inside live => ⟨engineMemoryError_retires running inside live, engineStall_retires running inside live,
      engineStall_returns running inside live⟩,
    fun retired pass => ⟨engineStall_retired running retired pass, engineMemoryError_retired running retired⟩,
    engineRetest_returns running, engineRetest_fails running, fun g f m => flowStateError_corrected running m,
    fun g f x live plain => (flowStateError_state running).butFor (loseState_plain live plain),
    fun g f x => flowStateError_track running, fun g f n => flowStateError_checkpoint running,
    fun g f n => flowStateError_logEntry running⟩
  · have dispatched := itemDispatch_leads running (e := e) []
    rwa [List.foldl_nil, dispatch_retired retired] at dispatched
  · exact itemComplete_leads running (complete_faults serves fault)
  · exact itemComplete_leads running rfl

end Sys2Proof.Machine

/-! ## Uplink frames of the mesh (spec chapter 8) -/

namespace Sys2Proof.Machine

/-! ### The origin window (R314) and the link counters (R313) -/

section

variable {n : Node} {c d m : Nat}

/-- A counter is refused that is the greatest accepted, lies more than 64 below it, or is marked as seen. -/
theorem Node.accepts_eq_false : n.accepts c = false ↔
    ∃ m, n.oMax = some m ∧ c ≤ m ∧ (c = m ∨ 64 < m - c ∨ n.oMap.getLsbD (m - c - 1) = true) := by
  unfold Node.accepts
  cases n.oMax with
  | none => simp
  | some m =>
    simp only [Option.some.injEq, exists_eq_left']
    rcases Nat.lt_trichotomy c m with below | rfl | above
    · simp [below, Nat.le_of_lt below, Nat.not_lt_of_lt below, Nat.ne_of_lt below, Nat.lt_sub_iff_add_lt, or_iff_not_imp_left]
    · simp
    · simp [above, Nat.not_le.mpr above]

theorem Node.seen_first (fresh : n.oMax = none) : n.seen c = { n with oMax := some c, oMap := 0 } := by
  simp only [Node.seen, fresh]

theorem Node.seen_newer (max_ : n.oMax = some m) (newer : m < c) :
    n.seen c = { n with oMax := some c, oMap := ((n.oMap <<< 1) ||| 1) <<< (c - m - 1) } := by
  simp only [Node.seen, max_, newer, if_true]

theorem Node.seen_older (max_ : n.oMax = some m) (older : c ≤ m) :
    n.seen c = { n with oMap := n.oMap ||| (1 <<< (m - c - 1)) } := by
  simp only [Node.seen, max_, Nat.not_lt.mpr older, if_false]

/-- The bit that an accepted counter below the greatest sets. -/
theorem getLsbD_mark (x : BitVec 64) {k : Nat} (small : k < 64) : (x ||| (1 <<< k)).getLsbD k = true := by
  rw [BitVec.getLsbD_or, BitVec.natCast_eq_ofNat, BitVec.getLsbD_ofNat, Nat.one_shiftLeft, Nat.testBit_two_pow_self]
  simp [small]

/-- Where the greatest counter goes up from `m` to `d`, it leaves its own mark, and every mark moves up with it. -/
theorem getLsbD_moveUp {x : BitVec 64} (below : c ≤ m) (newer : m < d) (near : d - c ≤ 64)
    (marked : c = m ∨ x.getLsbD (m - c - 1) = true) : (((x <<< 1) ||| 1) <<< (d - m - 1)).getLsbD (d - c - 1) = true := by
  have moved : d - c - 1 - (d - m - 1) = m - c := by omega
  have kept : d - c - 1 < 64 := by omega
  have above : ¬ d - c - 1 < d - m - 1 := by omega
  rw [BitVec.getLsbD_shiftLeft, BitVec.getLsbD_or, BitVec.getLsbD_shiftLeft, moved]
  rcases Nat.eq_or_lt_of_le below with rfl | lower
  · simp [kept]
  · have inside : m - c < 64 ∧ ¬ m - c < 1 := by omega
    simp [kept, above, inside, marked.resolve_left (Nat.ne_of_lt lower)]

/-- A counter that the window has accepted is refused from then on. -/
theorem Node.seen_refuses (accepted : n.accepts c = true) : (n.seen c).accepts c = false := by
  rw [Node.accepts_eq_false]
  cases max_ : n.oMax with
  | none => exact ⟨c, by rw [Node.seen_first max_], Nat.le_refl c, .inl rfl⟩
  | some m =>
    by_cases newer : m < c
    · exact ⟨c, by rw [Node.seen_newer max_ newer], Nat.le_refl c, .inl rfl⟩
    · have inside : c < m ∧ m - c ≤ 64 := by
        simp only [Node.accepts, max_, newer, decide_false, Bool.false_or, Bool.and_eq_true, decide_eq_true_eq] at accepted
        exact accepted.1
      refine ⟨m, by rw [Node.seen_older max_ (Nat.not_lt.mp newer)]; exact max_, Nat.not_lt.mp newer, .inr (.inr ?_)⟩
      rw [Node.seen_older max_ (Nat.not_lt.mp newer)]
      exact getLsbD_mark _ (by omega)

/-- A counter that the window refuses it refuses after any other that it accepts: bits move up with the greatest counter, and none
is cleared. -/
theorem Node.seen_keeps_refused (refused : n.accepts c = false) (d : Nat) : (n.seen d).accepts c = false := by
  obtain ⟨m, max_, below, why⟩ := Node.accepts_eq_false.mp refused
  rw [Node.accepts_eq_false]
  by_cases newer : m < d
  · refine ⟨d, by rw [Node.seen_newer max_ newer], by omega, .inr ?_⟩
    by_cases far : 64 < d - c
    · exact .inl far
    · refine .inr ?_
      rw [Node.seen_newer max_ newer]
      exact getLsbD_moveUp below newer (Nat.not_lt.mp far) (why.imp_right fun w => w.resolve_left (by omega))
  · refine ⟨m, by rw [Node.seen_older max_ (Nat.not_lt.mp newer)]; exact max_, below,
      why.imp_right (.imp_right fun marked => ?_)⟩
    rw [Node.seen_older max_ (Nat.not_lt.mp newer), BitVec.getLsbD_or, marked, Bool.true_or]

/-- After a frame has been accepted, one with no greater counter under its key is a replay, unless it is the frame once more. -/
theorem Node.judgeLink_replay (n : Node) (i : Nat) {c c' : Nat} {mic mic' : Word} (older : c' ≤ c)
    (other : (c', mic') ≠ (c, mic)) :
    { n with links := n.links.filter (fun (l : Nat × Nat × Word) => l.1 != i) ++ [(i, c, mic)] }.judgeLink i c' mic' =
      .replay := by
  have found : (n.links.filter (fun (l : Nat × Nat × Word) => l.1 != i) ++ [(i, c, mic)]).find? (fun l => l.1 == i) =
      some (i, c, mic) := by
    rw [List.find?_append, List.find?_eq_none.mpr (by simp)]
    simp
  have again : ¬ (c' = c ∧ mic' = mic) := fun ⟨counter, same⟩ => other (by rw [counter, same])
  simp only [Node.judgeLink, found, Nat.not_lt.mpr older, again, if_false]

end

/-! ### A frame heard (R302, R312–R314, R318, R323) -/

section

variable {s b : State} {r : Nat} {f : UplinkFrame} {n : Node}

/-- The state that has counted a whole frame of a listening radio. -/
def State.heardFrame (s : State) (r : Nat) (f : UplinkFrame) : State :=
  ((s.onRadio r (fun x => { x with rx := (x.rx + 1) % pow32 })).perfEdge 0x0040 r 1).meterBytes (3 + r) 0 (uplinkOctets f)

theorem heardFrame_reports (s : State) (r : Nat) (f : UplinkFrame) :
    Reports (s.onRadio r (fun x => { x with rx := (x.rx + 1) % pow32 })) (s.heardFrame r f) :=
  ((meterBytes_bare _ _ _ _).trans (perfEdge_bare _ _ _ _)).symm

theorem heardFrame_num (s : State) (r : Nat) (f : UplinkFrame) (id idx : Nat) : (s.heardFrame r f).num id idx = s.num id idx :=
  ((heardFrame_reports s r f).num id idx).trans (State.num_congr rfl rfl rfl id idx)

theorem heardFrame_clk (s : State) (r : Nat) (f : UplinkFrame) : (s.heardFrame r f).clk = s.clk :=
  (heardFrame_reports s r f).at State.clk

/-- A frame that no radio takes in changes nothing. -/
theorem uplink_unheard (deaf : ¬ (s.mayTransmit r = true ∧ s.listening r f = true ∧ f.fcsOk = true)) : s.uplink r f = s :=
  if_pos (by simpa [imp_iff_not_or, or_assoc] using deaf)

/-- The radio may send, listens when the frame comes, and hears it whole. -/
structure Hears (s : State) (r : Nat) (f : UplinkFrame) : Prop where
  sends : s.mayTransmit r = true
  listens : s.listening r f = true
  whole : f.fcsOk = true

variable (hears : Hears s r f) (heard : s.heardFrame r f = b)

include hears heard

theorem uplink_unsupported (unknown : f.supported = false) : s.uplink r f = b.bump 0x50FC := by
  obtain ⟨sends, listens, whole⟩ := hears
  unfold State.heardFrame at heard
  simp only [State.uplink, sends, listens, whole, heard, unknown, Bool.not_true, Bool.not_false, Bool.false_eq_true, or_self,
    true_or, if_true, if_false]

/-- A join frame is delivered without a neighbour's counters. -/
theorem uplink_join (supported : f.supported = true) (plain : f.level = 0) (join : joinFrame f = true) :
    s.uplink r f = b.deliver r f none := by
  obtain ⟨sends, listens, whole⟩ := hears
  unfold State.heardFrame at heard
  simp [State.uplink, sends, listens, whole, heard, supported, plain, join]

variable (supported : f.supported = true) (secured : f.level = 5 ∨ f.level = 6)

include supported secured

/-- A frame under a key that is not in force, that fails its check, or of an unknown neighbour only counts as received. -/
theorem uplink_unknown (unknown : b.linkKey f.keyIndex = false ∨ f.ccmOk = false ∨ b.byShort f.neighbour = none) :
    s.uplink r f = b := by
  obtain ⟨sends, listens, whole⟩ := hears
  unfold State.heardFrame at heard
  have leveled : f.level ≠ 0 := by omega
  have formed (join : Prop) : ¬ (f.level ≠ 5 ∧ f.level ≠ 6 ∧ join) := fun ⟨not5, not6, _⟩ => secured.elim not5 not6
  rcases unknown with noKey | bad | stranger
  · simp only [State.uplink, sends, listens, whole, heard, supported, leveled, formed, noKey, Bool.not_true, Bool.not_false,
      Bool.false_eq_true, true_or, or_self, if_true, if_false]
  · simp only [State.uplink, sends, listens, whole, heard, supported, leveled, formed, bad, Bool.not_true, Bool.not_false,
      Bool.false_eq_true, or_true, or_self, if_true, if_false]
  · simp only [State.uplink, sends, listens, whole, heard, supported, leveled, formed, stranger, Bool.not_true,
      Bool.false_eq_true, or_self, if_false, ite_self]

theorem uplink_judged (key : b.linkKey f.keyIndex = true) (good : f.ccmOk = true) (known : b.byShort f.neighbour = some n) :
    (n.judgeLink f.keyIndex f.counter f.mic = .new → s.uplink r f = b.deliver r f (some n)) ∧
    (n.judgeLink f.keyIndex f.counter f.mic = .repeated →
      s.uplink r f = (((b.putNode (b.contact f n)).sendAck r f).bump 0x50F4).meshLoad 0 1 0) ∧
    (n.judgeLink f.keyIndex f.counter f.mic = .replay → s.uplink r f = (b.bump 0x50F5).meshLoad 0 0 1) := by
  obtain ⟨sends, listens, whole⟩ := hears
  unfold State.heardFrame at heard
  have leveled : f.level ≠ 0 := by omega
  have formed (join : Prop) : ¬ (f.level ≠ 5 ∧ f.level ≠ 6 ∧ join) := fun ⟨not5, not6, _⟩ => secured.elim not5 not6
  refine ⟨fun verdict => ?_, fun verdict => ?_, fun verdict => ?_⟩ <;>
    simp only [State.uplink, sends, listens, whole, heard, supported, leveled, formed, key, good, known, verdict, Bool.not_true,
      Bool.false_eq_true, or_self, if_false]

end

/-! ### Delivery (R225, R312, R319, R323) -/

section

variable {s : State} {r : Nat} {f : UplinkFrame}

/-- An ack withheld from a frame, and counted (R323). -/
def State.withhold (s : State) (r : Nat) : State :=
  ((s.onRadio r (fun x => { x with acksWithheld := (x.acksWithheld + 1) % pow32 })).bump 0x50F8).meshLoad 1 0 0

/-- A frame acknowledged on `c`, and its PDUs handled with the room that `claims` reserves for their items (R225). -/
def State.handleFrame (c : State) (r : Nat) (f : UplinkFrame) (claims : List (Nat × Nat)) : State :=
  ({ f.pdus.foldl (fun (s : State) p => s.onPdu r f p) { c.sendAck r f with qm.claims := claims } with qm.claims := [] }).meshLoad
    0 0 0

theorem deliver_withheld (n : Option Node) (full : s.switchQuiet = true ∨ s.rooms (s.claimsOf (s.needs f.pdus)) = false) :
    s.deliver r f n = s.withhold r := if_pos (by simpa using full)

theorem deliver_join (open_ : s.switchQuiet = false) (room : s.rooms (s.claimsOf (s.needs f.pdus)) = true) :
    s.deliver r f none = s.handleFrame r f (s.claimsOf (s.needs f.pdus)) := if_neg (by simp [open_, room])

/-- A neighbour with the counter and the MIC of its newest frame under the frame's key (R313). -/
def Node.linked (n : Node) (f : UplinkFrame) : Node :=
  { n with links := n.links.filter (fun (l : Nat × Nat × Word) => l.1 != f.keyIndex) ++ [(f.keyIndex, f.counter, f.mic)] }

theorem deliver_new (n : Node) (open_ : s.switchQuiet = false) (room : s.rooms (s.claimsOf (s.needs f.pdus)) = true) :
    s.deliver r f (some n) = (s.putNode (s.contact f (n.linked f))).handleFrame r f (s.claimsOf (s.needs f.pdus)) :=
  if_neg (by simp [open_, room])

theorem contact_eq (s : State) (f : UplinkFrame) (n : Node) : s.contact f n =
    { n with lastContact := if f.offset.natAbs ≤ s.num 0x500A * us then s.clk.mono else n.lastContact } := by
  unfold State.contact
  split <;> rfl

theorem transmit_reports (s : State) (r octets : Nat) (ack : Bool) :
    ∃ g, Reports (s.onRadio r g) (s.transmit r octets ack) :=
  ⟨_, ((meterBytes_bare _ _ _ _).trans (perfEdge_bare _ _ _ _)).symm⟩

theorem transmit_num (s : State) (r octets : Nat) (ack : Bool) (id idx : Nat) :
    (s.transmit r octets ack).num id idx = s.num id idx := by
  obtain ⟨g, agree⟩ := transmit_reports s r octets ack
  exact (agree.num id idx).trans (State.num_congr rfl rfl rfl id idx)

/-- An acknowledged frame's ack leaves, with its time correction and the hold-off in force (R312, R321). -/
theorem sendAck_out (s : State) (r : Nat) (f : UplinkFrame) : Out.enhancedAck r f.neighbour (-f.offset)
    (if s.holdMask = 0 then none else some (s.holdMask, s.num 0x5010)) ∈ (s.sendAck r f).out := by
  rw [← transmit_num s r ackOctets true]
  exact List.mem_append_right _ (List.mem_singleton.mpr rfl)

theorem uplinkFrame_leads {dt : Ns} {u : State} (running : (s.begin dt).running = true)
    (effect : (s.begin dt).uplink r f = u) : Leads (.uplinkFrame dt r f) s u :=
  leads_of_event (f := fun s => s.uplink r f) rfl running effect

end

/-- Settles O36: the branches of a frame's way in, its delivery with and without room, and the two windows that refuse a counter
once accepted. -/
theorem uplinkFramesAreAcknowledgedOnce : Obligations.UplinkFramesAreAcknowledgedOnce := by
  refine ⟨fun dt r f s running => ?_, fun s r f => ⟨_, sendAck_out s r f, rfl⟩,
    fun n c d => ⟨Node.seen_refuses, fun refused _ => Node.seen_keeps_refused refused d⟩,
    fun n i c c' mic mic' => Node.judgeLink_replay n i⟩
  intro a b claims withheld handled
  refine ⟨fun deaf => uplinkFrame_leads running (uplink_unheard deaf), fun sends listens whole => ?_⟩
  have hears : Hears a r f := ⟨sends, listens, whole⟩
  have heard : a.heardFrame r f = b := rfl
  refine ⟨fun unknown => uplinkFrame_leads running (uplink_unsupported hears heard unknown), fun supported plain join => ?_,
    fun supported secured => ⟨fun unknown => uplinkFrame_leads running (uplink_unknown hears heard supported secured unknown),
      fun n key good known => ?_⟩⟩
  · have joins := uplink_join hears heard supported plain join
    exact ⟨fun full => uplinkFrame_leads running (joins.trans (deliver_withheld none full)),
      fun open_ room => uplinkFrame_leads running (joins.trans (deliver_join open_ room))⟩
  · obtain ⟨new, repeated, replay⟩ := uplink_judged hears heard supported secured key good known
    refine ⟨fun verdict => ⟨fun full => uplinkFrame_leads running ((new verdict).trans (deliver_withheld _ full)),
      fun open_ room => ?_⟩, fun verdict => uplinkFrame_leads running (repeated verdict),
      fun verdict => uplinkFrame_leads running (replay verdict)⟩
    have delivered := (new verdict).trans (deliver_new n open_ room)
    rw [contact_eq, ← heard, heardFrame_num, heardFrame_clk] at delivered
    exact uplinkFrame_leads running delivered

end Sys2Proof.Machine

/-! ## Node maps, probes and leaves (spec chapter 8) -/

namespace Sys2Proof.Machine

/-! ### What a keyed table keeps -/

section

variable {α : Type} {t : Table α} {p : Nat → α → Bool} {k : Nat} {v : α}

theorem mem_of_tget (found : tget t k = some v) : (k, v) ∈ t := by
  induction t with
  | nil => cases found
  | cons e t ih =>
    obtain ⟨j, w⟩ := e
    rw [tget] at found
    split at found
    · next same => cases found; exact same ▸ List.mem_cons_self
    · exact List.mem_cons_of_mem _ (ih found)

theorem tget_tkeep_holds (found : tget (tkeep t p) k = some v) : p k v = true :=
  (List.mem_filter.mp (mem_of_tget found)).2

/-- What stands under a key, and is to be kept, stands. -/
theorem tget_tkeep_some (found : tget t k = some v) (kept : p k v = true) : tget (tkeep t p) k = some v := by
  induction t with
  | nil => cases found
  | cons e t ih =>
    obtain ⟨j, w⟩ := e
    by_cases same : j = k
    · obtain rfl : w = v := by simpa [tget, same] using found
      simp [tkeep, tget, same, kept]
    · have later : tget (tkeep t p) k = some v := ih (by simpa [tget, same] using found)
      by_cases stays : p j w = true
      · simpa [tkeep, tget, same, stays] using later
      · simpa [tkeep, stays] using later

theorem tget_tkeep_eq_none_of_tget (none_ : tget t k = none) : tget (tkeep t p) k = none := by
  induction t with
  | nil => rfl
  | cons e t ih =>
    obtain ⟨j, w⟩ := e
    have other : j ≠ k := fun same => by simp [tget, same] at none_
    have later : tget (tkeep t p) k = none := ih (by simpa [tget, other] using none_)
    by_cases stays : p j w = true
    · simpa [tkeep, tget, other, stays] using later
    · simpa [tkeep, stays] using later

end

/-! ### Node maps (R325) -/

section

variable {s : State} {r : Req}

theorem nodeState_map (s : State) (e : Eui) (new : Nat) : (s.nodeState e new).mesh.map = s.mesh.map := by
  unfold State.nodeState
  split
  · rfl
  · split
    · rfl
    · exact (Reports.symm ((hist_bare _ _ _ _ _).trans (raise_bare _ _ _ _))).at (fun s : State => s.mesh.map)

/-- The nodes that a mapping takes its point from, and the one it gives it to, are told to leave; the map changes by the mapping
alone. -/
theorem mapNode_map (s : State) (e : Eui) (p : Pid) :
    (s.mapNode e p).mesh.map = tput (tkeep s.mesh.map (fun _ q => q != p)) e.toNat p := by
  have told (l : Table Pid) : (l.foldl (fun s x => match tget s.mesh.nodes x.1 with
      | some n => if n.state = 0 then s
        else (s.putNode { n with leave := 1, leaveSent := false }).nodeState n.eui 3
      | none => s) s).mesh.map = s.mesh.map := by
    refine foldl_keeps (fun s : State => s.mesh.map) (fun s x => ?_) l s
    split
    · split
      · rfl
      · exact nodeState_map _ _ _
    · rfl
  unfold State.mapNode
  dsimp only [State.setMap]
  congr 2
  split
  · split <;> exact told _
  · exact told _

/-- After a mapping its point is no other EUI-64's, and every mapping to another point stands. -/
theorem mapNode_oneToOne (s : State) (e : Eui) (p : Pid) : tget (s.mapNode e p).mesh.map e.toNat = some p ∧
    ∀ k, k ≠ e.toNat → tget (s.mapNode e p).mesh.map k ≠ some p ∧
      ∀ q, q ≠ p → tget s.mesh.map k = some q → tget (s.mapNode e p).mesh.map k = some q := by
  rw [mapNode_map]
  refine ⟨tget_tput_same _ _ _, fun k other => ?_⟩
  rw [tget_tput_other _ _ other]
  exact ⟨fun taken => by simpa using tget_tkeep_holds taken, fun q apart found => tget_tkeep_some found (by simpa using apart)⟩

theorem nodeMapSetBody_maps {es : List (Eui × Pid)} (asked : (entries 16 r.payload).map (fun b => (euiAt b 0, pidAt b 8)) = es)
    (nonempty : es ≠ []) (exist : firstRefusal (es.map (fun e => s.pointRefused e.2)) = none) :
    nodeMapSetBody r s = ok [] (es.foldl (fun s e => s.mapNode e.1 e.2) s) := by
  simp only [nodeMapSetBody, asked, List.isEmpty_iff, nonempty, exist, if_false]

theorem nodeMapSetBody_empty (asked : (entries 16 r.payload).map (fun b => (euiAt b 0, pidAt b 8)) = []) :
    nodeMapSetBody r s = fail stRange s := by
  simp only [nodeMapSetBody, asked, List.isEmpty_nil, if_true]

theorem nodeMapRemoveBody_unmaps {es : List Nat} (asked : ((entries 8 r.payload).map (fun b => (euiAt b 0).toNat)).dedup = es)
    (nonempty : es ≠ []) :
    nodeMapRemoveBody r s = ok (u16 (es.filter (fun e => (tget s.mesh.map e).isSome)).length ++ u16 0)
      (s.setMap (tkeep s.mesh.map (fun k _ => !(es.filter (fun e => (tget s.mesh.map e).isSome)).contains k))) := by
  simp only [nodeMapRemoveBody, asked, List.isEmpty_iff, nonempty, if_false]

/-- Of the keys named, exactly those that stand are dropped. -/
theorem tget_tkeep_unnamed {α : Type} (t : Table α) (es : List Nat) (k : Nat) :
    tget (tkeep t (fun k _ => !(es.filter (fun e => (tget t e).isSome)).contains k)) k = if k ∈ es then none else tget t k := by
  cases found : tget t k with
  | none => rw [ite_self, tget_tkeep_eq_none_of_tget found]
  | some v =>
    split
    · next named => exact tget_tkeep_eq_none (fun _ => by simp [named, found]) t
    · next unnamed => exact tget_tkeep_some found (by simp [unnamed])

@[simp] theorem State.radioEntry_length (s : State) (r : Nat) : (s.radioEntry r).length = 24 := by
  simp [State.radioEntry]

end

/-- Settles O34: a mapping is one write behind the removal of its point, and RADIO_STATUS is one entry of 24 octets for each
radio. -/
theorem nodeMapIsOneToOneAndIsShown : Obligations.NodeMapIsOneToOneAndIsShown := by
  refine ⟨fun r s ready => ⟨fun nonempty exist => shotas_ok ready (nodeMapSetBody_maps rfl nonempty exist),
      fun empty => shotas_done ready rfl (nodeMapSetBody_empty empty)⟩, mapNode_oneToOne,
    fun r s ready => ⟨fun nonempty => shotas_ok ready (nodeMapRemoveBody_unmaps rfl nonempty), tget_tkeep_unnamed _ _⟩,
    fun r s => ⟨fun ready => shotas_ok ready rfl, fun ready => shotas_ok ready rfl, fun ready =>
      ⟨_, shotas_ok ready rfl, ?_⟩⟩⟩
  simp [List.length_flatten, Function.comp_def]
  omega

/-! ### What a push leaves alone -/

/-- The state with other parameters, counters and queues. -/
def State.withQueues (s : State) (par : Params) (qm : Qm) : State := { s with par := par, qm := qm }

/-- `t` is `s` but for parameters, counters, queues and reports. -/
def ButForQueues (s t : State) : Prop := ∃ par qm, Reports (s.withQueues par qm) t

section

variable {s t u : State}

theorem Reports.butForQueues (agree : Reports s t) : ButForQueues s t := ⟨s.par, s.qm, agree⟩

theorem ButForQueues.refl (s : State) : ButForQueues s s := (Reports.refl s).butForQueues

theorem bare_withQueues (s : State) (par : Params) (qm : Qm) : (s.withQueues par qm).bare =
    s.bare.withQueues { par with counts := bareCounts par.counts } { qm with queues := tdel qm.queues 0x0A, pushed := 0 } := rfl

theorem Reports.withQueues (agree : Reports s t) (par : Params) (qm : Qm) :
    Reports (s.withQueues par qm) (t.withQueues par qm) := by
  rw [Reports, bare_withQueues, bare_withQueues, agree.eq]

theorem ButForQueues.trans (first : ButForQueues s t) (second : ButForQueues t u) : ButForQueues s u := by
  obtain ⟨_, _, first⟩ := first
  obtain ⟨par, qm, second⟩ := second
  exact ⟨par, qm, (first.withQueues par qm).trans second⟩

theorem ButForQueues.mesh (agree : ButForQueues s t) : t.mesh = s.mesh := by
  obtain ⟨_, _, agree⟩ := agree
  exact agree.at State.mesh

theorem ButForQueues.clk (agree : ButForQueues s t) : t.clk = s.clk := by
  obtain ⟨_, _, agree⟩ := agree
  exact agree.at State.clk

theorem ButForQueues.lane (agree : ButForQueues s t) (ep : Endpoint) (n : Nat) : t.lane ep n = s.lane ep n := by
  obtain ⟨_, _, agree⟩ := agree
  exact agree.lane ep n

theorem bump_butForQueues (s : State) (id idx n : Nat) : ButForQueues s (s.bump id idx n) := by
  unfold State.bump
  split
  · exact .refl s
  · exact ⟨_, _, rfl⟩

theorem setQueue_butForQueues (s : State) (q : Nat) (x : Queue) : ButForQueues s (s.setQueue q x) := ⟨_, _, rfl⟩

theorem crossed_butForQueues (s : State) (q d : Nat) : ButForQueues s (s.crossed q d) := by
  unfold State.crossed State.queueLevel
  split
  · dsimp only
    split
    · exact (bump_butForQueues _ _ _ _).trans (setQueue_butForQueues _ _ _)
    · exact ((bump_butForQueues _ _ _ _).trans (setQueue_butForQueues _ _ _)).trans
        (Reports.butForQueues (raise_bare _ _ _ _).symm)
  · exact .refl s

theorem put_butForQueues (s : State) (q : Nat) (it : Item) : ButForQueues s (s.put q it) := by
  unfold State.put
  have counted (s : State) : Reports s ((s.perfEdge 0x0010 q 1).meterBytes 8 0 64) :=
    ((meterBytes_bare _ _ _ _).trans (perfEdge_bare _ _ _ _)).symm
  exact (ButForQueues.trans ⟨_, _, rfl⟩ (crossed_butForQueues _ _ _)).trans (counted _).butForQueues

theorem puts_butForQueues (q : Nat) (item : State → List Byte → Item) (l : List (List Byte)) (s : State) :
    ButForQueues s (l.foldl (fun s b => s.put q (item s b)) s) := by
  induction l generalizing s with
  | nil => exact .refl s
  | cons b l ih => exact (put_butForQueues s q _).trans (ih _)

theorem feed_butForQueues (s : State) (q flow : Nat) (origin : Ns) (body : Body) : ButForQueues s (s.feed q flow origin body) := by
  unfold State.feed
  split
  · exact (ButForQueues.trans ⟨_, _, rfl⟩ (put_butForQueues _ _ _)).trans (puts_butForQueues q _ _ _)
  · exact .refl s

end

/-! ### Commands that end later (R63) -/

section

variable (s : State) (ep : Endpoint) (n st : Nat) (p : List Byte)

@[simp] theorem respond_mesh (dst : Source) (lane : Nat) (seq : Seq32) (opcode flags : Nat) :
    (s.respond dst lane seq opcode flags st p).mesh = s.mesh :=
  Reports.at (respond_bare s dst lane seq opcode flags st p).symm State.mesh

@[simp] theorem respond_lane (dst : Source) (lane : Nat) (seq : Seq32) (opcode flags : Nat) :
    (s.respond dst lane seq opcode flags st p).lane ep n = s.lane ep n :=
  Reports.lane (respond_bare s dst lane seq opcode flags st p).symm ep n

@[simp] theorem finish_mesh : (s.finish ep n st p).mesh = s.mesh := by
  unfold State.finish
  dsimp only
  split
  · split
    · rfl
    · split <;> exact respond_mesh _ _ _ _ _ _ _ _
  · rfl

variable {s ep n}

/-- A lane that holds a command is one of an open session. -/
theorem session_of_cmd (held : (s.lane ep n).cmd.isSome = true) :
    ∃ x, s.session? ep = some x ∧ n - 1 < x.lanes.length := by
  unfold State.lane at held
  cases here : s.session? ep with
  | none => simp [here, Lane.fresh] at held
  | some x =>
    refine ⟨x, rfl, Nat.lt_of_not_le fun beyond => ?_⟩
    simp [here, Session.lane, List.getElem?_eq_none beyond, Lane.fresh] at held

/-- A command that has not ended ends with the status and the payload, which its lane keeps for a resend (R61). -/
theorem finish_cached (held : (s.lane ep n).cmd.isSome = true) (open_ : (s.lane ep n).phase ≠ .idle) :
    ((s.finish ep n st p).lane ep n).cached = some (st, p) := by
  obtain ⟨x, here, inside⟩ := session_of_cmd held
  obtain ⟨⟨op, r⟩, cmd⟩ := Option.isSome_iff_exists.mp held
  have ended (l : Lane) (dst : Source) (seq : Seq32) : ((s.setLane ep n l).respond dst n seq op 1 st p).lane ep n = l :=
    (respond_lane _ ep n st p dst n seq op 1).trans (State.lane_setLane here inside l)
  unfold State.finish
  simp only [cmd, open_, if_false]
  split <;> exact congrArg Lane.cached (ended _ _ _)

end

/-! ### Probes and leaves (R328, R329, R352, R355) -/

section

variable {s : State} {r : Req} {n : Node} {b : List Byte} {q : Probe}

/-- A point's probe under the next tag, with the command that waits for it (R355). -/
def State.probeOf (s : State) (r : Req) : Probe :=
  { point := pidAt r.payload 0, kind := fld r.payload 6 1, tag := s.mesh.nextTag, sentAt := s.clk.mono
    waiter := some (r.src.endpoint, r.lane.toNat) }

/-- The probe's PDU for the node (R352). -/
def State.probePdu (s : State) (r : Req) (n : Node) : OtherPdu :=
  { node := n.short, eui := n.eui, radio := n.radio, enc := false
    element := element 0x85 (u8 (fld r.payload 6 1) ++ u8 s.mesh.nextTag) }

/-- The probe noted, and its PDU on its way. -/
def State.probes (s : State) (r : Req) (n : Node) : State :=
  { s with mesh.nextTag := (s.mesh.nextTag + 1) % 256, mesh.probes := s.mesh.probes ++ [s.probeOf r] }.pushOther (s.probePdu r n)

theorem nodeProbeBody_probes (exists_ : s.pointRefused (pidAt r.payload 0) = none) (kind : fld r.payload 6 1 ≤ 3)
    (joined : s.nodeAt (pidAt r.payload 0) = some n) : nodeProbeBody r s = .wait (s.probes r n) := by
  simp only [nodeProbeBody, exists_, Nat.not_lt.mpr kind, joined, if_false]
  rfl

theorem nodeProbeBody_unjoined (exists_ : s.pointRefused (pidAt r.payload 0) = none) (kind : fld r.payload 6 1 ≤ 3)
    (unjoined : s.nodeAt (pidAt r.payload 0) = none) : nodeProbeBody r s = ok (probeAnswer 1 0 []) s := by
  simp only [nodeProbeBody, exists_, Nat.not_lt.mpr kind, unjoined, if_false]

theorem nodeLeaveBody_marks (exists_ : s.pointRefused (pidAt r.payload 0) = none)
    (reason : fld r.payload 6 1 = 2 ∨ fld r.payload 6 1 = 3) (joined : s.nodeAt (pidAt r.payload 0) = some n) :
    nodeLeaveBody r s =
      ok [] (s.putNode { n with leave := if n.leave = 1 then 1 else fld r.payload 6 1, leaveSent := false }) := by
  have known : ¬ (fld r.payload 6 1 ≠ 2 ∧ fld r.payload 6 1 ≠ 3) := by omega
  simp only [nodeLeaveBody, exists_, known, joined, if_false]

theorem nodeLeaveBody_unjoined (exists_ : s.pointRefused (pidAt r.payload 0) = none)
    (reason : fld r.payload 6 1 = 2 ∨ fld r.payload 6 1 = 3) (unjoined : s.nodeAt (pidAt r.payload 0) = none) :
    nodeLeaveBody r s = fail stState s := by
  have known : ¬ (fld r.payload 6 1 ≠ 2 ∧ fld r.payload 6 1 ≠ 3) := by omega
  simp only [nodeLeaveBody, exists_, known, unjoined, if_false]

/-- The state without a probe that has its reply. -/
def State.dropProbe (s : State) (q : Probe) : State := { s with mesh.probes := s.mesh.probes.filter (fun p => p != q) }

/-- A matching reply is handed on, takes its probe, and ends the command that waits for it (R352, R355). -/
theorem onProbeReply_takes
    (found : s.mesh.probes.find? (fun p => p.point == n.point && p.kind == fld b 0 1 && p.tag == fld b 1 1) = some q) :
    ∃ t, ButForQueues s t ∧ (∀ ep lane, q.waiter = some (ep, lane) → s.onProbeReply n b =
        (t.dropProbe q).finish ep lane stOk (probeAnswer 0 ((s.clk.mono - q.sentAt) / us) (b.drop 2))) ∧
      (q.waiter = none → s.onProbeReply n b = t.dropProbe q) := by
  have fed := feed_butForQueues s 0x01 (statusFlow n.point) s.now (.raw b)
  rw [← fed.mesh] at found
  refine ⟨_, fed, fun ep lane waits => ?_, fun idle => ?_⟩
  · rw [← fed.clk]
    simp only [State.onProbeReply, found, waits]
    rfl
  · simp only [State.onProbeReply, found, idle]
    rfl

theorem onProbeReply_answers
    (found : s.mesh.probes.find? (fun p => p.point == n.point && p.kind == fld b 0 1 && p.tag == fld b 1 1) = some q) :
    (s.onProbeReply n b).mesh.probes = s.mesh.probes.filter (fun p => p != q) ∧
    ∀ w, q.waiter = some w → (s.lane w.1 w.2).cmd.isSome = true → (s.lane w.1 w.2).phase ≠ .idle →
      ((s.onProbeReply n b).lane w.1 w.2).cached = some (stOk, probeAnswer 0 ((s.clk.mono - q.sentAt) / us) (b.drop 2)) := by
  obtain ⟨t, fed, ends, silent⟩ := onProbeReply_takes found
  have dropped : (t.dropProbe q).mesh.probes = s.mesh.probes.filter (fun p => p != q) := by
    rw [← fed.mesh]
    rfl
  refine ⟨?_, fun ⟨ep, lane⟩ waits held open_ => ?_⟩
  · cases waits : q.waiter with
    | none => rw [silent waits, dropped]
    | some w => rw [ends _ _ waits, finish_mesh, dropped]
  · rw [← fed.lane] at held open_
    rw [ends ep lane waits]
    exact finish_cached (s := t.dropProbe q) _ _ held open_

end

/-- Settles O35: each body's branch, and the reply that takes its probe and ends the waiting command. -/
theorem probesAndLeavesReachTheirNode : Obligations.ProbesAndLeavesReachTheirNode := by
  refine ⟨fun r s ready => ?_, fun s n b q found => onProbeReply_answers found, fun r s ready => ?_⟩
  · intro a p kind exists_ low
    exact ⟨fun n joined => shotas_wait ready (nodeProbeBody_probes exists_ low joined),
      fun unjoined => shotas_ok ready (nodeProbeBody_unjoined exists_ low unjoined)⟩
  · intro a p reason exists_ known
    exact ⟨fun n joined => shotas_ok ready (nodeLeaveBody_marks exists_ known joined),
      fun unjoined => shotas_done ready rfl (nodeLeaveBody_unjoined exists_ known unjoined)⟩

end Sys2Proof.Machine

/-! ## Radio cells, acknowledgements, resends and network keys (spec chapter 8) -/

namespace Sys2Proof.Machine

/-! ### Events whose whole outcome is known -/

/-- An event of a running module answers what its effect leaves, settled. -/
theorem next_of_event {i : Instr} {dt : Ns} {f : State → State} {s u : State} (exec_eq : exec i s = event dt f s)
    (running : (s.begin dt).running = true) (effect : f (s.begin dt) = u) : exec i s = .next u.settle := by
  subst effect
  rw [exec_eq, event, if_pos running]

/-! ### The use of a cell (R299, R300) -/

section

variable {s : State} {r octets kind : Nat} {busy : Bool}

theorem useCell_skips (capped : s.overDuty r (s.airtime octets false) kind = true) : s.useCell r busy octets kind =
    (.skipped, s.onRadio r (fun x => { x with skipping := max x.skipping (kind + 1) })) := if_pos capped

/-- The radio that has room for a frame of the kind, and skips it no more. -/
def State.unskip (s : State) (r kind : Nat) : State := s.onRadio r (fun x => { x with skipping := min x.skipping kind })

section

variable (room : s.overDuty r (s.airtime octets false) kind = false)

include room

theorem useCell_busy (taken : ((s.unskip r kind).flag 0x5082 r && busy) = true) : s.useCell r busy octets kind =
    (.busy, ((s.unskip r kind).onRadio r (fun x => { x with ccaBusy := (x.ccaBusy + 1) % pow32 })).bump 0x50F9) :=
  (if_neg (Bool.eq_false_iff.mp room)).trans (if_pos taken)

theorem useCell_sends (clear : ((s.unskip r kind).flag 0x5082 r && busy) = false) :
    s.useCell r busy octets kind = (.sent, (s.unskip r kind).transmit r octets false) :=
  (if_neg (Bool.eq_false_iff.mp room)).trans (if_neg (Bool.eq_false_iff.mp clear))

/-- A frame that the duty has room for is sent, but where the channel is busy. -/
theorem useCell_room : (s.useCell r busy octets kind).1 = .sent ∨ ((s.useCell r busy octets kind).1 = .busy ∧ busy = true) := by
  cases taken : ((s.unskip r kind).flag 0x5082 r && busy) with
  | false => exact .inl (by rw [useCell_sends room taken])
  | true => exact .inr ⟨by rw [useCell_busy room taken], ((Bool.and_eq_true _ _).mp taken).2⟩

end

@[simp] theorem bump_mesh (s : State) (id idx n : Nat) : (s.bump id idx n).mesh = s.mesh := (bump_butForQueues s id idx n).mesh

@[simp] theorem transmit_flights (s : State) (r octets : Nat) (ack : Bool) :
    (s.transmit r octets ack).mesh.flights = s.mesh.flights := by
  obtain ⟨_, agree⟩ := transmit_reports s r octets ack
  exact agree.at (fun s : State => s.mesh.flights)

@[simp] theorem onRadio_flights (s : State) (r : Nat) (f : Radio → Radio) : (s.onRadio r f).mesh.flights = s.mesh.flights := rfl

@[simp] theorem useCell_flights (s : State) (r octets kind : Nat) (busy : Bool) :
    (s.useCell r busy octets kind).2.mesh.flights = s.mesh.flights := by
  cases capped : s.overDuty r (s.airtime octets false) kind with
  | true => rw [useCell_skips capped, onRadio_flights]
  | false =>
    cases taken : ((s.unskip r kind).flag 0x5082 r && busy) with
    | true => rw [useCell_busy capped taken, bump_mesh, onRadio_flights, State.unskip, onRadio_flights]
    | false => rw [useCell_sends capped taken, transmit_flights, State.unskip, onRadio_flights]

end

/-! ### Beacons (R300, R333) -/

section

variable {s x : State} {dt : Ns} {r : Nat} {use : CellUse} {o : CellOutcome} (running : (s.begin dt).running = true)

include running

theorem beaconCell_otherSlot (other : (s.begin dt).timeslot ≠ 0) : Leads (.beaconCell dt r use) s (s.begin dt) := by
  have exec_eq : exec (.beaconCell dt r use) s = execBeaconCell dt r use s := rfl
  unfold execBeaconCell at exec_eq
  exact leads_of_event exec_eq running (if_pos (.inr other))

variable (sends : (s.begin dt).mayTransmit r = true) (slot : (s.begin dt).timeslot = 0)

include sends slot

/-- In timeslot 0 a beacon leaves where its cell was used, and is else counted as missed. -/
theorem beaconCell_next (used : (s.begin dt).useCell r use.busy ((s.begin dt).mpdu 60) 3 = (o, x)) :
    exec (.beaconCell dt r use) s =
      .next (if o = .sent then { x with out := x.out ++ [Out.beacon r] } else x.bump 0x50FA : State).settle := by
  have exec_eq : exec (.beaconCell dt r use) s = execBeaconCell dt r use s := rfl
  unfold execBeaconCell at exec_eq
  refine next_of_event exec_eq running ?_
  simp only [sends, slot, used, Bool.not_true, Bool.false_eq_true, ne_eq, not_true_eq_false, or_self, if_false]
  cases o <;> rfl

theorem beaconCell_sends (used : (s.begin dt).useCell r use.busy ((s.begin dt).mpdu 60) 3 = (.sent, x)) :
    exec (.beaconCell dt r use) s = .next ({ x with out := x.out ++ [Out.beacon r] } : State).settle :=
  beaconCell_next running sends slot used

theorem beaconCell_misses (used : (s.begin dt).useCell r use.busy ((s.begin dt).mpdu 60) 3 = (o, x)) (unsent : o ≠ .sent) :
    Leads (.beaconCell dt r use) s (x.bump 0x50FA) :=
  leads_of_next (beaconCell_next running sends slot used) (by rw [if_neg unsent])

end

/-! ### Downlink cells (R307, R308) -/

section

variable {s x y : State} {r : Nat} {use : CellUse} {other : Bool} {first second : State → Option Flight × State} {f : Flight}

/-- A cell sends the next frame of one kind, else of the other, else an image block; the room it frees is filled (R251, R308). -/
def State.sendsNext (r : Nat) (use : CellUse) (other : Bool) (first second : State → Option Flight × State) (s : State) : State :=
  match first s with
  | (some f, s) => (s.fly r use.busy other f).coreDrain
  | (none, s) => match second s with
    | (some f, s) => (s.fly r use.busy other f).coreDrain
    | (none, s) => (s.imageCell r use.busy).coreDrain

theorem sendsNext_first (next : first s = (some f, x)) :
    State.sendsNext r use other first second s = (x.fly r use.busy other f).coreDrain := by
  simp only [State.sendsNext, next]

theorem sendsNext_second (none_ : first s = (none, x)) (next : second x = (some f, y)) :
    State.sendsNext r use other first second s = (y.fly r use.busy other f).coreDrain := by
  simp only [State.sendsNext, none_, next]

theorem sendsNext_image (none_ : first s = (none, x)) (none' : second x = (none, y)) :
    State.sendsNext r use other first second s = (y.imageCell r use.busy).coreDrain := by
  simp only [State.sendsNext, none_, none']

end

section

variable {s u : State} {dt : Ns} {r : Nat} {use : CellUse}

theorem driveCell_eq : exec (.driveCell dt r use) s = event dt (fun s =>
    if !s.mayTransmit r ∨ s.switchQuiet ∨ s.timeslot % 2 = 0 then s
    else State.sendsNext r use false (fun s => s.driveNext r false) (fun s => s.otherNext r false) (s.cellErrors use.errors)) s :=
  rfl

theorem otherDownlinkCell_eq : exec (.otherDownlinkCell dt r use) s = event dt (fun s =>
    if !s.mayTransmit r ∨ s.switchQuiet ∨ !(s.timeslot = 2 ∨ (s.timeslot = 12 ∧ s.slotsPer = 20)) then s
    else State.sendsNext r use true (fun s => s.otherNext r true) (fun s => s.driveNext r true) (s.cellErrors use.errors)) s :=
  rfl

variable (running : (s.begin dt).running = true)

include running

theorem driveCell_even (even : (s.begin dt).timeslot % 2 = 0) : Leads (.driveCell dt r use) s (s.begin dt) :=
  leads_of_event driveCell_eq running (if_pos (.inr (.inr even)))

theorem otherDownlinkCell_otherSlot (not2 : (s.begin dt).timeslot ≠ 2) (not12 : (s.begin dt).timeslot ≠ 12) :
    Leads (.otherDownlinkCell dt r use) s (s.begin dt) :=
  leads_of_event otherDownlinkCell_eq running (if_pos (.inr (.inr (by simp [not2, not12]))))

variable (sends : (s.begin dt).mayTransmit r = true) (open_ : (s.begin dt).switchQuiet = false)

include sends open_

theorem driveCell_leads (odd : (s.begin dt).timeslot % 2 = 1)
    (effect : State.sendsNext r use false (fun s => s.driveNext r false) (fun s => s.otherNext r false)
      ((s.begin dt).cellErrors use.errors) = u) : Leads (.driveCell dt r use) s u :=
  leads_of_event driveCell_eq running ((if_neg (by simp [sends, open_, odd])).trans effect)

theorem otherDownlinkCell_leads
    (slot : (s.begin dt).timeslot = 2 ∨ ((s.begin dt).timeslot = 12 ∧ (s.begin dt).slotsPer = 20))
    (effect : State.sendsNext r use true (fun s => s.otherNext r true) (fun s => s.driveNext r true)
      ((s.begin dt).cellErrors use.errors) = u) : Leads (.otherDownlinkCell dt r use) s u :=
  leads_of_event otherDownlinkCell_eq running ((if_neg (by simp [sends, open_, slot])).trans effect)

end

/-! ### Flights (R315) -/

section

variable {s : State} {r : Nat} {busy other : Bool} {f g : Flight}

/-- A flight that a cell has been used for. -/
def Flight.tried (f : Flight) (mono : Ns) (other : Bool) : Flight :=
  { f with attempts := f.attempts + 1, sentAt := mono, inOther := other }

/-- A flight kept in the place of the one with its number, or as a new one. -/
def State.keepFlight (s : State) (f : Flight) : State :=
  if s.mesh.flights.any (fun g => g.id == f.id) then
    { s with mesh.flights := s.mesh.flights.map (fun g => if g.id = f.id then f else g) }
  else { s with mesh.flights := s.mesh.flights ++ [f] }

/-- What a flight's frame makes of a cell. -/
def State.flightCell (s : State) (r : Nat) (busy : Bool) (f : Flight) : CellOutcome × State :=
  s.useCell r busy (s.mpdu f.pdu.length) (if f.entries.isEmpty then 1 else 2)

theorem flightCell_flights (s : State) (r : Nat) (busy : Bool) (f : Flight) :
    (s.flightCell r busy f).2.mesh.flights = s.mesh.flights := useCell_flights _ _ _ _ _

@[simp] theorem air_mesh (s : State) (r node : Nat) (pdus : List (List Byte)) : (s.air r node pdus).mesh = s.mesh := rfl

theorem air_out (s : State) (r node : Nat) (pdus : List (List Byte)) : Out.radioFrame r node pdus ∈ (s.air r node pdus).out :=
  List.mem_append_right _ (List.mem_singleton.mpr rfl)

theorem fly_sent (sent : (s.flightCell r busy f).1 = .sent) : s.fly r busy other f =
    ((s.flightCell r busy f).2.keepFlight (f.tried s.clk.mono other)).air r f.neighbour [f.pdu] := if_pos sent

theorem fly_busy (taken : (s.flightCell r busy f).1 = .busy) :
    s.fly r busy other f = (s.flightCell r busy f).2.keepFlight (f.tried s.clk.mono other) :=
  (if_neg fun sent : (s.flightCell r busy f).1 = .sent => by simp [taken] at sent).trans (if_pos taken)

theorem keepFlight_find? (f : Flight) (found : s.mesh.flights.find? (fun g => g.id == f.id) = some g) :
    (s.keepFlight f).mesh.flights.find? (fun g => g.id == f.id) = some f := by
  have known : s.mesh.flights.any (fun g => g.id == f.id) = true :=
    List.any_eq_true.mpr ⟨g, List.mem_of_find?_eq_some found, List.find?_some (p := fun g : Flight => g.id == f.id) found⟩
  have same : ((fun g : Flight => g.id == f.id) ∘ fun g => if g.id = f.id then f else g) = fun g => g.id == f.id := by
    funext g
    simp only [Function.comp_apply]
    split <;> simp_all
  have own : g.id = f.id := by simpa using List.find?_some found
  rw [State.keepFlight, if_pos known]
  simp only [List.find?_map, same, found, Option.map_some, own, if_true]

/-- A flight that the duty has room for counts an attempt; where the channel is clear, its frame is on the air. -/
theorem fly_attempts (found : s.mesh.flights.find? (fun g => g.id == f.id) = some f)
    (room : s.overDuty r (s.airtime (s.mpdu f.pdu.length) false) (if f.entries.isEmpty then 1 else 2) = false) :
    (s.fly r busy other f).mesh.flights.find? (fun g => g.id == f.id) = some (f.tried s.clk.mono other) ∧
    (busy = false → Out.radioFrame r f.neighbour [f.pdu] ∈ (s.fly r busy other f).out) := by
  have kept := keepFlight_find? (s := (s.flightCell r busy f).2) (f.tried s.clk.mono other)
    ((congrArg (List.find? fun g : Flight => g.id == f.id) (flightCell_flights s r busy f)).trans found)
  rcases useCell_room (busy := busy) room with sent | ⟨taken, channel⟩
  · rw [fly_sent sent, air_mesh]
    exact ⟨kept, fun _ => air_out _ _ _ _⟩
  · rw [fly_busy taken]
    exact ⟨kept, fun clear => by simp [channel] at clear⟩

end

/-- Settles O37: what useCell answers decides a beacon and an attempt, and both kinds of downlink cells try three sources in turn. -/
theorem radioCellsSendWhatWaits : Obligations.RadioCellsSendWhatWaits := by
  refine ⟨fun dt r use s running sends => ?_, fun s r busy other f found room => fly_attempts found room⟩
  intro a c air b
  refine ⟨fun slot room clear => beaconCell_sends running sends slot (useCell_sends room clear),
    fun slot room taken => beaconCell_misses running sends slot (useCell_busy room taken) (by decide),
    fun slot capped => beaconCell_misses running sends slot (useCell_skips capped) (by decide),
    beaconCell_otherSlot running, fun open_ => ⟨fun odd => ?_, driveCell_even running, fun slot => ?_,
    otherDownlinkCell_otherSlot running⟩⟩
  · have cell {u : State} := driveCell_leads (r := r) (use := use) (u := u) running sends open_ odd
    exact ⟨fun f x next => cell (sendsNext_first next), fun f x y none_ next => cell (sendsNext_second none_ next),
      fun x y none_ none' => cell (sendsNext_image none_ none')⟩
  · have cell {u : State} := otherDownlinkCell_leads (r := r) (use := use) (u := u) running sends open_ slot
    exact ⟨fun f x next => cell (sendsNext_first next), fun f x y none_ next => cell (sendsNext_second none_ next),
      fun x y none_ none' => cell (sendsNext_image none_ none')⟩

/-! ### Acknowledgements, resends and silence (R315, R319, R334) -/

section

variable {s : State} {dt : Ns} (running : (s.begin dt).running = true)

include running

theorem nodeAckReceive_acks {radio frame : Nat} {f : Flight}
    (found : (s.begin dt).mesh.flights.find? (fun f => f.id == frame && f.radio == radio && !f.acked && decide (0 < f.attempts)) =
      some f) :
    Leads (.nodeAckReceive dt radio frame) s (((s.begin dt).meterBytes (3 + radio) 0 ackOctets).linkAck f) := by
  have exec_eq : exec (.nodeAckReceive dt radio frame) s = execNodeAckReceive dt radio frame s := rfl
  unfold execNodeAckReceive at exec_eq
  exact leads_of_event exec_eq running (by simp only [found])

/-- A drive PDU is sent anew once its confirmation is late, and not before (R315). -/
theorem e2eResend_leads {frame : Nat} {f : Flight}
    (found : (s.begin dt).mesh.flights.find? (fun f => f.id == frame && !f.entries.isEmpty && decide (0 < f.attempts)) = some f) :
    (f.sentAt + (s.begin dt).num 0x5018 * ms ≤ (s.begin dt).clk.mono → Leads (.e2eResend dt frame) s ((s.begin dt).e2e f)) ∧
    ((s.begin dt).clk.mono < f.sentAt + (s.begin dt).num 0x5018 * ms → Leads (.e2eResend dt frame) s (s.begin dt)) := by
  have exec_eq : exec (.e2eResend dt frame) s = execE2eResend dt frame s := rfl
  unfold execE2eResend at exec_eq
  exact ⟨fun late => leads_of_event exec_eq running (by simp only [found, late, if_true]),
    fun early => leads_of_event exec_eq running (by simp only [found, Nat.not_le.mpr early, if_false])⟩

/-- A joined node is silent once mesh.silent_s have passed since its last PDU, and not before (R334). -/
theorem nodeSilent_leads {p : Pid} {n : Node} (found : (s.begin dt).nodeAt p = some n) (joined : n.state = 1) :
    (n.lastPdu + (s.begin dt).num 0x5011 * sec ≤ (s.begin dt).clk.mono →
      Leads (.nodeSilent dt p) s ((s.begin dt).nodeState n.eui 2)) ∧
    ((s.begin dt).clk.mono < n.lastPdu + (s.begin dt).num 0x5011 * sec → Leads (.nodeSilent dt p) s (s.begin dt)) := by
  have exec_eq : exec (.nodeSilent dt p) s = execNodeSilent dt p s := rfl
  unfold execNodeSilent at exec_eq
  exact ⟨fun late => leads_of_event exec_eq running (by simp only [found, joined, late, and_self, if_true]),
    fun early => leads_of_event exec_eq running (by simp only [found, Nat.not_le.mpr early, and_false, if_false])⟩

end

/-! ### The network key (R317, R353, R510) -/

/-- The next key in force under its index, the old index kept, and every link counter at 0 (R353). -/
def State.activateKey (s : State) (index : Nat) : State :=
  { s with mesh.oldKey := some (s.mesh.keyIndex, s.clk.mono), mesh.keyIndex := index, mesh.nextKey := none
           mesh.keyMadeAt := s.clk.mono, ks.netkeyTurn := 1 - s.ks.netkeyTurn
           mesh.radios := s.mesh.radios.map (fun r => { r with counter := 0, committed := 65536 })
           mesh.nodes := s.mesh.nodes.map (fun e => (e.1, { e.2 with rekey := false })) }

/-- The old key gone, with what its frames have counted at the nodes (R353). -/
def State.dropKey (s : State) (index : Nat) : State :=
  { s with mesh.oldKey := none
           mesh.nodes := s.mesh.nodes.map (fun e => (e.1, { e.2 with links := e.2.links.filter (fun l => l.1 != index) })) }

section

variable {s : State} {dt : Ns} (running : (s.begin dt).running = true)

include running

/-- A usable key is rolled once its life is over, and not before while its counters are low (R317). -/
theorem keyRoll_leads {key : List Byte} (idle : (s.begin dt).mesh.nextKey = none)
    (usable : (s.begin dt).keyUsable (s.begin dt).netkeySlot 1 = true) :
    ((s.begin dt).mesh.keyMadeAt + (s.begin dt).num 0x5017 * 86400 * sec ≤ (s.begin dt).clk.mono →
      Leads (.keyRoll dt key) s ((s.begin dt).rollKey key)) ∧
    ((s.begin dt).clk.mono < (s.begin dt).mesh.keyMadeAt + (s.begin dt).num 0x5017 * 86400 * sec →
      (s.begin dt).counterHigh = false → Leads (.keyRoll dt key) s (s.begin dt)) := by
  have exec_eq : exec (.keyRoll dt key) s = execKeyRoll dt key s := rfl
  unfold execKeyRoll at exec_eq
  exact ⟨fun old => leads_of_event exec_eq running (if_pos ⟨Option.isNone_iff_eq_none.mpr idle, usable, .inl old⟩),
    fun young low => leads_of_event exec_eq running
      (if_neg fun ⟨_, _, due⟩ => due.elim (Nat.not_le.mpr young) (Bool.eq_false_iff.mp low))⟩

/-- The next key comes into force at its instant of mesh time, and not before (R353). -/
theorem netkeyActivation_leads {index : Nat} {instant : Ns} (next : (s.begin dt).mesh.nextKey = some (index, instant)) :
    ((s.begin dt).meshTime < instant → Leads (.netkeyActivation dt) s (s.begin dt)) ∧
    (instant ≤ (s.begin dt).meshTime → Leads (.netkeyActivation dt) s ((s.begin dt).activateKey index)) := by
  have exec_eq : exec (.netkeyActivation dt) s = execNetkeyActivation dt s := rfl
  unfold execNetkeyActivation at exec_eq
  exact ⟨fun early => leads_of_event exec_eq running (by simp only [next, early, if_true]),
    fun come => leads_of_event exec_eq running (by simp only [next, Nat.not_lt.mpr come, if_false, State.activateKey])⟩

/-- The old key is in force for 60 s more (R353). -/
theorem oldKeyDiscard_leads {index : Nat} {t : Ns} (old : (s.begin dt).mesh.oldKey = some (index, t)) :
    ((s.begin dt).clk.mono < t + 60 * sec → Leads (.oldKeyDiscard dt) s (s.begin dt)) ∧
    (t + 60 * sec ≤ (s.begin dt).clk.mono → Leads (.oldKeyDiscard dt) s ((s.begin dt).dropKey index)) := by
  have exec_eq : exec (.oldKeyDiscard dt) s = execOldKeyDiscard dt s := rfl
  unfold execOldKeyDiscard at exec_eq
  exact ⟨fun early => leads_of_event exec_eq running (by simp only [old, early, if_true]),
    fun past => leads_of_event exec_eq running (by simp only [old, Nat.not_lt.mpr past, if_false, State.dropKey])⟩

end

theorem State.activateKey_counter (s : State) (index : Nat) : ∀ x ∈ (s.activateKey index).mesh.radios, x.counter = 0 := by
  intro x here
  obtain ⟨_, _, rfl⟩ := List.mem_map.mp here
  rfl

/-! ### Activations of images (R546) -/

/-- An arm of nodes whose instant has come, retired (R546). -/
def State.retireArm (s : State) (kind : Nat) (x : Arm) : State :=
  { s with up.activated := s.up.activated ++ [(kind, x.imageId, x.instant)], up.arms := tdel s.up.arms kind
           up.lastActivation := tdel s.up.lastActivation kind }

/-- An arm's activation, for every radio's next free cell (R546). -/
def State.giveActivation (s : State) (kind : Nat) (x : Arm) : State :=
  { s with up.lastActivation := tput s.up.lastActivation kind s.clk.mono
           mesh.activations := s.mesh.activations.filter (fun y => y.2.1 != x.imageId) ++
             (List.range s.radiosFitted).map (fun r => (r, x.imageId, x.instant)) }

theorem activationBroadcast_leads {s : State} {dt : Ns} {kind : Nat} {x : Arm} (running : (s.begin dt).running = true)
    (armed : tget (s.begin dt).up.arms kind = some x) (low : 1 ≤ kind) (high : kind ≤ 4) (ready : x.pending = false) :
    (x.instant ≤ (s.begin dt).tb → Leads (.activationBroadcast dt kind) s ((s.begin dt).retireArm kind x)) ∧
    ((s.begin dt).tb < x.instant →
      (∀ t, tget (s.begin dt).up.lastActivation kind = some t → t + 10 * sec ≤ (s.begin dt).clk.mono) →
      Leads (.activationBroadcast dt kind) s ((s.begin dt).giveActivation kind x)) := by
  have exec_eq : exec (.activationBroadcast dt kind) s = execActivationBroadcast dt kind s := rfl
  unfold execActivationBroadcast at exec_eq
  refine ⟨fun come => leads_of_event exec_eq running ?_, fun ahead due => leads_of_event exec_eq running ?_⟩
  · simp only [armed, low, high, ready, come, Nat.not_lt.mpr come, Bool.not_false, false_and, and_false, and_self, if_true,
      if_false, State.retireArm]
  · have due' : (tget (s.begin dt).up.lastActivation kind).all
        (fun t => decide (t + 10 * sec ≤ (s.begin dt).clk.mono)) = true := by
      simpa [Option.all_eq_true] using due
    simp only [armed, low, high, ready, ahead, due', Bool.not_false, and_self, if_true, State.giveActivation]

/-- Settles O38: each event's effect where its guard holds; the activated key stands in the settled state. -/
theorem meshTimersAndKeysAct : Obligations.MeshTimersAndKeysAct := by
  intro dt s running
  refine ⟨fun radio frame f => nodeAckReceive_acks running, fun frame f => e2eResend_leads running,
    fun p n => nodeSilent_leads running, fun key => keyRoll_leads running, fun index instant next => ?_,
    fun index t => oldKeyDiscard_leads running,
    fun radio => leads_of_event (f := fun s => s.onRadio radio (fun x => { x with selfTestFailed := true })) rfl running rfl,
    fun kind x => activationBroadcast_leads running⟩
  obtain ⟨early, activates⟩ := netkeyActivation_leads running next
  refine ⟨early, fun come => ?_⟩
  obtain ⟨t, out, agree⟩ := activates come
  have mesh : t.mesh = ((s.begin dt).activateKey index).mesh := agree.at State.mesh
  have ks : t.ks = ((s.begin dt).activateKey index).ks := agree.at State.ks
  refine ⟨t, out, ?_⟩
  rw [mesh, ks, agree.params]
  exact ⟨rfl, rfl, rfl, rfl, State.activateKey_counter _ _, rfl, rfl, rfl⟩

end Sys2Proof.Machine

/-! ## Network time (spec chapter 11): the time base, Sync and Follow_Up, the best master, peer delay and PPS_IN -/

namespace Sys2Proof.Machine

/-! ### Mesh time runs on through a step (R305, R446) -/

section

variable (s : State)

theorem dropStretches_getLastD (now_ : Ns) (l : List (Ns × Ns × Int)) (d : Ns × Ns × Int) :
    (dropStretches now_ l).getLastD d = l.getLastD d := by
  fun_induction dropStretches now_ l with
  | case1 a b rest old ih => rw [ih, List.getLastD_cons, List.getLastD_cons, List.getLastD_cons]
  | case2 a b rest young => rfl
  | case3 l short => rfl

theorem slew_zero (delta : Int) : slew delta 0 = 0 := by
  simp [slew]

/-- A new value of the time base begins a stretch at the mesh time reached. -/
theorem setTimeBase_stretch (t : Ns) : (s.setTimeBase t).stretch = (s.clk.mono, s.meshTime, (t : Int) - s.meshTime) := by
  have last : (s.setTimeBase t).stretch =
      (dropStretches s.clk.mono (s.mesh.stretches ++ [(s.clk.mono, s.meshTime, (t : Int) - s.meshTime)])).getLastD (0, sec, 0) := rfl
  rw [last, dropStretches_getLastD]
  simp

theorem setTimeBase_meshTime (t : Ns) : (s.setTimeBase t).meshTime = s.meshTime := by
  have base : (s.setTimeBase t).clk.timeBase = t := rfl
  have elapsed : ((t : Int) - ((s.meshTime : Int) + ((t : Int) - s.meshTime))).toNat = 0 := by omega
  rw [State.meshTime, setTimeBase_stretch, base]
  simp only [elapsed, slew_zero, Nat.cast_zero, add_zero, Int.toNat_natCast]

theorem stepTime_tb (t : Ns) : (s.stepTime t).tb = t :=
  (Reports.at (raise_bare _ _ _ _).symm State.tb).trans
    (congrArg Clock.timeBase (bump_butForQueues (s.setTimeBase t) 0x70F7 0 1).clk)

end

/-! ### Stamps (R441) -/

theorem stampExtendRead_refreshes {s : State} {dt : Ns} (running : (s.begin dt).running = true) (small : (s.begin dt).is16C = true) :
    Leads (.stampExtendRead dt) s { s.begin dt with
      ptp.rawRef := (s.begin dt).tb % pow32, ptp.extRef := (s.begin dt).tb, ptp.refAt := (s.begin dt).clk.mono } := by
  have exec_eq : exec (.stampExtendRead dt) s = execStampExtendRead dt s := rfl
  unfold execStampExtendRead at exec_eq
  exact leads_of_event exec_eq running (if_pos small)

/-! ### Syncs and Follow_Ups (R440, R445, R446) -/

theorem sync_leads {s u : State} {dt : Ns} {p : Port} {m : SyncMsg} (running : (s.begin dt).running = true)
    (effect : (s.begin dt).syncArrives p m = u) : Leads (.sync dt p m) s u :=
  leads_of_event (f := fun s => s.syncArrives p m) rfl running effect

theorem followUp_leads {s u : State} {dt : Ns} {p : Port} {m : FollowUpMsg} (running : (s.begin dt).running = true)
    (effect : (s.begin dt).followUp p m = u) : Leads (.followUp dt p m) s u :=
  leads_of_event (f := fun s => s.followUp p m) rfl running effect

section

variable {s b : State} {p : Port} {m : SyncMsg} {raw : Int}

/-- How long a message that came in at `ingress` has been in the module when it leaves by the other port (R445). -/
def State.residence (s : State) (p : Port) (ingress : Int) : Int := (s.tb : Int) + (s.latency (Port.other p)).1 - ingress

/-- A two-step Sync held for its Follow_Up. -/
def State.syncHold (s : State) (p : Port) (m : SyncMsg) (ingress : Int) : HeldSync :=
  { port := p, master := m.master, seq := m.sequence, sum := s.residence p ingress + (s.port p).delay, corr := m.correction
    ingress := ingress, at_ := s.clk.mono }

variable (up : s.linkUp p = true) (heard : s.portHears p (frameBytes none 44) = b)

include up heard

theorem syncArrives_own (own : m.master.toNat = b.clockId) : s.syncArrives p m = b.ownReturns p := by
  simp only [State.syncArrives, up, heard, own, Bool.not_true, Bool.false_eq_true, if_true, if_false]

variable (other : m.master.toNat ≠ b.clockId) (domain : m.domain = b.num 0x7020)

include other domain

theorem syncArrives_unstamped (stamp : b.macStamp m.age = none) : s.syncArrives p m = b.bump 0x70FC := by
  simp only [State.syncArrives, up, heard, other, domain, stamp, Bool.not_true, Bool.false_eq_true, ne_eq, not_true_eq_false,
    if_false]

variable (stamp : b.macStamp m.age = some raw)

include stamp

theorem syncArrives_unmeasured (invalid : (b.port p).delayValid = false) : s.syncArrives p m = b.bump 0x70FB := by
  simp only [State.syncArrives, up, heard, other, domain, stamp, invalid, Bool.not_true, Bool.not_false, Bool.false_eq_true, ne_eq,
    not_true_eq_false, if_true, if_false]

variable (valid : (b.port p).delayValid = true)

include valid

theorem syncArrives_twoStep (two : m.twoStep = true) : s.syncArrives p m =
    ({ b with ptp.held := lastN 16 (b.ptp.held ++ [b.syncHold p m (raw - (b.latency p).2)])
              ptp.interval := m.interval } : State).ptpOut (Port.other p) 0 m.correction m.sequence := by
  simp only [State.syncArrives, up, heard, other, domain, stamp, valid, two, Bool.not_true, Bool.false_eq_true, ne_eq,
    not_true_eq_false, if_true, if_false]
  rfl

theorem syncArrives_oneStep (one : m.twoStep = false) : s.syncArrives p m =
    (b.ptpOut (Port.other p) 0 (m.correction + b.residence p (raw - (b.latency p).2) + (b.port p).delay) m.sequence).takeOffset p
      m.master m.sequence (ptpStamp m.seconds m.nanos) m.correction (raw - (b.latency p).2) m.interval := by
  simp only [State.syncArrives, up, heard, other, domain, stamp, valid, one, Bool.not_true, Bool.false_eq_true, ne_eq,
    not_true_eq_false, if_false]
  rfl

end

section

variable {s b : State} {p : Port} {m : FollowUpMsg}

/-- The Follow_Up of a held Sync: of its master, in its sequence, by its port. -/
def HeldSync.followedBy (h : HeldSync) (p : Port) (m : FollowUpMsg) : Bool :=
  h.port == p && h.master == m.master && h.seq == m.sequence

variable (up : s.linkUp p = true) (heard : s.portHears p (frameBytes none 44) = b) (other : m.master.toNat ≠ b.clockId)
  (domain : m.domain = b.num 0x7020)

include up heard other domain

theorem followUp_stray (none_ : b.ptp.held.find? (fun h => h.followedBy p m) = none) :
    s.followUp p m = (b.bump 0x70FA).ptpOut (Port.other p) 8 m.correction m.sequence := by
  unfold HeldSync.followedBy at none_
  simp only [State.followUp, up, heard, other, domain, none_, Bool.not_true, Bool.false_eq_true, ne_eq, not_true_eq_false, if_false]

theorem followUp_held {h : HeldSync} (found : b.ptp.held.find? (fun h => h.followedBy p m) = some h) : s.followUp p m =
    (({ b with ptp.held := b.ptp.held.filter (fun x => !x.followedBy p m) } : State).ptpOut (Port.other p) 8 (m.correction + h.sum)
      m.sequence).takeOffset p m.master m.sequence (ptpStamp m.seconds m.nanos) (h.corr + m.correction) h.ingress b.ptp.interval := by
  unfold HeldSync.followedBy at found
  simp only [State.followUp, up, heard, other, domain, found, Bool.not_true, Bool.false_eq_true, ne_eq, not_true_eq_false, if_false]
  rfl

end

/-! ### The best master and the time states (R443, R446, R450, R610) -/

section

variable {s : State} {dt : Ns} (running : (s.begin dt).running = true)

include running

/-- The data set in the place of the one that its clock announced before, with those that have lapsed gone (R450). -/
def State.hearClock (s : State) (p : Port) (m : AnnounceMsg) : State :=
  { s with ptp.heard := s.ptp.heard.filter (fun e => !(e.1 == p && e.2.1.source == m.source) &&
    decide (s.clk.mono < e.2.2 + 3 * sec)) ++ [(p, m, s.clk.mono)] }

theorem announce_leads {b : State} {p : Port} {m : AnnounceMsg} (up : (s.begin dt).linkUp p = true)
    (heard : (s.begin dt).portHears p (frameBytes none 64) = b) (other : m.source.toNat ≠ b.clockId)
    (domain : m.domain = b.num 0x7020) :
    Leads (.announce dt p m) s ((b.hearClock p m).ptpOut (Port.other p) 11 0 0#16).selectMaster := by
  have exec_eq : exec (.announce dt p m) s = execAnnounce dt p m s := rfl
  unfold execAnnounce at exec_eq
  refine leads_of_event exec_eq running ?_
  simp only [up, heard, other, domain, Bool.not_true, Bool.false_eq_true, ne_eq, not_true_eq_false, if_false]
  rfl

/-- A LOCKED module goes to HOLDOVER after three intervals without Sync, and not before (Table 11.6). -/
theorem syncMissTimeout_leads {a : State} {t : Ns} (chosen : (s.begin dt).selectMaster = a) (locked : a.ptp.state = .locked)
    (last : a.ptp.lastSync = some t) :
    (t + 3 * a.ptp.interval ≤ a.clk.mono → Leads (.syncMissTimeout dt) s (a.timeTo .holdover)) ∧
    (a.clk.mono < t + 3 * a.ptp.interval → Leads (.syncMissTimeout dt) s a) := by
  have exec_eq : exec (.syncMissTimeout dt) s = execSyncMissTimeout dt s := rfl
  unfold execSyncMissTimeout at exec_eq
  refine ⟨fun late => leads_of_event exec_eq running ?_, fun early => leads_of_event exec_eq running ?_⟩
  · simp only [chosen, locked, last, late, decide_true, and_self, if_true]
  · simp only [chosen, last, Nat.not_le.mpr early, decide_false, Bool.false_eq_true, and_false, if_false]

theorem holdoverTimeout_leads (held : (s.begin dt).ptp.state = .holdover) :
    ((s.begin dt).ptp.holdoverSince + (s.begin dt).num 0x7029 * sec ≤ (s.begin dt).clk.mono →
      Leads (.holdoverTimeout dt) s ((s.begin dt).timeTo .free)) ∧
    ((s.begin dt).clk.mono < (s.begin dt).ptp.holdoverSince + (s.begin dt).num 0x7029 * sec →
      Leads (.holdoverTimeout dt) s (s.begin dt)) := by
  have exec_eq : exec (.holdoverTimeout dt) s = execHoldoverTimeout dt s := rfl
  unfold execHoldoverTimeout at exec_eq
  exact ⟨fun late => leads_of_event exec_eq running (if_pos ⟨held, late⟩),
    fun early => leads_of_event exec_eq running (if_neg fun ⟨_, late⟩ => Nat.not_le.mpr early late)⟩

/-- An accepted edge of PPS_IN, which is steady since the first that came or came back (R610). -/
def State.takeEdge (s : State) : State :=
  { s with ptp.ppsEdge := some s.clk.mono, ptp.ppsMissing := false
           ptp.ppsSteady := if s.ptp.ppsEdge.isNone || s.ptp.ppsMissing then some s.clk.mono else s.ptp.ppsSteady }

theorem ppsInEdge_accepted {high : Ns} {v : State} (long : 1000 ≤ high) (accepts : (s.begin dt).ppsAccepts = true)
    (aligned : (s.begin dt).takeEdge.ppsSeed.selectMaster.noteValidity = v) :
    Leads (.ppsInEdge dt high) s (if v.ptp.state = .grandmaster then v.announceSelf else v) := by
  have exec_eq : exec (.ppsInEdge dt high) s = execPpsInEdge dt high s := rfl
  unfold execPpsInEdge at exec_eq
  subst aligned
  exact leads_of_event exec_eq running (if_neg (by simp [accepts, long]))

theorem ppsInEdge_rejected {high : Ns} (rejected : high < 1000 ∨ (s.begin dt).ppsAccepts = false) :
    Leads (.ppsInEdge dt high) s (s.begin dt) := by
  have exec_eq : exec (.ppsInEdge dt high) s = execPpsInEdge dt high s := rfl
  unfold execPpsInEdge at exec_eq
  exact leads_of_event exec_eq running (if_pos (by simpa using rejected))

/-- PPS_IN, known to be missing (R610). -/
def State.ppsLost (s : State) : State := { s with ptp.ppsMissing := true, ptp.ppsSteady := none }

/-- PPS_IN is missing 3 s after its last edge, which takes a grandmaster to HOLDOVER (R610, Table 11.6). -/
theorem ppsInMissing_leads {t : Ns} (edge : (s.begin dt).ptp.ppsEdge = some t) (there : (s.begin dt).ptp.ppsMissing = false) :
    (t + 3 * sec ≤ (s.begin dt).clk.mono → (s.begin dt).ptp.state = .grandmaster →
      Leads (.ppsInMissing dt) s ((s.begin dt).ppsLost.timeTo .holdover)) ∧
    (t + 3 * sec ≤ (s.begin dt).clk.mono → (s.begin dt).ptp.state ≠ .grandmaster →
      Leads (.ppsInMissing dt) s (s.begin dt).ppsLost) ∧
    ((s.begin dt).clk.mono < t + 3 * sec → Leads (.ppsInMissing dt) s (s.begin dt)) := by
  have exec_eq : exec (.ppsInMissing dt) s = execPpsInMissing dt s := rfl
  unfold execPpsInMissing at exec_eq
  refine ⟨fun late gm => leads_of_event exec_eq running ?_, fun late slave => leads_of_event exec_eq running ?_,
    fun early => leads_of_event exec_eq running ?_⟩
  · simp [edge, there, late, gm, State.ppsLost]
  · simp [edge, there, late, slave, State.ppsLost]
  · simp [edge, there, early]

end

/-! ### Peer delay (R444) -/

section

variable {s : State} {dt : Ns} {p : Port}

theorem setPort_port (s : State) (p : Port) (x : RingPort) : (s.setPort p x).port p = x := by
  cases p <;> rfl

theorem Reports.port {u t : State} (agree : Reports u t) (p : Port) : (t.port p).bare = (u.port p).bare := by
  cases p with
  | A => exact agree.at (fun s : State => s.ring.a)
  | B => exact agree.at (fun s : State => s.ring.b)

/-- A port that asks for its peer delay; a request that is still unanswered has failed. -/
def RingPort.asks (x : RingPort) (mono : Ns) : RingPort :=
  { (if x.asked then x.delayFails mono else x) with asked := true, askedAt := mono }

theorem RingPort.asks_unanswered {x : RingPort} (mono : Ns) (asked : x.asked = true) :
    (x.asks mono).failRun = x.failRun + 1 ∧ (2 ≤ x.failRun → (x.asks mono).delayValid = false) := by
  by_cases few : x.failRun + 1 < 3
  · simp only [RingPort.asks, RingPort.delayFails, asked, few, if_true, true_and]
    omega
  · simp [RingPort.asks, RingPort.delayFails, asked, few]

variable (running : (s.begin dt).running = true) (up : (s.begin dt).linkUp p = true)

include running up

theorem peerDelayExchange_asks
    (due : ((s.begin dt).port p).askedAt = 0 ∨ ((s.begin dt).port p).askedAt + sec ≤ (s.begin dt).clk.mono) :
    Leads (.peerDelayExchange dt p) s ((s.begin dt).setPort p (((s.begin dt).port p).asks (s.begin dt).clk.mono)) := by
  have exec_eq : exec (.peerDelayExchange dt p) s = execPeerDelayExchange dt p s := rfl
  unfold execPeerDelayExchange at exec_eq
  have asks : ¬ (!(s.begin dt).linkUp p || (((s.begin dt).port p).askedAt != 0 &&
      decide ((s.begin dt).clk.mono < ((s.begin dt).port p).askedAt + sec))) = true := by
    rcases due with first | waited
    · simp [up, first]
    · simp [up, waited]
  refine (leads_of_event exec_eq running (if_neg asks)).butFor (Reports.trans ?_ (portSends_bare _ _ _).symm)
  rfl

/-- What a request for the peer delay leaves at its port. -/
theorem peerDelayExchange_port
    (due : ((s.begin dt).port p).askedAt = 0 ∨ ((s.begin dt).port p).askedAt + sec ≤ (s.begin dt).clk.mono) :
    ∃ t, exec (.peerDelayExchange dt p) s = .next t ∧
      (t.port p).bare = (((s.begin dt).port p).asks (s.begin dt).clk.mono).bare := by
  obtain ⟨t, next, agree⟩ := peerDelayExchange_asks running up due
  exact ⟨t, next, (agree.port p).trans (by rw [setPort_port])⟩

theorem peerDelayMessage_response {b : State} {seq : BitVec 16} {d : Ns} {ratio : Int}
    (heard : (s.begin dt).portHears p (frameBytes none 54) = b) (asked : (b.port p).asked = true) :
    Leads (.peerDelayMessage dt p (.response seq d ratio)) s (b.setPort p ((b.port p).delayGiven b.clk.mono d ratio)) := by
  have exec_eq : exec (.peerDelayMessage dt p (.response seq d ratio)) s = execPeerDelayMessage dt p (.response seq d ratio) s := rfl
  unfold execPeerDelayMessage at exec_eq
  exact leads_of_event exec_eq running (by simp only [up, heard, asked, Bool.not_true, Bool.false_eq_true, if_true, if_false])

theorem peerDelayMessage_request {b : State} {seq : BitVec 16} (heard : (s.begin dt).portHears p (frameBytes none 54) = b) :
    Leads (.peerDelayMessage dt p (.request seq)) s
      (({ b with out := b.out ++ [Out.peerDelayResponse p seq] } : State).portSends p (frameBytes none 54)) := by
  have exec_eq : exec (.peerDelayMessage dt p (.request seq)) s = execPeerDelayMessage dt p (.request seq) s := rfl
  unfold execPeerDelayMessage at exec_eq
  exact leads_of_event exec_eq running (by simp only [up, heard, Bool.not_true, Bool.false_eq_true, if_false])

end

/-- Settles O46: a stretch that begins where the last ended, and each event's effect where its guard holds. -/
theorem theTimeBaseFollowsItsMaster : Obligations.TheTimeBaseFollowsItsMaster := by
  refine ⟨fun s t => ⟨setTimeBase_meshTime s t, stepTime_tb s t⟩, fun dt s running => ?_⟩
  intro a
  refine ⟨fun p m up => ?_, fun p m up => ?_, ?_, fun p m up => announce_leads running up rfl,
    fun t => syncMissTimeout_leads running rfl, holdoverTimeout_leads running,
    fun high long accepts => ppsInEdge_accepted running long accepts rfl, fun high => ppsInEdge_rejected running,
    fun t => ppsInMissing_leads running, stampExtendRead_refreshes running, fun p up due => ?_, fun p seq d ratio up => ?_⟩
  · intro b
    refine ⟨fun own => sync_leads running (syncArrives_own up rfl own), fun other domain => ⟨fun raw stamp => ?_,
      fun unstamped => sync_leads running (syncArrives_unstamped up rfl other domain unstamped)⟩⟩
    exact ⟨fun invalid => sync_leads running (syncArrives_unmeasured up rfl other domain stamp invalid),
      fun valid two => sync_leads running (syncArrives_twoStep up rfl other domain stamp valid two),
      fun valid one => sync_leads running (syncArrives_oneStep up rfl other domain stamp valid one)⟩
  · intro b here other domain
    exact ⟨fun none_ => followUp_leads running (followUp_stray up rfl other domain none_),
      fun h found => followUp_leads running (followUp_held up rfl other domain found)⟩
  · exact leads_of_event (f := fun s => { s with ptp.held := s.ptp.held.filter (fun h => decide (s.clk.mono < h.at_ + sec)) })
      rfl running rfl
  · obtain ⟨t, next, port⟩ := peerDelayExchange_port running up due
    have read {α : Type} (g : RingPort → α) : g (t.port p).bare = g (((s.begin dt).port p).asks (s.begin dt).clk.mono).bare :=
      congrArg g port
    refine ⟨t, next, read RingPort.asked, read RingPort.askedAt, fun asked => ?_⟩
    obtain ⟨run, invalid⟩ := RingPort.asks_unanswered (s.begin dt).clk.mono asked
    exact ⟨(read RingPort.failRun).trans run, fun third => (read RingPort.delayValid).trans (invalid third)⟩
  · intro b
    exact ⟨peerDelayMessage_response running up rfl, peerDelayMessage_request running up rfl⟩

end Sys2Proof.Machine

/-! ## Metering (spec chapter 9): snapshots, span records, energy registers, voltage events and calibrations -/

namespace Sys2Proof.Machine

/-! ### Events of the metering island (R361) -/

section

variable {i : Instr} {dt : Ns} {f : State → State} {s u : State}

/-- While the island works, its event answers what its effect leaves, settled. -/
theorem next_of_island (exec_eq : exec i s = island dt f s) (powered : (s.begin dt).powered = true)
    (working : (s.begin dt).mt.working = true) (effect : f (s.begin dt) = u) : exec i s = .next u.settle := by
  subst effect
  simp only [exec_eq, island, powered, working, Bool.and_self, if_true]

theorem leads_of_island_reports (exec_eq : exec i s = island dt f s) (powered : (s.begin dt).powered = true)
    (working : (s.begin dt).mt.working = true) (effect : Reports u (f (s.begin dt))) : Leads i s u :=
  ⟨_, next_of_island exec_eq powered working rfl, effect.trans (reports_settle _)⟩

theorem leads_of_island (exec_eq : exec i s = island dt f s) (powered : (s.begin dt).powered = true)
    (working : (s.begin dt).mt.working = true) (effect : f (s.begin dt) = u) : Leads i s u :=
  leads_of_island_reports exec_eq powered working (effect ▸ Reports.refl _)

end

/-! ### Snapshots (R377, R623) -/

section

variable {r : Req} {s : State} {x : Snapshot} {first n : Nat}

@[simp] theorem MeterRow.bytes_length (x : MeterRow) : x.bytes.length = 64 := by simp [MeterRow.bytes, leI]

/-- What METER_READ answers of a snapshot: the number of rows, and the rows. -/
def Snapshot.read (x : Snapshot) (first n : Nat) : List Byte :=
  u16 n ++ u16 0 ++ (((x.rows.drop first).take n).map MeterRow.bytes).flatten

theorem Snapshot.read_length (held : first + n ≤ x.rows.length) : (x.read first n).length = 4 + 64 * n := by
  have rows : min n (x.rows.length - first) = n := by omega
  simp [Snapshot.read, List.length_flatten, Function.comp_def, rows]
  omega

theorem Snapshot.read_count (few : n ≤ 22) : fld (x.read first n) 0 2 = n := by
  rw [Snapshot.read, List.append_assoc, u16, fld_le_append]
  omega

/-- A session's snapshot stands for 60 s. -/
theorem State.snapshot?_fresh {ep : Endpoint} (stands : s.snapshot? ep = some x) : s.clk.mono < x.takenAt + 60 * sec := by
  simpa using (Option.filter_eq_some_iff.mp stands).2

section

variable (firstAt : fld r.payload 4 1 = first) (countAt : fld r.payload 5 1 = n)

include firstAt countAt

theorem meterReadBody_range (beyond : n = 0 ∨ 22 < n ∨ 48 < first + n) : meterReadBody r s = fail stRange s := by
  subst firstAt countAt
  exact if_pos beyond

variable (some_ : 1 ≤ n) (few : n ≤ 22) (within : first + n ≤ 48)

include some_ few within

theorem meterReadBody_absent (beyond : s.circuitsFitted < first + n) : meterReadBody r s = fail stAbsent s := by
  subst firstAt countAt
  exact (if_neg (by omega)).trans (if_pos beyond)

variable (fitted : first + n ≤ s.circuitsFitted) (stands : s.snapshot? r.src.endpoint = some x)

include fitted stands

theorem meterReadBody_reads (named : x.id = fld r.payload 0 4) : meterReadBody r s = ok (x.read first n) s := by
  subst firstAt countAt
  refine (if_neg (by omega)).trans ((if_neg (by omega)).trans ?_)
  simp only [stands, named, if_true, Snapshot.read]

theorem meterReadBody_stale (stale : x.id ≠ fld r.payload 0 4) : meterReadBody r s = fail stState s := by
  subst firstAt countAt
  refine (if_neg (by omega)).trans ((if_neg (by omega)).trans ?_)
  simp only [stands, stale, if_false]

end

theorem reconQueryBody_shows (within : fld r.payload 0 1 < 48) (fitted : fld r.payload 0 1 < s.circuitsFitted) :
    reconQueryBody r s = ok ((s.metered (fld r.payload 0 1)).recon.bytes (fld r.payload 0 1)) s :=
  (if_neg (Nat.not_le.mpr within)).trans (if_neg (Nat.not_le.mpr fitted))

theorem reconQueryBody_absent (within : fld r.payload 0 1 < 48) (absent : s.circuitsFitted ≤ fld r.payload 0 1) :
    reconQueryBody r s = fail stAbsent s :=
  (if_neg (Nat.not_le.mpr within)).trans (if_pos absent)

end

/-- Settles O39: each command's body by the range it is asked for, and the filter that a snapshot stands behind. -/
theorem snapshotsAreTakenAndRead : Obligations.SnapshotsAreTakenAndRead := by
  refine ⟨fun r s ready => shotas_ok ready rfl, fun r s ready => ⟨fun x some_ few within fitted stands => ⟨?_, ?_⟩, ?_, ?_⟩,
    fun s ep x => State.snapshot?_fresh, fun r s => ⟨fun ready => shotas_ok ready rfl, fun ready => shotas_ok ready rfl, ?_⟩⟩
  · exact fun named rows => ⟨_, shotas_ok ready (meterReadBody_reads rfl rfl some_ few within fitted stands named),
      x.read_length (rows ▸ fitted), x.read_count few⟩
  · exact fun stale => shotas_done ready rfl (meterReadBody_stale rfl rfl some_ few within fitted stands stale)
  · exact fun beyond => shotas_done ready rfl (meterReadBody_range rfl rfl beyond)
  · exact fun some_ few within beyond => shotas_done ready rfl (meterReadBody_absent rfl rfl some_ few within beyond)
  · exact fun ready => ⟨fun within fitted => shotas_ok ready (reconQueryBody_shows within fitted),
      fun within absent => shotas_done ready rfl (reconQueryBody_absent within absent)⟩

/-! ### Span records (R391, R392, R395) -/

section

variable {r : Req} {s : State} {xs : List Span}

section

variable (asked : (entries 16 r.payload).map spanAt = xs) (nonempty : xs ≠ []) (few : xs.length ≤ 91)

include asked nonempty few

theorem spanSetBody_refused {st : Nat} (refused : firstRefusal (xs.map s.spanRefused) = some st) :
    spanSetBody r s = fail st s := by
  have sized : ¬ (xs.isEmpty = true ∨ 91 < xs.length) := by simp [nonempty, few]
  simp only [spanSetBody, asked, if_neg sized, refused]

variable {m : Meter} (passed : firstRefusal (xs.map s.spanRefused) = none) (left : xs.foldl Meter.putSpan s.mt = m)

include passed left

/-- Records of which none is refused are judged by the spans that they leave (R392). -/
theorem spanSetBody_passed : spanSetBody r s =
    if m.spans.all (fun e => reachesCabinet m.spans 257 e.2.point) then ok [] { s with mt := m } else fail stRange s := by
  have sized : ¬ (xs.isEmpty = true ∨ 91 < xs.length) := by simp [nonempty, few]
  simp only [spanSetBody, asked, if_neg sized, passed, left]

end

variable (m : Meter) {x : Span} {q : Pid}

theorem Span.removes_iff : x.removes = true ↔ x.rLoop = 0xFFFFFFFF := beq_iff_eq

theorem Meter.putSpan_stands (stored : x.rLoop ≠ 0xFFFFFFFF) : (m.putSpan x).span x.point = some x := by
  have stays : x.removes ≠ true := mt Span.removes_iff.mp stored
  simp only [Meter.putSpan, Meter.span, if_neg stays, tget_tput_same]

theorem Meter.putSpan_removes (removed : x.rLoop = 0xFFFFFFFF) : (m.putSpan x).span x.point = none := by
  simp only [Meter.putSpan, Meter.span, if_pos (Span.removes_iff.mpr removed), tget_tdel_same]

/-- A record that changes has its point's offset learned anew (R395). -/
theorem Meter.putSpan_offset (changed : m.span x.point ≠ some x) : (m.putSpan x).offset x.point = 0 := by
  simp [Meter.putSpan, Meter.offset, if_neg changed, tget_tdel_same]

theorem Meter.putSpan_span_other (other : pointKey q ≠ pointKey x.point) : (m.putSpan x).span q = m.span q := by
  simp only [Meter.putSpan, Meter.span]
  split
  · exact tget_tdel_other _ other
  · exact tget_tput_other _ _ other

theorem Meter.putSpan_offset_other (other : pointKey q ≠ pointKey x.point) : (m.putSpan x).offset q = m.offset q := by
  have kept : tget (m.putSpan x).offsets (pointKey q) = tget m.offsets (pointKey q) := by
    simp only [Meter.putSpan]
    split
    · rfl
    · exact tget_tdel_other _ other
  simp only [Meter.offset, kept]

end

/-- Settles O40: SPAN_SET's body by what its records are refused for, and a record's own write in the two tables. The spans
are judged as the whole list leaves them (log entry 65). -/
theorem spansAreSetWholeOrNotAtAll : Obligations.SpansAreSetWholeOrNotAtAll := by
  refine ⟨fun r s ready => ⟨fun nonempty few passed => ⟨fun rooted => ?_, fun unrooted => ?_⟩,
      fun st nonempty few refused kept => shotas_done ready kept (spanSetBody_refused rfl nonempty few refused)⟩,
    fun m x => ⟨m.putSpan_stands, m.putSpan_removes, m.putSpan_offset,
      fun q other => ⟨m.putSpan_span_other other, m.putSpan_offset_other other⟩⟩⟩
  · exact shotas_ok ready ((spanSetBody_passed rfl nonempty few passed rfl).trans (if_pos rooted))
  · exact shotas_done ready rfl ((spanSetBody_passed rfl nonempty few passed rfl).trans (if_neg (Bool.eq_false_iff.mp unrooted)))

end Sys2Proof.Machine

/-! ## Metering (spec chapter 9): energy registers and their checkpoints, voltage events and calibrations -/

namespace Sys2Proof.Machine

/-! ### Energy registers (R371, R372)

A power lands in one register of its pair, so the two pairs, active and reactive, are carried alike. -/

section

/-- A register with its residue. -/
abbrev Register : Type := Nat × Nat

/-- A register with energy added, in the unit of its residue. -/
def Register.carry (x : Register) (e : Nat) : Register := (x.1 + (x.2 + e) / pow32, (x.2 + e) % pow32)

theorem Register.carry_sum (x : Register) (e : Nat) : (x.carry e).1 * pow32 + (x.carry e).2 = x.1 * pow32 + x.2 + e := by
  simp only [Register.carry, pow32]
  omega

theorem Register.le_carry (x : Register) (e : Nat) : x.1 ≤ (x.carry e).1 := Nat.le_add_right _ _

theorem Register.carry_residue (x : Register) (e : Nat) : (x.carry e).2 < pow32 := Nat.mod_lt _ (by decide)

/-- A pair of registers with a power's energy over `t`: the first takes it where the power is not negative, else the second. -/
def pairAdd (x : Register × Register) (p : Int) (t : Ns) : Register × Register :=
  if 0 ≤ p then (x.1.carry (energyOf p t), x.2) else (x.1, x.2.carry (energyOf p t))

/-- The active registers: energy taken from the grid, and energy given to it. -/
def Registers.active (r : Registers) : Register × Register := ((r.imp, r.impRes), (r.exp, r.expRes))

/-- The reactive registers: lagging and leading. -/
def Registers.reactive (r : Registers) : Register × Register := ((r.lag, r.lagRes), (r.lead, r.leadRes))

theorem Registers.add_active (r : Registers) (p q : Int) (t : Ns) : (r.add p q t).active = pairAdd r.active p t := by
  unfold Registers.add pairAdd
  by_cases reactive : 0 ≤ q <;> simp only [reactive, if_true, if_false] <;> split <;> rfl

theorem Registers.add_reactive (r : Registers) (p q : Int) (t : Ns) : (r.add p q t).reactive = pairAdd r.reactive q t := by
  unfold Registers.add pairAdd
  by_cases active : 0 ≤ p <;> simp only [active, if_true, if_false] <;> split <;> rfl

variable {x y : Register × Register} {p : Int} {t : Ns}

theorem pairAdd_first (added : y = pairAdd x p t) (positive : 0 ≤ p) :
    y.1.1 * pow32 + y.1.2 = x.1.1 * pow32 + x.1.2 + energyOf p t ∧ y.2.1 = x.2.1 ∧ y.2.2 = x.2.2 := by
  subst added
  rw [pairAdd, if_pos positive]
  exact ⟨x.1.carry_sum _, rfl, rfl⟩

theorem pairAdd_second (added : y = pairAdd x p t) (negative : p < 0) :
    y.2.1 * pow32 + y.2.2 = x.2.1 * pow32 + x.2.2 + energyOf p t ∧ y.1.1 = x.1.1 ∧ y.1.2 = x.1.2 := by
  subst added
  rw [pairAdd, if_neg (Int.not_le.mpr negative)]
  exact ⟨x.2.carry_sum _, rfl, rfl⟩

theorem pairAdd_le (added : y = pairAdd x p t) : x.1.1 ≤ y.1.1 ∧ x.2.1 ≤ y.2.1 := by
  subst added
  unfold pairAdd
  split
  · exact ⟨x.1.le_carry _, Nat.le_refl _⟩
  · exact ⟨Nat.le_refl _, x.2.le_carry _⟩

theorem pairAdd_residues (added : y = pairAdd x p t) (first : x.1.2 < pow32) (second : x.2.2 < pow32) :
    y.1.2 < pow32 ∧ y.2.2 < pow32 := by
  subst added
  unfold pairAdd
  split
  · exact ⟨x.1.carry_residue _, second⟩
  · exact ⟨first, x.2.carry_residue _⟩

end

/-- A cycle that ends no gap fill adds its own energy alone (R389). -/
theorem MeterCircuit.gather_regs {m : MeterCircuit} (v : CycleVals) (t : Ns) (flags : Nat) (whole : m.gapCycles = 0) :
    (m.gather v t flags).regs = m.regs.add v.p v.q1 t ∧ (m.gather v t flags).prev = m.regs := by
  simp only [MeterCircuit.gather, whole, if_true, and_self]

/-! ### Registers within a cycle (R374) -/

section

variable {a aRes b bRes part whole : Nat}

/-- The part of a cycle's energy that has passed is at most the whole of it. -/
theorem split_le (n : Nat) (inside : part ≤ whole) : n * part / max 1 whole ≤ n :=
  Nat.div_le_of_le_mul (by rw [Nat.mul_comm]; exact Nat.mul_le_mul_right n (by omega))

theorem le_between : a ≤ between a aRes b bRes part whole :=
  (Nat.le_div_iff_mul_le (by decide)).mpr ((Nat.le_add_right _ aRes).trans (Nat.le_add_right _ _))

theorem between_le (residue : bRes < pow32) (rises : a * pow32 + aRes ≤ b * pow32 + bRes) (inside : part ≤ whole) :
    between a aRes b bRes part whole ≤ b := by
  have passed := split_le (b * pow32 + bRes - (a * pow32 + aRes)) inside
  simp only [between, pow32] at *
  omega

theorem between_start (residue : aRes < pow32) : between a aRes b bRes 0 whole = a := by
  simp only [between, Nat.mul_zero, Nat.zero_div, pow32] at *
  omega

theorem between_end (residue : bRes < pow32) (rises : a * pow32 + aRes ≤ b * pow32 + bRes) (long : 0 < whole) :
    between a aRes b bRes whole whole = b := by
  have all : max 1 whole = whole := by omega
  simp only [between, all, Nat.mul_div_cancel _ long, pow32] at *
  omega

end

/-! ### Checkpoints (R361, R376) -/

section

variable (s : State) (final : Bool) (bad : List Nat)

/-- The slot that a checkpoint writes. -/
def State.checkpointSlot : MeterSlot :=
  { regs := s.mt.circuits.map (fun e => (e.1, e.2.regs)), stamp := s.now, seq := max s.mt.slotA.seq s.mt.slotB.seq + 1
    final := final }

/-- A checkpoint written now is the newest. -/
theorem meterCheckpoint_newest : (s.meterCheckpoint final).newestSlot [] = s.checkpointSlot final := by
  unfold State.meterCheckpoint
  dsimp only
  split
  · have newer : ¬ max s.mt.slotA.seq s.mt.slotB.seq + 1 ≤ s.mt.slotB.seq := by omega
    exact if_neg newer
  · have newer : s.mt.slotA.seq ≤ max s.mt.slotA.seq s.mt.slotB.seq + 1 := by omega
    exact if_pos newer

theorem meterRestore_regs :
    (s.meterRestore bad).mt.circuits.map (fun e => (e.1, e.2.regs)) = (s.newestSlot bad).regs := by
  simp [State.meterRestore, Function.comp_def]

theorem meterRestore_restart {s : State} {bad : List Nat} (whole : (s.newestSlot bad).final = true) :
    (s.meterRestore bad).mt.restart = none := by
  simp only [State.meterRestore, whole, Bool.true_or, if_true]

end

/-- Settles O41: a pair of registers carries a power as one sum, a split cycle stays between its ends, and the slot written
last has the highest sequence. -/
theorem energyLandsOnceAndWhole : Obligations.EnergyLandsOnceAndWhole := by
  refine ⟨fun r p q t => ?_, fun m v t flags => m.gather_regs v t flags,
    fun a aRes b bRes part whole aSmall bSmall rises inside => ⟨le_between, between_le bSmall rises inside,
      between_start aSmall, between_end bSmall rises⟩,
    fun s final => ⟨?_, meterRestore_restart (by rw [meterCheckpoint_newest]; rfl)⟩, fun dt s powered working => ?_⟩
  · have active := r.add_active p q t
    have reactive := r.add_reactive p q t
    have takes := pairAdd_first active
    have gives := pairAdd_second active
    have lags := pairAdd_first reactive
    have leads := pairAdd_second reactive
    obtain ⟨impUp, expUp⟩ := pairAdd_le active
    obtain ⟨lagUp, leadUp⟩ := pairAdd_le reactive
    have activeSmall := pairAdd_residues active
    have reactiveSmall := pairAdd_residues reactive
    simp only [Registers.active, Registers.reactive] at takes gives lags leads impUp expUp lagUp leadUp activeSmall reactiveSmall
    refine ⟨takes, gives, lags, leads, impUp, expUp, lagUp, leadUp, fun imp exp lag lead => ?_⟩
    obtain ⟨imp', exp'⟩ := activeSmall imp exp
    exact ⟨imp', exp', reactiveSmall lag lead⟩
  · rw [meterRestore_regs, meterCheckpoint_newest, State.checkpointSlot]
  · have cycle (input : Nat) (x : CycleData) : exec (.meterCycleEnd dt input x) s = island dt (fun s =>
        if input < 3 then (s.meterCycle input x).minuteRecords input else s) s := rfl
    have checkpoint : exec (.meterCheckpoint dt) s = execMeterCheckpoint dt s := rfl
    have ledger : exec (.ledgerBoundary dt) s = execLedgerBoundary dt s := rfl
    refine ⟨fun input x inside => leads_of_island (cycle input x) powered working ?_,
      fun due => leads_of_island checkpoint powered working (if_pos due),
      fun early => leads_of_island checkpoint powered working (if_neg (Nat.not_le.mpr early)),
      fun due => leads_of_island ledger powered working (if_pos due),
      fun done => leads_of_island ledger powered working (if_neg (Nat.not_lt.mpr done))⟩
    simp only [inside, if_true]

/-! ### Voltage events (R382–R385) -/

section

theorem lastN_length_le {α : Type} (n : Nat) (l : List α) : (lastN n l).length ≤ n := by
  rw [lastN, List.length_drop]
  omega

theorem mem_lastN_append {α : Type} {n : Nat} (some_ : 0 < n) (l : List α) (a : α) : a ∈ lastN n (l ++ [a]) := by
  have kept : (l ++ [a]).length - n ≤ l.length := by
    rw [List.length_append, List.length_singleton]
    omega
  rw [lastN, List.drop_append_of_le_length kept]
  exact List.mem_append_right _ (List.mem_singleton_self a)

variable (s : State) (kind : Nat)

@[simp] theorem bump_mt (id idx n : Nat) : (s.bump id idx n).mt = s.mt := by
  unfold State.bump
  split <;> rfl

@[simp] theorem pqRaise_bare (e : PqEvent) : (s.pqRaise e).bare = s.bare := by
  unfold State.pqRaise
  split
  · exact raise_bare _ _ _ _
  · rfl

/-- An ended event is recorded and told, which leaves the island as it was. -/
theorem pqTold_mt (e x : PqEvent) : ((if s.running then s.hist e.start s.ownPid 0x08 x.bytes else s).pqRaise x).mt = s.mt := by
  have told : Reports s ((if s.running then s.hist e.start s.ownPid 0x08 x.bytes else s).pqRaise x) := by
    rw [Reports, pqRaise_bare]
    split
    · exact (hist_bare _ _ _ _ _).symm
    · rfl
  obtain ⟨-, -, -, -, -, -, -, mt, -⟩ := told.same
  exact mt

/-- An event of a kind as it starts. -/
def State.pqStarted : PqEvent :=
  { kind := kind, inputs := sumOf ((s.pqCrossing kind).map (fun e => 2 ^ e.1)), flags := 4 * bit s.anyNoSync
    extreme := s.pqExtreme kind, start := s.now, since := s.clk.mono, duration := 0, seq := s.mt.pqSeq, raised := false }

/-- An event of a kind as it ends. -/
def State.pqFinished (e : PqEvent) : PqEvent :=
  { e with inputs := e.inputs ||| sumOf ((s.pqCrossing kind).map (fun e => 2 ^ e.1)), flags := e.flags ||| 4 * bit s.anyNoSync
           extreme := if kind = 2 then max e.extreme (s.pqExtreme kind) else min e.extreme (s.pqExtreme kind)
           duration := min (pow32 - 1) ((s.clk.mono - e.since) / ms) }

variable {s kind}

section

variable (closed : s.mt.opened.find? (fun e => e.kind == kind) = none)

include closed

theorem pqKind_stays (calm : s.pqStarts kind = false) : s.pqKind kind = s := by
  simp only [State.pqKind, closed, calm, Bool.not_false, if_true]

theorem pqKind_opens (starts : s.pqStarts kind = true) :
    s.pqStarted kind ∈ (s.pqKind kind).mt.opened ∧ (s.pqKind kind).mt.pqSeq = (s.mt.pqSeq + 1) % pow32 := by
  simp only [State.pqKind, closed, starts, Bool.not_true, Bool.false_eq_true, if_false, bump_mt, and_true]
  exact List.mem_append_right _ (List.mem_singleton_self _)

end

theorem pqKind_ends {e : PqEvent} (found : s.mt.opened.find? (fun e => e.kind == kind) = some e) (ends : s.pqEnds kind = true) :
    (s.pqKind kind).mt = { s.mt with opened := s.mt.opened.filter (fun o => o.kind != kind)
                                     ended := lastN 64 (s.mt.ended ++ [s.pqFinished kind e]) } := by
  simp only [State.pqKind, found, ends, if_true]
  exact pqTold_mt _ e _

/-- PQ_EVENT_OPEN_TIMEOUT marks the event it raises, and tells of it (R385). -/
theorem pqEventOpenTimeout_leads {dt : Ns} {e : PqEvent} (powered : (s.begin dt).powered = true)
    (working : (s.begin dt).mt.working = true)
    (open_ : (s.begin dt).mt.opened.find? (fun e => e.kind == kind && !e.raised && decide (e.since + 60 * sec ≤ (s.begin dt).clk.mono)) =
      some e) :
    Leads (.pqEventOpenTimeout dt kind) s
      { s.begin dt with mt.opened := (s.begin dt).mt.opened.map (fun o => if o.kind = kind then { o with raised := true } else o) } := by
  have exec_eq : exec (.pqEventOpenTimeout dt kind) s = execPqEventOpenTimeout dt kind s := rfl
  unfold execPqEventOpenTimeout at exec_eq
  refine leads_of_island_reports exec_eq powered working ?_
  simp only [open_]
  exact (pqRaise_bare _ _).symm

end

/-! ### The mean frequency (R369) -/

section

/-- What an input tells at the end of an interval. -/
def MeterInput.tellFrequency (b : Ns) (x : MeterInput) : MeterInput :=
  if b ≤ x.freqDone then x
  else { x with freqDone := b, freqSum := 0, freqCount := 0
                freq := if x.freqCount = 0 then x.freq else min 65535 (nearDiv x.freqSum (1000 * x.freqCount)).toNat }

variable {b : Ns} {x : MeterInput}

theorem MeterInput.tellFrequency_told (told : b ≤ x.freqDone) : x.tellFrequency b = x := if_pos told

theorem MeterInput.tellFrequency_due (due : x.freqDone < b) (counted : 0 < x.freqCount) : x.tellFrequency b =
    { x with freqDone := b, freqSum := 0, freqCount := 0, freq := min 65535 (nearDiv x.freqSum (1000 * x.freqCount)).toNat } := by
  rw [MeterInput.tellFrequency, if_neg (Nat.not_le.mpr due), if_neg (Nat.ne_of_gt counted)]

theorem frequencyInterval_tells {dt : Ns} {s : State} {input : Nat} (powered : (s.begin dt).powered = true)
    (working : (s.begin dt).mt.working = true) (fitted : (s.begin dt).mt.inputs[input]? = some x) :
    ∃ t, exec (.frequencyInterval dt input) s = .next t ∧
      t.mt.inputs[input]? = some (x.tellFrequency ((s.begin dt).tb / (10 * sec) * (10 * sec))) := by
  have exec_eq : exec (.frequencyInterval dt input) s = execFrequencyInterval dt input s := rfl
  unfold execFrequencyInterval at exec_eq
  refine ⟨_, next_of_island exec_eq powered working rfl, ?_⟩
  obtain ⟨-, -, -, -, -, -, -, mt, -⟩ := (reports_settle _).same
  rw [mt, lmod_getElem?, fitted]
  rfl

end

/-! ### Calibrations (R386, R387, R389) -/

section

variable {dt : Ns} {k : Nat} {s : State}

theorem calReady_idle (ready : s.calReady k = true) : (s.converter k).step.isSome = false := by
  simp only [State.calReady, Bool.and_eq_true, Option.isNone_iff_eq_none] at ready
  obtain ⟨⟨-, idle⟩, -⟩ := ready
  rw [idle, Option.isSome_none]

variable (powered : (s.begin dt).powered = true) (working : (s.begin dt).mt.working = true)

include powered working

theorem calibrationStart_starts (ready : (s.begin dt).calReady k = true)
    (due : ((s.begin dt).converter k).lastCal + (s.begin dt).num 0x6008 * sec ≤ (s.begin dt).clk.mono)
    (free : (s.begin dt).calHeld k = false) : Leads (.calibrationStart dt k) s ((s.begin dt).startCal k false) := by
  have exec_eq : exec (.calibrationStart dt k) s = execCalibrationStart dt k s := rfl
  unfold execCalibrationStart at exec_eq
  refine leads_of_island exec_eq powered working ?_
  simp only [ready, due, free, decide_true, Bool.not_false, Bool.and_self, if_true]

theorem calibrationStart_held (held : (s.begin dt).calHeld k = true) : Leads (.calibrationStart dt k) s (s.begin dt) := by
  have exec_eq : exec (.calibrationStart dt k) s = execCalibrationStart dt k s := rfl
  unfold execCalibrationStart at exec_eq
  refine leads_of_island exec_eq powered working ?_
  simp only [held, Bool.not_true, Bool.and_false, Bool.false_eq_true, if_false]

/-- What CALIBRATION_FORCED does to a converter (R387). -/
theorem leads_of_calibrationForced {u : State}
    (effect : (if (((s.begin dt).converter k).lastCal + 82800 * sec ≤ (s.begin dt).clk.mono) && !((s.begin dt).converter k).forced then
        if ((s.begin dt).converter k).step.isSome then
          ((s.begin dt).setConverter k { (s.begin dt).converter k with forced := true }).bump 0x60F2
        else if (s.begin dt).calReady k then ((s.begin dt).startCal k true).bump 0x60F2
        else s.begin dt
      else s.begin dt) = u) : Leads (.calibrationForced dt k) s u := by
  have exec_eq : exec (.calibrationForced dt k) s = execCalibrationForced dt k s := rfl
  unfold execCalibrationForced at exec_eq
  exact leads_of_island exec_eq powered working effect

theorem calibrationForced_early (early : (s.begin dt).clk.mono < ((s.begin dt).converter k).lastCal + 82800 * sec) :
    Leads (.calibrationForced dt k) s (s.begin dt) := by
  refine leads_of_calibrationForced powered working ?_
  simp only [Nat.not_le.mpr early, decide_false, Bool.false_and, Bool.false_eq_true, if_false]

variable (due : ((s.begin dt).converter k).lastCal + 82800 * sec ≤ (s.begin dt).clk.mono)
  (unforced : ((s.begin dt).converter k).forced = false)

include due unforced

theorem calibrationForced_goesOn (runs : ((s.begin dt).converter k).step ≠ none) : Leads (.calibrationForced dt k) s
    (((s.begin dt).setConverter k { (s.begin dt).converter k with forced := true }).bump 0x60F2) := by
  refine leads_of_calibrationForced powered working ?_
  simp only [due, unforced, Option.isSome_iff_ne_none.mpr runs, decide_true, Bool.not_false, Bool.and_self, if_true]

theorem calibrationForced_starts (ready : (s.begin dt).calReady k = true) :
    Leads (.calibrationForced dt k) s (((s.begin dt).startCal k true).bump 0x60F2) := by
  refine leads_of_calibrationForced powered working ?_
  simp only [due, unforced, calReady_idle ready, ready, decide_true, Bool.not_false, Bool.and_self, Bool.false_eq_true, if_true,
    if_false]

end

/-! ### Windows of reconciliation (R393) -/

section

variable {s : State} {c : Nat} {w : WindowEnd × WindowEnd} (watched : s.reconciles c = true) (open_ : s.openWindow c = some w)

include watched open_

theorem judgeReady_late (waited : w.2.mesh + s.num 0x6011 * sec ≤ s.meshTime) : s.judgeReady c true = s.judgeWindow c w.1 w.2 := by
  simp [State.judgeReady, watched, open_, waited]

theorem judgeReady_full
    (full : (s.circuitNodes c).all (fun n => n.hasWindow w.2.mesh (w.2.mesh - w.1.mesh)) = true) (late : Bool) :
    s.judgeReady c late = s.judgeWindow c w.1 w.2 := by
  simp only [State.judgeReady, watched, open_, full, Bool.not_true, Bool.false_eq_true, if_false, Bool.true_or, if_true]

end

/-- Settles O42: each event of the island by its guard; an event is numbered as it starts (log entry 64). -/
theorem voltageEventsAndCalibrations : Obligations.VoltageEventsAndCalibrations := by
  refine ⟨fun dt s powered working => ?_, fun s kind _ _ => ⟨pqKind_stays, fun closed starts => ?_, fun e found ends => ?_⟩,
    fun dt c s running => leads_of_event (f := fun s => s.judgeReady c true) rfl running rfl,
    fun s c w watched open_ => ⟨judgeReady_late watched open_, fun full => judgeReady_full watched open_ full false⟩,
    fun dt working s => always_leads dt (fun s => { s with mt.working := working }) s⟩
  · refine ⟨fun windows => leads_of_island (f := fun s => s.halfCycle windows) rfl powered working rfl,
      fun kind e => pqEventOpenTimeout_leads powered working, fun input x fitted => ?_,
      fun k ready due => ⟨calibrationStart_starts powered working ready due, calibrationStart_held powered working⟩,
      fun k due unforced => ⟨calibrationForced_goesOn powered working due unforced,
        calibrationForced_starts powered working due unforced⟩,
      fun k => calibrationForced_early powered working⟩
    obtain ⟨t, next, told⟩ := frequencyInterval_tells powered working fitted
    exact ⟨t, next, _, told, MeterInput.tellFrequency_told, MeterInput.tellFrequency_due⟩
  · obtain ⟨begun, seq⟩ := pqKind_opens closed starts
    exact ⟨_, begun, rfl, rfl, rfl, rfl, rfl, seq⟩
  · have kind_eq : e.kind = kind := beq_iff_eq.mp (List.find?_some found :)
    rw [pqKind_ends found ends]
    refine ⟨fun o mem => by simpa using (List.mem_filter.mp mem).2, lastN_length_le 64 _, s.pqFinished kind e,
      mem_lastN_append (by decide) _ _, kind_eq, rfl, rfl, rfl⟩

end Sys2Proof.Machine

/-! ## The output chain (spec chapter 10): forces, demand, and the status commands -/

namespace Sys2Proof.Machine

/-! ### CIRCUIT_FORCE's body (R415) -/

/-- The payload of a CIRCUIT_FORCE that none of the command's checks refuses. -/
structure ForcePasses (p : List Byte) (s : State) : Prop where
  startGiven : fld p 8 8 ≠ 0
  ordered : fld p 8 8 < fld p 16 8
  fitted : (fld p 0 1 < s.circuitsFitted ∧ fld p 0 1 < 48) ∨ fld p 0 1 = 0xFF
  mode : fld p 1 1 ≤ 2
  unfinished : s.tb < fld p 16 8
  inTime : fld p 4 4 = 0xFFFFFFFF ∨ s.tb ≤ fld p 8 8 + fld p 4 4 * ms

/-- The force a CIRCUIT_FORCE asks for, with its effective start. -/
def forceAsked (p : List Byte) (s : State) : Force :=
  { mode := fld p 1 1, start := max (fld p 8 8) s.tb, finish := fld p 16 8, begun := false }

/-- A force is kept for CIRCUIT_FORCE_START. -/
def State.keepForce (s : State) (c : Nat) (f : Force) : State := { s with oc.forces := tput s.oc.forces c f }

section

variable {r : Req} {s : State}

theorem circuitForceBody_passes (passes : ForcePasses r.payload s) :
    circuitForceBody r s = ok (u64 (max (fld r.payload 8 8) s.tb))
      ((s.forceTargets (fld r.payload 0 1)).foldl (fun u c =>
        if max (fld r.payload 8 8) s.tb ≤ s.tb then u.startForce c (forceAsked r.payload s)
        else u.keepForce c (forceAsked r.payload s)) s).followAll := by
  obtain ⟨startGiven, ordered, fitted, mode, unfinished, inTime⟩ := passes
  have notLate : ¬ (fld r.payload 16 8 ≤ s.tb ∨
      (fld r.payload 4 4 ≠ 0xFFFFFFFF ∧ fld r.payload 8 8 + fld r.payload 4 4 * ms < s.tb)) := by
    rintro (ended | ⟨limited, late⟩)
    · exact Nat.not_le.mpr unfinished ended
    · exact inTime.elim limited (Nat.not_le.mpr late)
  unfold circuitForceBody
  rw [if_neg (by omega), if_neg (by omega), if_neg notLate]
  rfl

/-- A force whose start is still to come waits for it. -/
theorem circuitForceBody_waits (passes : ForcePasses r.payload s) (early : s.tb < fld r.payload 8 8) :
    circuitForceBody r s = ok (u64 (fld r.payload 8 8))
      ((s.forceTargets (fld r.payload 0 1)).foldl (fun u c => u.keepForce c (forceAsked r.payload s)) s).followAll := by
  have waits : ¬ fld r.payload 8 8 ≤ s.tb := Nat.not_le.mpr early
  simp only [circuitForceBody_passes passes, Nat.max_eq_left early.le, waits, if_false]

/-- A force whose start has come begins at once. -/
theorem circuitForceBody_begins (passes : ForcePasses r.payload s) (come : fld r.payload 8 8 ≤ s.tb) :
    circuitForceBody r s = ok (u64 s.tb)
      ((s.forceTargets (fld r.payload 0 1)).foldl (fun u c => u.startForce c (forceAsked r.payload s)) s).followAll := by
  simp only [circuitForceBody_passes passes, Nat.max_eq_right come, le_refl, if_true]

theorem mem_forceTargets_all {d : Nat} : d ∈ s.forceTargets 0xFF ↔ d < s.circuitsFitted ∧ s.circuitUsed d = true := by
  rw [State.forceTargets, if_pos rfl, List.mem_filter, List.mem_range]

end

/-! ### The start and the end of a force (R415) -/

section

variable {dt : Ns} {s : State} {c : Nat} {f : Force} (running : (s.begin dt).running = true)

include running

theorem circuitForceStart_begins (kept : tget (s.begin dt).oc.forces c = some f) (come : f.start ≤ (s.begin dt).tb) :
    Leads (.circuitForceStart dt c) s ((s.begin dt).startForce c f).followAll := by
  have exec_eq : exec (.circuitForceStart dt c) s = execCircuitForceStart dt c s := rfl
  unfold execCircuitForceStart at exec_eq
  refine leads_of_event exec_eq running ?_
  simp only [kept, come, if_true]

theorem circuitForceEnd_ends (stands : tget (s.begin dt).oc.current c = some f) (come : f.finish ≤ (s.begin dt).tb) :
    Leads (.circuitForceEnd dt c) s { s.begin dt with oc.current := tdel (s.begin dt).oc.current c }.followAll := by
  have exec_eq : exec (.circuitForceEnd dt c) s = execCircuitForceEnd dt c s := rfl
  unfold execCircuitForceEnd at exec_eq
  refine leads_of_event exec_eq running ?_
  simp only [stands, come, if_true]

end

/-! ### Demand (R413) -/

section

variable {s : State} {c : Nat} {f : Force}

theorem State.forceMode_of_some (stands : tget s.oc.current c = some f) : s.forceMode c = f.mode := by
  rw [State.forceMode, stands, Option.map_some, Option.getD_some]

theorem State.forceMode_of_none (free : tget s.oc.current c = none) : s.forceMode c = 0 := by
  rw [State.forceMode, free, Option.map_none, Option.getD_none]

/-- A force that begins stands, and AUTO leaves none standing. -/
theorem State.startForce_current (s : State) (c : Nat) (f : Force) :
    tget (s.startForce c f).oc.current c = if f.mode = 0 then none else some { f with begun := true } := by
  by_cases auto : f.mode = 0
  · simp only [State.startForce, auto, if_true, tget_tdel_same]
  · simp only [State.startForce, auto, if_false, tget_tput_same]

variable (switchable : s.switchable c = true)

include switchable

theorem State.demanded_of_on (stands : tget s.oc.current c = some f) (on : f.mode = 1) : s.demanded c = true := by
  simp only [State.demanded, switchable, State.forceMode_of_some stands, on, Bool.true_and]

theorem State.demanded_of_off (stands : tget s.oc.current c = some f) (off : f.mode = 2) : s.demanded c = false := by
  simp only [State.demanded, switchable, State.forceMode_of_some stands, off, Bool.true_and]

theorem State.demanded_of_plan (free : tget s.oc.current c = none) : s.demanded c = (s.circuitOf c).plan := by
  simp only [State.demanded, switchable, State.forceMode_of_none free, Bool.true_and]

end

/-! ### CIRCUIT_STATUS and LATCH_STATUS (Table 10.5, R416) -/

section

variable {r : Req} {s : State}

theorem State.circuitsFitted_lt (s : State) : s.circuitsFitted < 65536 := by
  unfold State.circuitsFitted
  split <;> decide

@[simp] theorem State.circuitEntry_length (s : State) (c : Nat) : (s.circuitEntry c).length = 16 := by
  simp [State.circuitEntry]

@[simp] theorem State.latchEntry_length (s : State) (l : Nat) : (s.latchEntry l).length = 24 := by
  simp [State.latchEntry]

/-- The answer of a status command: a count of `n` and that many entries. -/
def statusTable (n : Nat) (entry : Nat → List Byte) : List Byte := u16 n ++ u16 0 ++ ((List.range n).map entry).flatten

theorem statusTable_count (n : Nat) (entry : Nat → List Byte) : fld (statusTable n entry) 0 2 = n % 65536 := by
  rw [statusTable, List.append_assoc]
  exact fld_le_append 2 n _

theorem statusTable_length (n : Nat) {entry : Nat → List Byte} {k : Nat} (part : ∀ i, (entry i).length = k) :
    (statusTable n entry).length = 4 + k * n := by
  simp [statusTable, List.length_flatten, Function.comp_def, part]
  ring

theorem circuitStatus_answers (ready : Ready circuitStatusCommand r s) :
    let a := s.taken circuitStatusCommand r
    Answers (.circuitStatus r) r s (statusTable a.circuitsFitted a.circuitEntry) a := shotas_ok ready rfl

theorem latchStatus_answers (ready : Ready latchStatusCommand r s) :
    let a := s.taken latchStatusCommand r
    Answers (.latchStatus r) r s (statusTable (a.num 0x6801) a.latchEntry) a := shotas_ok ready rfl

end

/-- Settles O24: the body of CIRCUIT_FORCE past its checks, the two events under their guards, the demand by the mode of the force
that stands, and the two status tables, whose entries have one length and follow their count. -/
theorem forcesAndChainStatus : Obligations.ForcesAndChainStatus := by
  refine ⟨fun r s ready => ?_, fun s c => ⟨fun one => if_neg one, fun all d => all ▸ mem_forceTargets_all⟩,
    fun dt c s f running => ⟨circuitForceStart_begins running, circuitForceEnd_ends running⟩,
    fun s c f switchable => ⟨s.startForce_current c f, State.demanded_of_on switchable, State.demanded_of_off switchable,
      State.demanded_of_plan switchable⟩, fun r s => ⟨fun ready => ?_, fun ready => ?_⟩⟩
  · intro a c start eff f startGiven ordered fitted mode unfinished inTime
    have passes : ForcePasses r.payload a := ⟨startGiven, ordered, fitted, mode, unfinished, inTime⟩
    exact ⟨fun early => shotas_ok ready (circuitForceBody_waits passes early),
      fun come => shotas_ok ready (circuitForceBody_begins passes come)⟩
  · exact ⟨_, (statusTable_count _ _).trans (Nat.mod_eq_of_lt (State.circuitsFitted_lt _)),
      statusTable_length _ (State.circuitEntry_length _), circuitStatus_answers ready⟩
  · exact ⟨_, statusTable_count _ _, statusTable_length _ (State.latchEntry_length _), latchStatus_answers ready⟩

end Sys2Proof.Machine
/-! ## The ring and its links, and the commands of ring and time (spec chapter 11) -/

namespace Sys2Proof.Machine

/-! ### A frame heard (R427, Table 11.9) -/

section

variable (s : State) (p : Port)

/-- An event counts towards the performance counters alone (R494). -/
theorem State.perfEdge_perf (event what n : Nat) : ∃ x, s.perfEdge event what n = { s with perf := x } := by
  unfold State.perfEdge
  generalize s.selected = l
  induction l generalizing s with
  | nil => exact ⟨s.perf, rfl⟩
  | cons e l ih =>
    rw [List.foldl_cons]
    split
    · obtain ⟨x, counted⟩ := ih (s.perfAdd e.1 n)
      exact ⟨x, counted⟩
    · exact ih s

@[simp] theorem onPort_delivered (g : RingPort → RingPort) : (s.onPort p g).ring.delivered = s.ring.delivered := by
  cases p <;> rfl

theorem hear_ring (m : Mac) : ∃ ring, s.hear p m = { s with ring := ring } ∧ ring.delivered = s.ring.delivered := by
  unfold State.hear
  split
  · exact ⟨s.ring, rfl, rfl⟩
  · cases p <;> exact ⟨_, rfl, rfl⟩

/-- A frame that is heard is counted at its port and for the counters and meters of performance. -/
theorem portHears_ring (n : Nat) : ∃ ring perf, s.portHears p n = { s with ring := ring, perf := perf } ∧
    ring.delivered = s.ring.delivered := by
  unfold State.portHears
  obtain ⟨x, metered⟩ := State.meterBytes_perf (s.onPort p fun r => { r with rx := (r.rx + 1) % pow32 }) (portIx p) 0 n
  rw [metered]
  obtain ⟨y, counted⟩ := State.perfEdge_perf
    { s.onPort p (fun r => { r with rx := (r.rx + 1) % pow32 }) with perf := x } 0x0050 (portIx p) 1
  rw [counted]
  cases p <;> exact ⟨_, _, rfl, rfl⟩

theorem portHears_hear_ring (n : Nat) (m : Mac) : ∃ ring perf,
    (s.portHears p n).hear p m = { s with ring := ring, perf := perf } ∧ ring.delivered = s.ring.delivered := by
  obtain ⟨ring, perf, counted, same⟩ := portHears_ring s p n
  rw [counted]
  obtain ⟨ring', heard, same'⟩ := hear_ring { s with ring := ring, perf := perf } p m
  exact ⟨ring', perf, heard, same'.trans same⟩

end

/-! ### What leaves the table of delivered frames alone (R427, R428) -/

section

variable (s : State) (p : Port)

@[simp] theorem bump_delivered (id idx n : Nat) : (s.bump id idx n).ring.delivered = s.ring.delivered := by
  unfold State.bump
  split <;> rfl

@[simp] theorem setPort_delivered (x : RingPort) : (s.setPort p x).ring.delivered = s.ring.delivered := by
  cases p <;> rfl

@[simp] theorem frameOut_delivered (f : RingFrame) : (s.frameOut p f).ring.delivered = s.ring.delivered :=
  Reports.at (portSends_bare { s with out := s.out ++ [Out.ringFrame p (s.frameExpress f) f] } p (frameSize f)).symm
    (fun s : State => s.ring.delivered)

@[simp] theorem forward_delivered (f : RingFrame) : (s.forward p f).ring.delivered = s.ring.delivered := by
  unfold State.forward
  dsimp only
  split
  · simp
  · split <;> simp

@[simp] theorem addDup_delivered (l : List DupEntry) (f : RingFrame) : (s.addDup l f).2.ring.delivered = s.ring.delivered := by
  unfold State.addDup
  dsimp only
  split <;> simp

@[simp] theorem forwardOnce_delivered (f : RingFrame) : (s.forwardOnce p f).ring.delivered = s.ring.delivered := by
  unfold State.forwardOnce
  dsimp only
  split <;> simp

/-- The ring's state follows the module's own frames, and a change is told (R430). -/
theorem judgeRing_reports : Reports (if s.ringReturns = s.ring.closed then s else { s with ring.closed := !s.ring.closed })
    s.judgeRing := by
  unfold State.judgeRing
  split
  · exact .refl s
  · exact (raise_bare _ _ _ _).symm

@[simp] theorem ownReturns_delivered : (s.ownReturns p).ring.delivered = s.ring.delivered := by
  refine ((judgeRing_reports _).at (fun s : State => s.ring.delivered)).trans ?_
  split <;> exact onPort_delivered s p _

end

/-! ### A tagged frame of the ring (R425, R427, R428) -/

section

variable {s b : State} {p : Port} {f : RingFrame}

/-- The frame repeats one that was delivered within ring.forget_ms. -/
def State.repeats (s : State) (f : RingFrame) : Bool := hasDup (freshDups s.ring.delivered s.clk.mono s.forget) f

/-- What becomes of another module's frame: its copies are noted where it is for this module, and it goes on by the other port unless
it is for this module alone. -/
def State.takeFrame (s : State) (p : Port) (f : RingFrame) : State :=
  let s := if !forModule f then s else if s.repeats f then s.secondCopy p f else s.firstCopy p f
  if f.dst = .module then s else s.forwardOnce (Port.other p) f

theorem hasDup_addDup (s : State) (l : List DupEntry) (f : RingFrame) : hasDup (s.addDup l f).1 f = true := by
  unfold State.addDup
  dsimp only
  split <;> simp [hasDup]

/-- A frame that is taken for the first time is noted as delivered. -/
theorem takeFrame_notes (mine : forModule f = true) (new : s.repeats f = false) :
    hasDup (s.takeFrame p f).ring.delivered f = true := by
  have noted : (s.firstCopy p f).ring.delivered = (s.addDup (freshDups s.ring.delivered s.clk.mono s.forget) f).1 := by
    rw [State.firstCopy, onPort_delivered]
  have taken : (s.takeFrame p f).ring.delivered = (s.firstCopy p f).ring.delivered := by
    simp only [State.takeFrame, mine, new, Bool.not_true, Bool.false_eq_true, if_false]
    split
    · rfl
    · exact forwardOnce_delivered _ _ _
  rw [taken, noted]
  exact hasDup_addDup s _ f

variable (heard : (s.portHears p (frameSize f)).hear p f.src = b)

include heard

theorem heard_keeps : b.id = s.id ∧ b.ring.delivered = s.ring.delivered ∧ b.repeats f = s.repeats f := by
  obtain ⟨ring, perf, view, same⟩ := portHears_hear_ring s p (frameSize f) f.src
  rw [← heard, view]
  refine ⟨rfl, same, ?_⟩
  rw [State.repeats, same]
  rfl

variable (up : s.linkUp p = true)

include up

/-- The module's own frame is taken off the ring. -/
theorem ringFrame_own (own : f.src = s.id.mac) : s.ringFrame p f = (b.ownReturns p, false) := by
  obtain ⟨id, -, -⟩ := heard_keeps heard
  simp only [State.ringFrame, up, heard, Bool.not_true, Bool.false_eq_true, if_false]
  exact if_pos (id ▸ own)

theorem ringFrame_other (other : f.src ≠ s.id.mac) :
    s.ringFrame p f = (b.takeFrame p f, forModule f && !s.repeats f) := by
  obtain ⟨id, -, repeated⟩ := heard_keeps heard
  rw [← repeated]
  simp only [State.ringFrame, up, heard, other, id, Bool.not_true, Bool.false_eq_true, if_false]
  rfl

end

/-- A frame is delivered where it is for the module, of another one, and new. -/
theorem ringFrame_delivers {s : State} {p : Port} {f : RingFrame} (up : s.linkUp p = true) :
    (s.ringFrame p f).2 = (f.src != s.id.mac && (forModule f && !s.repeats f)) := by
  by_cases own : f.src = s.id.mac
  · simp [ringFrame_own rfl up own, own]
  · simp [ringFrame_other rfl up own, own]

/-! ### Frames received, waiting and launched (R428, R437) -/

section

variable {dt : Ns} {s : State} {p : Port} {f : RingFrame} (running : (s.begin dt).running = true)

include running

theorem ringFrameReceive_hands (delivered : ((s.begin dt).ringFrame p f).2 = true) (shotas : f.etherType = 0x88B5#16)
    (message : f.supervision = false) : Leads (.ringFrameReceive dt p f) s
      (((s.begin dt).ringFrame p f).1.receive (.ring f.src f.vlan f.dst p) f.lsdu) := by
  have exec_eq : exec (.ringFrameReceive dt p f) s = execRingFrameReceive dt p f s := rfl
  unfold execRingFrameReceive at exec_eq
  exact leads_of_event exec_eq running (if_pos ⟨delivered, shotas, by rw [message]; rfl⟩)

theorem ringFrameReceive_passes
    (not_ : ((s.begin dt).ringFrame p f).2 = false ∨ f.etherType ≠ 0x88B5#16 ∨ f.supervision = true) :
    Leads (.ringFrameReceive dt p f) s ((s.begin dt).ringFrame p f).1 := by
  have exec_eq : exec (.ringFrameReceive dt p f) s = execRingFrameReceive dt p f s := rfl
  unfold execRingFrameReceive at exec_eq
  refine leads_of_event exec_eq running (if_neg fun ⟨delivered, shotas, message⟩ => ?_)
  rcases not_ with undelivered | other | supervision
  · exact absurd (undelivered.symm.trans delivered) Bool.false_ne_true
  · exact other shotas
  · simp [supervision] at message

/-- A first copy that has waited for ring.forget_ms stays the only one. -/
theorem secondCopyTimeout_counts {src : Mac} {seq : BitVec 16} {c : SecondCopy}
    (waits : (s.begin dt).ring.copies.find? (fun c =>
      c.src == src && c.seq == seq && decide (c.at_ + (s.begin dt).forget ≤ (s.begin dt).clk.mono)) = some c) :
    Leads (.secondCopyTimeout dt src seq) s
      ({ s.begin dt with ring.copies := (s.begin dt).ring.copies.filter (fun x => !(x.src == c.src && x.seq == c.seq)) }.onPort
        c.port (fun r => { r with lone := (r.lone + 1) % pow32 })) := by
  have exec_eq : exec (.secondCopyTimeout dt src seq) s = execSecondCopyTimeout dt src seq s := rfl
  unfold execSecondCopyTimeout at exec_eq
  exact leads_of_event exec_eq running (by simp only [waits])

end

section

variable {s : State} {p : Port} {c : TrafficClass} {x : LaunchFrame} {rest : List LaunchFrame}

theorem launchFrame_empty (empty : (s.port p).launchQ c = []) : s.launchFrame p c = s := by
  simp only [State.launchFrame, empty]

variable (queued : (s.port p).launchQ c = x :: rest)

include queued

theorem launchFrame_early (early : s.tb < x.launch) : s.launchFrame p c = s := by
  simp [State.launchFrame, queued, early]

variable (up : s.linkUp p = true) (free : c = .express ∨ (s.port p).paused s.clk.mono = false) (come : x.launch ≤ s.tb)

include up free come

/-- The head of a queue whose instant has come leaves it, and its port unless its tolerance has passed (R437). -/
theorem launchFrame_come : s.launchFrame p c = if x.launch + x.tol < s.tb
    then (s.setPort p ((s.port p).setLaunchQ c rest)).bump 0x70F4
    else (s.setPort p ((s.port p).setLaunchQ c rest)).frameOut p x.frame := by
  have same : (s.setPort p ((s.port p).setLaunchQ c rest)).tb = s.tb := by cases p <;> rfl
  have open_ : (c == .preemptable && (s.port p).paused s.clk.mono) = false := by
    rcases free with express | unpaused
    · rw [express]; rfl
    · rw [unpaused, Bool.and_false]
  simp only [State.launchFrame, queued, up, open_, Nat.not_lt.mpr come, same, decide_false, Bool.not_true, Bool.or_false,
    Bool.false_eq_true, if_false]

theorem launchFrame_sends (inTime : s.tb ≤ x.launch + x.tol) :
    s.launchFrame p c = (s.setPort p ((s.port p).setLaunchQ c rest)).frameOut p x.frame := by
  rw [launchFrame_come queued up free come, if_neg (Nat.not_lt.mpr inTime)]

theorem launchFrame_drops (late : x.launch + x.tol < s.tb) :
    s.launchFrame p c = (s.setPort p ((s.port p).setLaunchQ c rest)).bump 0x70F4 := by
  rw [launchFrame_come queued up free come, if_pos late]

end

section

variable {dt : Ns} {s : State} {p : Port} (running : (s.begin dt).running = true)

include running

theorem launchQueueFrame_leads {c : TrafficClass} {u : State} (effect : (s.begin dt).launchFrame p c = u) :
    Leads (.launchQueueFrame dt p c) s u :=
  leads_of_event (f := fun s => s.launchFrame p c) rfl running effect

theorem launchQueueFrame_next {c : TrafficClass} {u : State} (effect : (s.begin dt).launchFrame p c = u) :
    exec (.launchQueueFrame dt p c) s = .next u.settle :=
  next_of_event (f := fun s => s.launchFrame p c) rfl running effect

/-! ### Supervision (R429, R430) -/

/-- A supervision frame is queued on both ports every ring.sup_ms, and not before. -/
theorem supervisionSend_leads :
    ((s.begin dt).ring.lastSup + (s.begin dt).num 0x7001 * ms ≤ (s.begin dt).clk.mono → Leads (.supervisionSend dt) s
      ({ s.begin dt with ring.lastSup := (s.begin dt).clk.mono, ring.supSeq := ((s.begin dt).ring.supSeq + 1) % 65536 }.launch
        true (s.begin dt).tb ((s.begin dt).num 0x7001 * ms) .group 0x88FB#16 true
        (u16 (s.begin dt).ring.supSeq ++ macBytes (s.begin dt).id.mac))) ∧
    ((s.begin dt).clk.mono < (s.begin dt).ring.lastSup + (s.begin dt).num 0x7001 * ms →
      Leads (.supervisionSend dt) s (s.begin dt)) := by
  have exec_eq : exec (.supervisionSend dt) s = execSupervisionSend dt s := rfl
  unfold execSupervisionSend at exec_eq
  exact ⟨fun due => leads_of_event exec_eq running (if_pos due),
    fun early => leads_of_event exec_eq running (if_neg (Nat.not_le.mpr early))⟩

theorem supervisionTimeout_leads :
    ((s.begin dt).ringReturns = (s.begin dt).ring.closed → Leads (.supervisionTimeout dt) s (s.begin dt)) ∧
    ((s.begin dt).ringReturns ≠ (s.begin dt).ring.closed →
      Leads (.supervisionTimeout dt) s { s.begin dt with ring.closed := !(s.begin dt).ring.closed }) := by
  have leads : Leads (.supervisionTimeout dt) s (if (s.begin dt).ringReturns = (s.begin dt).ring.closed then s.begin dt
      else { s.begin dt with ring.closed := !(s.begin dt).ring.closed }) :=
    leads_of_event_reports (f := State.judgeRing) rfl running (judgeRing_reports _)
  exact ⟨fun same => by rwa [if_pos same] at leads, fun changed => by rwa [if_neg changed] at leads⟩

/-! ### PAUSE (R435, Table 11.3) -/

/-- A PAUSE frame that is heard and counted holds the preemptable frames, where ring.pause_enable is set, for its quanta, or lets them
go. -/
theorem pause_leads {q : BitVec 16} {b : State} (up : (s.begin dt).linkUp p = true)
    (heard : ((s.begin dt).portHears p 64).bump 0x70F3 = b) :
    (b.flag 0x7003 = false → Leads (.pause dt p q) s b) ∧
    (b.flag 0x7003 = true → q ≠ 0#16 → Leads (.pause dt p q) s
      (b.onPort p (fun r => { r with pausedUntil := some (b.clk.mono + q.toNat * quantumNs r.link.speed) }))) ∧
    (b.flag 0x7003 = true → q = 0#16 → Leads (.pause dt p q) s (b.endPause p)) := by
  have exec_eq : exec (.pause dt p q) s = execPause dt p q s := rfl
  unfold execPause at exec_eq
  refine ⟨fun off => leads_of_event exec_eq running ?_, fun on some_ => leads_of_event exec_eq running ?_,
    fun on none_ => leads_of_event exec_eq running ?_⟩
  · simp only [up, heard, off, Bool.not_true, Bool.not_false, Bool.false_eq_true, if_true, if_false]
  · simp only [up, heard, on, some_, Bool.not_true, Bool.false_eq_true, if_false]
  · simp only [up, heard, on, none_, Bool.not_true, Bool.false_eq_true, if_true, if_false]

theorem pauseExpiry_leads {t : Ns} (paused : ((s.begin dt).port p).pausedUntil = some t) :
    (t ≤ (s.begin dt).clk.mono → Leads (.pauseExpiry dt p) s ((s.begin dt).endPause p)) ∧
    ((s.begin dt).clk.mono < t → Leads (.pauseExpiry dt p) s (s.begin dt)) := by
  have exec_eq : exec (.pauseExpiry dt p) s = execPauseExpiry dt p s := rfl
  unfold execPauseExpiry at exec_eq
  exact ⟨fun due => leads_of_event exec_eq running (by simp only [paused, due, if_true]),
    fun holds => leads_of_event exec_eq running (by simp only [paused, Nat.not_le.mpr holds, if_false])⟩

end

/-- Settles O43: a frame is delivered exactly where it is another's, for the module and new, and is then noted; each event's effect
where its guard holds. -/
theorem ringFramesAreDeliveredAndForwardedOnce : Obligations.RingFramesAreDeliveredAndForwardedOnce := by
  refine ⟨fun s p f up => ⟨fun repeated => ?_, fun own => ?_, fun other mine new => ?_, fun ⟨m, elsewhere⟩ => ?_⟩,
    fun s p f up repeated => ?_, fun dt s running => ?_⟩
  · have again : s.repeats f = true := repeated
    simp [ringFrame_delivers up, again]
  · rw [ringFrame_own rfl up own]
    obtain ⟨-, same, -⟩ := heard_keeps (s := s) (p := p) (f := f) rfl
    exact ⟨rfl, (ownReturns_delivered _ _).trans same⟩
  · have first : s.repeats f = false := new
    obtain ⟨-, -, same⟩ := heard_keeps (s := s) (p := p) (f := f) rfl
    rw [ringFrame_other rfl up other]
    exact ⟨by simp [mine, first], takeFrame_notes mine (same.trans first)⟩
  · simp [ringFrame_delivers up, forModule, elsewhere]
  · simp only [State.forwardOnce, repeated, Bool.true_or, if_true]
  · obtain ⟨sends, waits⟩ := supervisionSend_leads running
    obtain ⟨stays, changes⟩ := supervisionTimeout_leads running
    refine ⟨fun p f => ringFrameReceive_hands running, fun p f => ringFrameReceive_passes running,
      fun src seq c => secondCopyTimeout_counts running, fun p c x rest queued up free => ⟨fun early => ?_, fun come inTime => ?_,
        fun late => ?_⟩, fun p c empty => launchQueueFrame_leads running (launchFrame_empty empty), sends, waits, stays, changes,
      fun p q up => pause_leads running up rfl, fun p t => pauseExpiry_leads running⟩
    · exact launchQueueFrame_leads running (launchFrame_early queued early)
    · exact launchQueueFrame_next running (launchFrame_sends queued up free come inTime)
    · exact launchQueueFrame_leads running
        (launchFrame_drops queued up free (Nat.le_of_lt (Nat.lt_of_le_of_lt (Nat.le_add_right _ _) late)) late)

/-! ### Links (R419, R420, R434) -/

section

variable {s : State} {p : Port} {info : LinkInfo}

/-- No link comes up on a port that is disabled or held down, or with a half-duplex partner. -/
theorem linkChange_down
    (down : (s.port p).mode = 3 ∨ s.flag 0x7080 (portIx p) = false ∨ info.halfDuplexOnly = true) :
    ((s.linkChange p info).port p).link.speed = 0 := by
  have down : ((s.port p).mode == 3 || !s.flag 0x7080 (portIx p) || info.halfDuplexOnly) = true := by
    rcases down with disabled | held | half
    · simp [disabled]
    · simp [held]
    · simp [half]
  simp only [State.linkChange, down, if_true]
  by_cases same : { info with speed := 0 } = (s.port p).link ∧ !(s.port p).renegotiating
  · rw [if_pos same, ← same.1]
  · rw [if_neg same, setPort_port]

/-- A link that comes up at another speed starts over, and negotiates its energy saving anew (R424, R434). -/
theorem linkChange_up (enabled : (s.port p).mode ≠ 3) (on : s.flag 0x7080 (portIx p) = true) (full : info.halfDuplexOnly = false)
    (changed : info.speed % 4 ≠ (s.port p).link.speed) (up : info.speed % 4 ≠ 0) : s.linkChange p info =
      s.setPort p { (s.port p).relink s.clk.mono with
        link := { info with speed := info.speed % 4 }, renegotiating := false
        eee := s.flag 0x700A && info.partnerEee
        target := info.speed % 4, lastSpeedChange := some s.clk.mono } := by
  have other : { info with speed := info.speed % 4 } ≠ (s.port p).link := fun same => changed (congrArg LinkInfo.speed same)
  have free : ((s.port p).mode == 3 || !s.flag 0x7080 (portIx p) || info.halfDuplexOnly) = false := by
    simp [enabled, on, full]
  simp only [State.linkChange, free, other, changed, up, Bool.false_eq_true, false_and, ne_eq, not_false_eq_true, and_self, if_true,
    if_false]

end

section

variable {dt : Ns} {s : State} {p : Port} (running : (s.begin dt).running = true)

include running

theorem linkChange_leads {info : LinkInfo} {u : State} (effect : (s.begin dt).linkChange p info = u) :
    Leads (.linkChange dt p info) s u :=
  leads_of_event (f := fun s => s.linkChange p info) rfl running effect

theorem linkChange_leaves_down {info : LinkInfo} (down : ((s.begin dt).port p).mode = 3 ∨
      (s.begin dt).flag 0x7080 (portIx p) = false ∨ info.halfDuplexOnly = true) :
    ∃ t, exec (.linkChange dt p info) s = .next t ∧ (t.port p).link.speed = 0 := by
  obtain ⟨t, next, agree⟩ := linkChange_leads running (p := p) (info := info) rfl
  have same : (t.port p).bare.link = (((s.begin dt).linkChange p info).port p).bare.link := congrArg RingPort.link (agree.port p)
  exact ⟨t, next, (congrArg LinkInfo.speed same).trans (linkChange_down down)⟩

/-! ### Verification of preemption (R434) -/

/-- An attempt at verifying, answered or not. -/
def RingPort.verify (x : RingPort) (mono : Ns) (answered : Bool) : RingPort :=
  { x with verifyTries := x.verifyTries + 1, verifyAt := mono, verified := answered
           verifyFailed := !answered && decide (3 ≤ x.verifyTries + 1) }

theorem macMergeVerify_tries {answered : Bool} {b : State} (up : (s.begin dt).linkUp p = true)
    (open_ : ((s.begin dt).port p).verified = false) (hope : ((s.begin dt).port p).verifyFailed = false)
    (due : ((s.begin dt).port p).verifyTries = 0 ∨ ((s.begin dt).port p).verifyAt + 10 * ms ≤ (s.begin dt).clk.mono)
    (tried : ({ (s.begin dt).setPort p (((s.begin dt).port p).verify (s.begin dt).clk.mono answered) with
      out := (s.begin dt).out ++ [Out.macMergeVerify p] } : State).portSends p 64 = b) :
    Leads (.macMergeVerify dt p answered) s (if answered then b.portHears p 64 else b) := by
  have exec_eq : exec (.macMergeVerify dt p answered) s = execMacMergeVerify dt p answered s := rfl
  unfold execMacMergeVerify at exec_eq
  subst tried
  refine leads_of_event exec_eq running (if_neg ?_)
  rcases due with first | waited
  · simp [up, open_, hope, first]
  · simp [up, open_, hope, waited]

theorem macMergeVerify_ended {answered : Bool}
    (ended : ((s.begin dt).port p).verified = true ∨ ((s.begin dt).port p).verifyFailed = true) :
    Leads (.macMergeVerify dt p answered) s (s.begin dt) := by
  have exec_eq : exec (.macMergeVerify dt p answered) s = execMacMergeVerify dt p answered s := rfl
  unfold execMacMergeVerify at exec_eq
  refine leads_of_event exec_eq running (if_pos ?_)
  rcases ended with verified | failed
  · simp [verified]
  · simp [failed]

/-! ### Low power and speed (R421–R424) -/

/-- An idle port enters LPI. -/
theorem lpiEntry_enters (idle : (((s.begin dt).port p).eee && ((s.begin dt).port p).mode == 0 &&
      2 ≤ ((s.begin dt).port p).link.speed && ((s.begin dt).port p).expressQ.isEmpty && ((s.begin dt).port p).preemptQ.isEmpty &&
      ((s.begin dt).port p).fwdQ.isEmpty &&
      decide (((s.begin dt).port p).txEmptySince + (s.begin dt).num 0x700B * us ≤ (s.begin dt).clk.mono)) = true) :
    exec (.lpiEntry dt p) s = .next ((s.begin dt).setPort p { (s.begin dt).port p with lpi := true }).settle := by
  have exec_eq : exec (.lpiEntry dt p) s = execLpiEntry dt p s := rfl
  unfold execLpiEntry at exec_eq
  exact next_of_event exec_eq running (if_pos idle)

/-- The speed that the loads ask for: the next higher one, the next lower one, or the present one (R422). -/
def State.aimedSpeed (s : State) (p : Port) (load : LinkLoad) : Nat :=
  if load.waited = true ∨ 100 * s.num 0x7008 < load.inNow ∨ 100 * s.num 0x7008 < load.outNow then
    s.nextSpeed p (s.port p).link.speed true
  else if load.inLower < 100 * s.num 0x7007 ∧ load.outLower < 100 * s.num 0x7007 then s.nextSpeed p (s.port p).link.speed false
  else (s.port p).link.speed

theorem speedLowerEval_aims {load : LinkLoad} {v : Nat} (auto : (s.begin dt).autoSpeed p = true)
    (aimed : (s.begin dt).aimedSpeed p load = v) :
    Leads (.speedLowerEval dt p load) s ((s.begin dt).setPort p { (s.begin dt).port p with target := v }) := by
  have exec_eq : exec (.speedLowerEval dt p load) s = execSpeedLowerEval dt p load s := rfl
  unfold execSpeedLowerEval at exec_eq
  refine leads_of_event exec_eq running ?_
  subst aimed
  simp only [auto, State.aimedSpeed, Bool.not_true, Bool.false_eq_true, if_false, Bool.or_eq_true, Bool.and_eq_true,
    decide_eq_true_eq, or_assoc]

theorem speedLowerEval_fixed {load : LinkLoad} (fixed : (s.begin dt).autoSpeed p = false) :
    Leads (.speedLowerEval dt p load) s (s.begin dt) := by
  have exec_eq : exec (.speedLowerEval dt p load) s = execSpeedLowerEval dt p load s := rfl
  unfold execSpeedLowerEval at exec_eq
  exact leads_of_event exec_eq running (if_pos (by rw [fixed]; rfl))

/-- A link whose target is another speed goes down in the module's own turn, and is counted (R423). -/
theorem renegotiation_leads :
    ((s.begin dt).mayRenegotiate p = true → Leads (.renegotiation dt p) s (((s.begin dt).setPort p
      { ((s.begin dt).port p).relink (s.begin dt).clk.mono with
        renegotiating := true, lastSpeedChange := some (s.begin dt).clk.mono
        link := { (((s.begin dt).port p).relink (s.begin dt).clk.mono).link with speed := 0 } }).bump 0x70F5)) ∧
    ((s.begin dt).mayRenegotiate p = false → Leads (.renegotiation dt p) s (s.begin dt)) := by
  have exec_eq : exec (.renegotiation dt p) s = execRenegotiation dt p s := rfl
  unfold execRenegotiation at exec_eq
  exact ⟨fun may => leads_of_event exec_eq running (if_pos may),
    fun not_ => leads_of_event exec_eq running (if_neg (by rw [not_]; exact Bool.false_ne_true))⟩

end

/-- The module's turn: at port B, with the ring closed and time valid, in the 4 s that bear its segment's number. -/
theorem mayRenegotiate_turn {s : State} {p : Port} (may : s.mayRenegotiate p = true) :
    p = .B ∧ s.timeValid = true ∧ s.ring.closed = true ∧ s.tb / (4 * sec) % 64 = pidSegment s.ownPid := by
  simp only [State.mayRenegotiate, State.autoSpeed, Bool.and_eq_true, beq_iff_eq] at may
  obtain ⟨⟨⟨⟨⟨⟨⟨auto, -⟩, valid⟩, closed⟩, -⟩, -⟩, -⟩, turn⟩ := may
  obtain ⟨⟨⟨⟨⟨portB, -⟩, -⟩, -⟩, -⟩, -⟩ := auto
  exact ⟨portB, valid, closed, turn⟩

/-- Settles O44: what a link change, an attempt at verifying, an evaluation of the loads and a renegotiation leave at the port, and
when each happens. -/
theorem linksRiseFallAndSaveEnergy : Obligations.LinksRiseFallAndSaveEnergy := by
  intro dt p s running a x
  obtain ⟨changes, waits⟩ := renegotiation_leads running (p := p)
  refine ⟨fun info => linkChange_leaves_down running, fun info enabled on full changed up => ?_,
    fun answered up open_ hope due => macMergeVerify_tries running up open_ hope due rfl,
    fun answered => macMergeVerify_ended running, lpiEntry_enters running,
    fun load auto => ⟨fun raised => ?_, fun held lowered => ?_, fun held kept => ?_⟩,
    fun load => speedLowerEval_fixed running, changes, waits, mayRenegotiate_turn⟩
  · exact linkChange_leads running (linkChange_up enabled on full changed up)
  · exact speedLowerEval_aims running auto (if_pos raised)
  · exact speedLowerEval_aims running auto ((if_neg held).trans (if_pos lowered))
  · exact speedLowerEval_aims running auto ((if_neg held).trans (if_neg kept))

/-! ### Operations that leave the clock alone

A night that is resolved anew launches the points' levels and judges the circuits' demand; none of it moves the time base. -/

section

variable (s : State)

@[simp] theorem bump_clk (id idx n : Nat) : (s.bump id idx n).clk = s.clk := (bump_butForQueues s id idx n).clk

@[simp] theorem raise_clk (opcode unit : Nat) (payload : List Byte) : (s.raise opcode unit payload).clk = s.clk :=
  Reports.at (raise_bare s opcode unit payload).symm State.clk

@[simp] theorem histFrom_clk (graph flow : Nat) (r : HistRec) : (s.histFrom graph flow r).clk = s.clk :=
  Reports.at (histFrom_bare s graph flow r).symm State.clk

@[simp] theorem put_clk (q : Nat) (it : Item) : (s.put q it).clk = s.clk := (put_butForQueues s q it).clk

@[simp] theorem push03_clk (graph flow : Nat) (origin : Ns) (c : DriveCmd) : (s.push03 graph flow origin c).clk = s.clk := by
  rw [State.push03, histFrom_clk]
  split
  · unfold State.offer
    split <;> simp
  · exact put_clk _ _ _

@[simp] theorem setLive_clk (l : List DriveCmd) : (s.setLive l).clk = s.clk := rfl

@[simp] theorem revise_clk (graph flow : Nat) (origin : Ns) (old new : DriveCmd) :
    (s.revise graph flow origin old new).clk = s.clk := by
  unfold State.revise
  dsimp only
  split
  · rfl
  · rw [apply_ite State.clk, histFrom_clk, push03_clk, State.setQueue_clk, ite_self, setLive_clk]

@[simp] theorem reviseLater_clk (graph flow : Nat) (origin : Ns) (p : Pid) : (s.reviseLater graph flow origin p).clk = s.clk := by
  unfold State.reviseLater
  split
  · rfl
  · refine foldl_keeps State.clk (fun s c => ?_) _ s
    split
    · exact revise_clk _ _ _ _ _ _
    · rfl

@[simp] theorem issue_clk (graph flow : Nat) (origin : Ns) (c : DriveCmd) : (s.issue graph flow origin c).clk = s.clk := by
  rw [State.issue, reviseLater_clk]
  split <;> simp

@[simp] theorem noteMoved_clk (p : Pid) (asked given : Ns) : (s.noteMoved p asked given).clk = s.clk := by
  unfold State.noteMoved
  split <;> rfl

@[simp] theorem emitGood_clk (graph flow : Nat) (origin : Ns) (want : DriveCmd) :
    (s.emitGood graph flow origin want).1.clk = s.clk := by
  unfold State.emitGood
  dsimp only
  split
  · rfl
  · split
    · rfl
    · split <;> simp

@[simp] theorem planLate_clk (discarded recovered : Nat) : (s.planLate discarded recovered).clk = s.clk := by
  unfold State.planLate
  dsimp only
  split
  · exact raise_clk _ _ _ _
  · rfl

@[simp] theorem discarded_clk (c : DriveCmd) : (s.discarded c).clk = s.clk := by
  simp only [State.discarded, State.recover, apply_ite State.clk, planLate_clk, emitGood_clk, bump_clk, ite_self]

@[simp] theorem emit_clk (graph flow : Nat) (origin : Ns) (want : DriveCmd) : (s.emit graph flow origin want).1.clk = s.clk := by
  unfold State.emit
  split <;> simp

@[simp] theorem coreDrainFrom_clk (l : List DriveCmd) : (s.coreDrainFrom l).clk = s.clk := by
  induction l generalizing s with
  | nil => rfl
  | cons c rest ih =>
    unfold State.coreDrainFrom
    split
    · rfl
    · rw [ih, emit_clk]

@[simp] theorem coreTakes_clk (cs : List DriveCmd) : (s.coreTakes cs).clk = s.clk := coreDrainFrom_clk _ _

@[simp] theorem finish_clk (ep : Endpoint) (n st : Nat) (p : List Byte) : (s.finish ep n st p).clk = s.clk := by
  have responds (t : State) (dst : Source) (lane : Nat) (seq : Seq32) (opcode : Nat) :
      (t.respond dst lane seq opcode 1 st p).clk = t.clk :=
    Reports.at (respond_bare t dst lane seq opcode 1 st p).symm State.clk
  unfold State.finish
  dsimp only
  split
  · split
    · rfl
    · split <;> exact responds _ _ _ _ _
  · rfl

@[simp] theorem answerHeld_clk (w : Option (Endpoint × Nat × List Byte)) : (s.answerHeld w).clk = s.clk := by
  unfold State.answerHeld
  split
  · exact finish_clk _ _ _ _ _
  · rfl

@[simp] theorem refillFrom_clk (l : List (Item × Option (Endpoint × Nat × List Byte))) : (s.refillFrom l).clk = s.clk := by
  induction l generalizing s with
  | nil => rfl
  | cons e rest ih =>
    unfold State.refillFrom
    split
    · rfl
    · rw [ih, answerHeld_clk]
      split <;> simp

@[simp] theorem planChange_clk (cs : List DriveCmd) (waiter : Option (Endpoint × Nat × List Byte)) :
    (s.planChange cs waiter).clk = s.clk := by
  unfold State.planChange
  split
  · exact refillFrom_clk _ _
  · rw [answerHeld_clk, coreTakes_clk]

@[simp] theorem demandNow_clk (c : Nat) : (s.demandNow c).clk = s.clk := by
  unfold State.demandNow
  dsimp only
  split <;> rfl

@[simp] theorem switch_clk (c : Nat) (on : Bool) : (s.switch c on).clk = s.clk := by
  rw [State.switch, State.hist, histFrom_clk, raise_clk]
  exact bump_clk _ _ _ _

@[simp] theorem follow_clk (c : Nat) : (s.follow c).clk = s.clk := by
  have onCircuit (f : ChainCircuit → ChainCircuit) : (s.onCircuit c f).clk = s.clk := rfl
  simp only [State.follow, apply_ite State.clk, onCircuit, switch_clk, ite_self]

@[simp] theorem demandAll_clk : s.demandAll.clk = s.clk := by
  unfold State.demandAll State.followAll
  split
  · exact foldl_keeps State.clk demandNow_clk _ _
  · exact (foldl_keeps State.clk follow_clk _ _).trans (foldl_keeps State.clk demandNow_clk _ _)

@[simp] theorem resolveNights_clk : s.resolveNights.clk = s.clk := by
  unfold State.resolveNights
  split
  · rfl
  · rw [demandAll_clk, State.relaunch, planChange_clk]
    exact (bump_clk _ _ _ _).trans (bump_clk _ _ _ _)

@[simp] theorem noteValidity_clk : s.noteValidity.clk = s.clk := by
  unfold State.noteValidity
  dsimp only
  split
  · rfl
  · split
    · rfl
    · split
      · rfl
      · exact resolveNights_clk _

/-- A seed that takes effect is the time base (R451). -/
theorem seedTime_tb (t : Ns) : (s.seedTime t).tb = t := by
  unfold State.seedTime State.tb
  rw [noteValidity_clk]
  dsimp only
  split
  · assumption
  · exact stepTime_tb s t

end

/-! ### RING_PEER_SET and TIME_SEED (R432, R451) -/

section

variable {r : Req} {s : State}

/-- The entries of RING_PEER_SET: a segment, and its peer's address or 0. -/
def peerEntries (r : Req) : List (Nat × Mac) := (entries 8 r.payload).map (fun b => (fld b 0 1, macAt b 2))

/-- Entries that the peer table can take: 1 to 63, of segments other than the module's own. -/
def State.takesPeers (s : State) (es : List (Nat × Mac)) : Prop :=
  es ≠ [] ∧ es.length ≤ 63 ∧ ∀ e ∈ es, e.1 ≤ 63 ∧ e.1 ≠ pidSegment s.ownPid

/-- What RING_PEER_SET makes of the peer table. -/
def setPeers (es : List (Nat × Mac)) (t : Table Mac) : Table Mac :=
  es.foldl (fun t e => if e.2 = 0 then tdel t e.1 else tput t e.1 e.2) t

/-- The module with the peer table `t`; what was heard from addresses not in it is forgotten. -/
def State.withPeers (s : State) (t : Table Mac) : State :=
  let known (e : Mac × Ns) : Bool := t.any (fun x => x.2 == e.1)
  { s with ring.peers := t, ring.heardA := s.ring.heardA.filter known, ring.heardB := s.ring.heardB.filter known }

theorem State.takesPeers_iff (es : List (Nat × Mac)) : s.takesPeers es ↔
    ¬ (es.isEmpty ∨ 63 < es.length ∨ es.any (fun e => 63 < e.1 || e.1 == pidSegment s.ownPid)) := by
  simp [State.takesPeers]

theorem ringPeerSetBody_stores (good : s.takesPeers (peerEntries r)) :
    ringPeerSetBody r s = ok [] (s.withPeers (setPeers (peerEntries r) s.ring.peers)) :=
  if_neg ((State.takesPeers_iff _).mp good)

theorem ringPeerSetBody_refused (bad : ¬ s.takesPeers (peerEntries r)) : ringPeerSetBody r s = fail stRange s :=
  if_pos (not_not.mp fun good => bad ((State.takesPeers_iff _).mpr good))

/-- Time can be seeded: no master is followed, and no second is known (R451). -/
def State.seedable (s : State) : Prop := s.ptp.state = .free ∨ (s.ptp.state = .grandmaster ∧ s.ptp.secondsSet = false)

theorem timeSeedBody_range (unwhole : fld r.payload 0 8 = 0 ∨ fld r.payload 0 8 % sec ≠ 0) :
    timeSeedBody r s = fail stRange s := if_pos unwhole

variable (some_ : fld r.payload 0 8 ≠ 0) (whole : fld r.payload 0 8 % sec = 0)

include some_ whole

theorem timeSeedBody_state (follows : ¬ s.seedable) : timeSeedBody r s = fail stState s := by
  have follows : (s.ptp.state == TimeState.free || (s.ptp.state == TimeState.grandmaster && !s.ptp.secondsSet)) = false := by
    simpa [State.seedable] using follows
  simp only [timeSeedBody, some_, whole, follows, ne_eq, not_true_eq_false, or_self, if_false, Bool.not_false, if_true]

variable (seedable : s.seedable)

include seedable

/-- A whole second for a module that can be seeded waits for the next edge of PPS_IN where that is in use, and is taken at once where
it is not. -/
theorem timeSeedBody_seedable : timeSeedBody r s =
    if s.num 0x7022 = 1 ∧ s.ptp.ppsEdge.isSome ∧ !s.ptp.ppsMissing then
      .wait { s with ptp.seed := some (fld r.payload 0 8)
                     ptp.seedWaiters := s.ptp.seedWaiters ++ [(r.src.endpoint, r.lane.toNat)] }
    else ok (u64 (fld r.payload 0 8)) (s.seedTime (fld r.payload 0 8)) := by
  have free : (s.ptp.state == TimeState.free || (s.ptp.state == TimeState.grandmaster && !s.ptp.secondsSet)) = true := by
    simpa [State.seedable] using seedable
  simp only [timeSeedBody, some_, whole, free, ne_eq, not_true_eq_false, or_self, if_false, Bool.not_true, Bool.false_eq_true]
  rfl

end

/-! ### The lengths of answers (Tables 11.9 and 11.10) -/

section

variable (s : State)

@[simp] theorem leI_length (n : Nat) (v : Int) : (leI n v).length = n := le_length n _

@[simp] theorem be_length (n v : Nat) : (be n v).length = n := by
  rw [be, List.length_reverse, le_length]

@[simp] theorem State.portStatus_length (p : Port) : (s.portStatus p).length = 48 := by
  simp [State.portStatus]

/-- RING_HEALTH answers Table 11.9. -/
theorem ringHealthBody_answers (r : Req) : ∃ p, p.length = 112 ∧ ringHealthBody r s = ok p s :=
  ⟨_, by simp, rfl⟩

theorem ringPeerGetBody_answers (r : Req) : ∃ p, p.length = 4 + 16 * s.ring.peers.length ∧ ringPeerGetBody r s = ok p s := by
  refine ⟨_, ?_, rfl⟩
  simp [List.length_flatten, Function.comp_def, macBytes]
  ring

/-- TIME_STATUS answers Table 11.10, with the identity of the master or with none. -/
theorem timeStatusBody_answers (r : Req) : ∃ p, p.length = 56 ∧ timeStatusBody r s = ok p s := by
  refine ⟨_, ?_, rfl⟩
  by_cases gm : s.ptp.state = .grandmaster
  · simp [offset32, gm]
  · cases s.ptp.master <;> simp [offset32, gm]

end

/-- Settles O45: the bodies of the two commands that set, past their checks, with the clock as a seed leaves it; and the lengths of
what the other three answer. -/
theorem ringAndTimeCommandsAnswer : Obligations.RingAndTimeCommandsAnswer := by
  refine ⟨fun r s ready => ⟨fun good => ?_, fun bad => ?_⟩, fun r s ready => ?_,
    fun r s => ⟨fun ready => ?_, fun ready => ?_, fun ready => ?_⟩⟩
  · exact shotas_ok ready (ringPeerSetBody_stores good)
  · exact shotas_done ready rfl (ringPeerSetBody_refused bad)
  · intro a t seedable edges
    have used : edges ↔ a.num 0x7022 = 1 ∧ a.ptp.ppsEdge.isSome ∧ !a.ptp.ppsMissing := by
      simp [edges]
    refine ⟨fun unwhole => shotas_done ready rfl (timeSeedBody_range unwhole),
      fun some_ whole follows => shotas_done ready rfl (timeSeedBody_state some_ whole follows),
      fun some_ whole free unused => ⟨shotas_ok ready ?_, seedTime_tb a t⟩, fun some_ whole free inUse => shotas_wait ready ?_⟩
    · exact (timeSeedBody_seedable some_ whole free).trans (if_neg (used.not.mp unused))
    · exact (timeSeedBody_seedable some_ whole free).trans (if_pos (used.mp inUse))
  · obtain ⟨p, length, answers⟩ := ringHealthBody_answers (s.taken ringHealthCommand r) r
    exact ⟨p, length, shotas_ok ready answers⟩
  · obtain ⟨p, length, answers⟩ := ringPeerGetBody_answers (s.taken ringPeerGetCommand r) r
    exact ⟨p, length, shotas_ok ready answers⟩
  · obtain ⟨p, length, answers⟩ := timeStatusBody_answers (s.taken timeStatusCommand r) r
    exact ⟨p, length, shotas_ok ready answers⟩

end Sys2Proof.Machine

/-! ## The whole machine: the step, the life cycle, identity and the queue -/

namespace Sys2Proof.Machine

/-- Every command keeps the identity and the queue, and moves the life cycle as Table 14.5 allows, if at all. -/
theorem exec_moves {i : Instr} {s t : State} (next : exec i s = .next t) : Moves s t := by
  cases i with
  | identify _ => exact execIdentify_moves next
  | health _ => exact execHealth_moves next
  | paramGet _ => exact execParamGet_moves next
  | paramSet _ => exact execParamSet_moves next
  | paramCommit _ => exact execParamCommit_moves next
  | paramAbort _ => exact execParamAbort_moves next
  | warmReset _ => exact execWarmReset_moves next
  | bind _ => exact execBind_moves next
  | release _ => exact execRelease_moves next
  | forceRelease _ => exact execForceRelease_moves next
  | subscribe _ => exact execSubscribe_moves next
  | sessionClose _ => exact execSessionClose_moves next
  | noticeAck _ => exact execNoticeAck_moves next
  | overrideSet _ => exact execOverrideSet_moves next
  | overrideClear _ => exact execOverrideClear_moves next
  | overrideList _ => exact execOverrideList_moves next
  | typeSet _ => exact execTypeSet_moves next
  | typeGet _ => exact execTypeGet_moves next
  | lampSet _ => exact execLampSet_moves next
  | lampGet _ => exact execLampGet_moves next
  | lampRemove _ => exact execLampRemove_moves next
  | targetQuery _ => exact execTargetQuery_moves next
  | nightQuery _ => exact execNightQuery_moves next
  | diagList _ => exact execDiagList_moves next
  | sectionSet _ => exact execSectionSet_moves next
  | junctionSet _ => exact execJunctionSet_moves next
  | placeSet _ => exact execPlaceSet_moves next
  | graphGet _ => exact execGraphGet_moves next
  | graphRemove _ => exact execGraphRemove_moves next
  | trackList _ => exact execTrackList_moves next
  | handover _ => exact execHandover_moves next
  | handoverTaken _ => exact execHandoverTaken_moves next
  | handoverCancel _ => exact execHandoverCancel_moves next
  | peerResponse _ _ _ => exact execPeerResponse_moves next
  | graphList _ => exact execGraphList_moves next
  | graphLoad _ => exact execGraphLoad_moves next
  | graphStart _ => exact execGraphStart_moves next
  | graphStop _ => exact execGraphStop_moves next
  | graphSwap _ => exact execGraphSwap_moves next
  | graphUnload _ => exact execGraphUnload_moves next
  | engineStatus _ => exact execEngineStatus_moves next
  | queueStatus _ => exact execQueueStatus_moves next
  | backstepStatus _ => exact execBackstepStatus_moves next
  | nodeMapSet _ => exact execNodeMapSet_moves next
  | nodeMapGet _ => exact execNodeMapGet_moves next
  | nodeMapRemove _ => exact execNodeMapRemove_moves next
  | nodeList _ => exact execNodeList_moves next
  | nodeProbe _ => exact execNodeProbe_moves next
  | nodeLeave _ => exact execNodeLeave_moves next
  | radioStatus _ => exact execRadioStatus_moves next
  | meterTake _ => exact execMeterTake_moves next
  | meterRead _ => exact execMeterRead_moves next
  | pqList _ => exact execPqList_moves next
  | spanSet _ => exact execSpanSet_moves next
  | spanGet _ => exact execSpanGet_moves next
  | reconQuery _ => exact execReconQuery_moves next
  | circuitForce _ => exact execCircuitForce_moves next
  | circuitStatus _ => exact execCircuitStatus_moves next
  | latchStatus _ => exact execLatchStatus_moves next
  | ringHealth _ => exact execRingHealth_moves next
  | ringPeerSet _ => exact execRingPeerSet_moves next
  | ringPeerGet _ => exact execRingPeerGet_moves next
  | timeStatus _ => exact execTimeStatus_moves next
  | timeSeed _ => exact execTimeSeed_moves next
  | histQuery _ => exact execHistQuery_moves next
  | histNext _ => exact execHistNext_moves next
  | histClose _ => exact execHistClose_moves next
  | histStatus _ => exact execHistStatus_moves next
  | recRead _ => exact execRecRead_moves next
  | recStatus _ => exact execRecStatus_moves next
  | perfRead _ => exact execPerfRead_moves next
  | perfSamples _ => exact execPerfSamples_moves next
  | wmeterRead _ => exact execWmeterRead_moves next
  | keyWrite _ => exact execKeyWrite_moves next
  | keyErase _ => exact execKeyErase_moves next
  | keyDisable _ => exact execKeyDisable_moves next
  | keyDerive _ => exact execKeyDerive_moves next
  | keyStatus _ => exact execKeyStatus_moves next
  | attest _ => exact execAttest_moves next
  | lifecycleSet _ => exact execLifecycleSet_moves next
  | imageList _ => exact execImageList_moves next
  | updateArm _ => exact execUpdateArm_moves next
  | updateDisarm _ => exact execUpdateDisarm_moves next
  | updateRollback _ => exact execUpdateRollback_moves next
  | updateStatus _ => exact execUpdateStatus_moves next
  | imageErase _ => exact execImageErase_moves next
  | sdScan _ _ => exact execSdScan_moves next
  | chainOffer _ => exact execChainOffer_moves next
  | chainFetch _ => exact execChainFetch_moves next
  | chainArm _ => exact execChainArm_moves next
  | rtcGet _ => exact execRtcGet_moves next
  | rtcSet _ => exact execRtcSet_moves next
  | powerStatus _ => exact execPowerStatus_moves next
  | powerHold _ => exact execPowerHold_moves next
  | interimResponse _ _ _ => exact execInterimResponse_moves next
  | finalResponse _ _ _ => exact execFinalResponse_moves next
  | uartFrameTimeout _ frame _ => exact execUartFrameTimeout_moves (_frame := frame) next
  | sessionLapse _ _ => exact execSessionLapse_moves next
  | noticeResend _ _ => exact execNoticeResend_moves next
  | stagingTimeout _ => exact execStagingTimeout_moves next
  | warmResetDue _ => exact execWarmResetDue_moves next
  | snapshotLapse _ _ => exact execSnapshotLapse_moves next
  | cursorIdle _ _ => exact execCursorIdle_moves next
  | hlCmdApertureWrite _ _ _ => exact execHlCmdApertureWrite_moves next
  | hlRspApertureRead _ _ _ => exact execHlRspApertureRead_moves next
  | ring _ _ _ => exact execRing_moves next
  | clear _ _ => exact execClear_moves next
  | pop _ _ => exact execPop_moves next
  | linkReset _ _ _ => exact execLinkReset_moves next
  | moduleReset _ _ => exact execModuleReset_moves next
  | sdTimeRead _ _ => exact execSdTimeRead_moves next
  | hlNowLoRead _ _ => exact execHlNowLoRead_moves next
  | registerWrite _ _ _ _ => exact execRegisterWrite_moves next
  | hlBufferTaken _ => exact execHlBufferTaken_moves next
  | parityScan _ _ => exact execParityScan_moves next
  | itemDispatch _ _ _ => exact execItemDispatch_moves next
  | itemComplete _ _ _ => exact execItemComplete_moves next
  | itemOpsLimit _ _ _ => exact execItemOpsLimit_moves next
  | engineStall _ _ _ => exact execEngineStall_moves next
  | engineMemoryError _ _ => exact execEngineMemoryError_moves next
  | engineRetest _ _ _ => exact execEngineRetest_moves next
  | flowStateError _ _ _ _ => exact execFlowStateError_moves next
  | alarmDue _ _ _ => exact execAlarmDue_moves next
  | dispatchBoundary _ _ => exact execDispatchBoundary_moves next
  | queueLevelSecondEnd _ _ => exact execQueueLevelSecondEnd_moves next
  | paceLowerStep _ => exact execPaceLowerStep_moves next
  | reviseMissed _ _ _ => exact execReviseMissed_moves next
  | trackTick _ _ => exact execTrackTick_moves next
  | trackCoastTimeout _ _ => exact execTrackCoastTimeout_moves next
  | tentativeTimeout _ _ => exact execTentativeTimeout_moves next
  | shadowTimeout _ _ => exact execShadowTimeout_moves next
  | untrackedCoverExpiry _ => exact execUntrackedCoverExpiry_moves next
  | holdExpiry _ _ => exact execHoldExpiry_moves next
  | flapHoldExpiry _ _ => exact execFlapHoldExpiry_moves next
  | fallDeferExpiry _ _ => exact execFallDeferExpiry_moves next
  | handoverCrossing _ _ => exact execHandoverCrossing_moves next
  | peerResend _ _ _ => exact execPeerResend_moves next
  | nightResolve _ => exact execNightResolve_moves next
  | planCommandDue _ => exact execPlanCommandDue_moves next
  | photoDebounce _ => exact execPhotoDebounce_moves next
  | photoWindowExpiry _ => exact execPhotoWindowExpiry_moves next
  | overrideEnd _ _ => exact execOverrideEnd_moves next
  | circuitDemandDue _ _ => exact execCircuitDemandDue_moves next
  | diagDue _ _ _ => exact execDiagDue_moves next
  | undiagnosed _ _ _ => exact execUndiagnosed_moves next
  | lateDiscard _ _ _ => exact execLateDiscard_moves next
  | uplinkFrame _ _ _ => exact execUplinkFrame_moves next
  | nodeAckReceive _ _ _ => exact execNodeAckReceive_moves next
  | beaconCell _ _ _ => exact execBeaconCell_moves next
  | driveCell _ _ _ => exact execDriveCell_moves next
  | otherDownlinkCell _ _ _ => exact execOtherDownlinkCell_moves next
  | e2eResend _ _ => exact execE2eResend_moves next
  | nodeSilent _ _ => exact execNodeSilent_moves next
  | keyRoll _ _ => exact execKeyRoll_moves next
  | netkeyActivation _ => exact execNetkeyActivation_moves next
  | oldKeyDiscard _ => exact execOldKeyDiscard_moves next
  | radioSelfTestFail _ _ => exact execRadioSelfTestFail_moves next
  | activationBroadcast _ _ => exact execActivationBroadcast_moves next
  | meterCycleEnd _ _ _ => exact execMeterCycleEnd_moves next
  | halfCycleWindow _ _ => exact execHalfCycleWindow_moves next
  | pqEventOpenTimeout _ _ => exact execPqEventOpenTimeout_moves next
  | frequencyInterval _ _ => exact execFrequencyInterval_moves next
  | ledgerBoundary _ => exact execLedgerBoundary_moves next
  | meterCheckpoint _ => exact execMeterCheckpoint_moves next
  | calibrationStart _ _ => exact execCalibrationStart_moves next
  | calibrationForced _ _ => exact execCalibrationForced_moves next
  | recWaitExpiry _ _ => exact execRecWaitExpiry_moves next
  | chainCycle _ _ => exact execChainCycle_moves next
  | dwellExpiry _ _ => exact execDwellExpiry_moves next
  | inrushExpiry _ => exact execInrushExpiry_moves next
  | circuitForceEnd _ _ => exact execCircuitForceEnd_moves next
  | ringFrameReceive _ _ _ => exact execRingFrameReceive_moves next
  | secondCopyTimeout _ _ _ => exact execSecondCopyTimeout_moves next
  | supervisionSend _ => exact execSupervisionSend_moves next
  | supervisionTimeout _ => exact execSupervisionTimeout_moves next
  | peerDelayExchange _ _ => exact execPeerDelayExchange_moves next
  | sync _ _ _ => exact execSync_moves next
  | followUp _ _ _ => exact execFollowUp_moves next
  | followUpHoldExpiry _ => exact execFollowUpHoldExpiry_moves next
  | announce _ _ _ => exact execAnnounce_moves next
  | syncMissTimeout _ => exact execSyncMissTimeout_moves next
  | holdoverTimeout _ => exact execHoldoverTimeout_moves next
  | ppsInEdge _ _ => exact execPpsInEdge_moves next
  | ppsInMissing _ => exact execPpsInMissing_moves next
  | stampExtendRead _ => exact execStampExtendRead_moves next
  | linkChange _ _ _ => exact execLinkChange_moves next
  | pause _ _ _ => exact execPause_moves next
  | pauseExpiry _ _ => exact execPauseExpiry_moves next
  | macMergeVerify _ _ _ => exact execMacMergeVerify_moves next
  | lpiEntry _ _ => exact execLpiEntry_moves next
  | speedLowerEval _ _ _ => exact execSpeedLowerEval_moves next
  | renegotiation _ _ => exact execRenegotiation_moves next
  | launchQueueFrame _ _ _ => exact execLaunchQueueFrame_moves next
  | histProgram _ _ => exact execHistProgram_moves next
  | writeStallTimeout _ => exact execWriteStallTimeout_moves next
  | scrubStep _ _ _ _ => exact execScrubStep_moves next
  | packageFailure _ _ => exact execPackageFailure_moves next
  | recorderWrite _ _ _ => exact execRecorderWrite_moves next
  | mirrorCopy _ _ => exact execMirrorCopy_moves next
  | mramRetry _ _ => exact execMramRetry_moves next
  | perfSample _ _ _ => exact execPerfSample_moves next
  | windowMeterBoundary _ _ => exact execWindowMeterBoundary_moves next
  | shuffle _ _ => exact execShuffle_moves next
  | imageReceived _ _ => exact execImageReceived_moves next
  | chainReceiveTimeout _ => exact execChainReceiveTimeout_moves next
  | partialImageExpiry _ => exact execPartialImageExpiry_moves next
  | armMissed _ _ => exact execArmMissed_moves next
  | switchOver _ => exact execSwitchOver_moves next
  | trialTimeout _ => exact execTrialTimeout_moves next
  | cardInsert _ _ => exact execCardInsert_moves next
  | cardRemove _ => exact execCardRemove_moves next
  | lastGaspEntry _ _ => exact execLastGaspEntry_moves next
  | vinBelow4v _ _ _ => exact execVinBelow4v_moves next
  | brownOut _ _ => exact execBrownOut_moves next
  | slowDomainLost _ => exact execSlowDomainLost_moves next
  | vinReturn _ _ => exact execVinReturn_moves next
  | nreset _ _ => exact execNreset_moves next
  | watchdog _ => exact execWatchdog_moves next
  | start _ _ => exact execStart_moves next
  | periodicWake _ => exact execPeriodicWake_moves next
  | quietEntry _ => exact execQuietEntry_moves next
  | quietExit _ => exact execQuietExit_moves next
  | vbatSample _ _ => exact execVbatSample_moves next
  | operatingSecond _ => exact execOperatingSecond_moves next
  | rtcSecond _ => exact execRtcSecond_moves next
  | rtcDiscipline _ => exact execRtcDiscipline_moves next
  | rtcTempCorrection _ _ => exact execRtcTempCorrection_moves next
  | doorChange _ _ => exact execDoorChange_moves next
  | photoChange _ _ => exact execPhotoChange_moves next
  | unsupportedOpcode _ _ _ => exact execUnsupportedOpcode_moves next
  | overrideStart _ _ => exact execOverrideStart_moves next
  | circuitForceStart _ _ => exact execCircuitForceStart_moves next
  | vpaChange _ _ => exact execVpaChange_moves next
  | islandSupplyOrLinkChange _ _ => exact execIslandSupplyOrLinkChange_moves next
  | peerDelayMessage _ _ _ => exact execPeerDelayMessage_moves next
  | trialRunTimeout _ => exact execTrialRunTimeout_moves next

/-- Settles O1: the two arms of the step. -/
theorem stepRunsFrontCommand : Obligations.StepRunsFrontCommand := by
  refine fun s c rest => ⟨fun front => ?_, fun idle => ?_⟩
  · rw [step, front]
  · rw [step, idle]

/-- A step keeps what manufacture fixed, takes the queue's front, and moves the life cycle as Table 14.5 allows. -/
theorem step_moves {s t : State} (next : step s = .next t) :
    t.id = s.id ∧ t.pending = s.pending.tail ∧ lifecycleMoves s.ks.lifecycle t.ks.lifecycle := by
  cases queue : s.pending with
  | nil =>
    rw [step, queue] at next
    cases next
    exact ⟨rfl, queue, .inl rfl⟩
  | cons c rest =>
    rw [step, queue] at next
    exact exec_moves next

/-- Table 14.5 stays among the four states of Table 14.4. -/
theorem lifecycleMoves.legal {a b : Nat} (moves : lifecycleMoves a b) (legal : lifecycleLegal a) : lifecycleLegal b := by
  unfold lifecycleMoves at moves
  unfold lifecycleLegal at legal ⊢
  omega

/-- No row of Table 14.5 leaves RETIRED. -/
theorem lifecycleMoves.retired {a b : Nat} (moves : lifecycleMoves a b) (retired : a = 3) : b = 3 := by
  unfold lifecycleMoves at moves
  omega

/-- Settles O59: what a step may do to the life cycle, and what Table 14.5 keeps. -/
theorem lifeCycleMovesOnlyAsItsTableSays : Obligations.LifeCycleMovesOnlyAsItsTableSays := by
  intro s t next
  obtain ⟨-, -, moves⟩ := step_moves next
  exact ⟨moves, moves.legal, moves.retired⟩

/-- Settles O60: what every command keeps, and the step that runs one. -/
theorem commandsLeaveIdentityAndQueue : Obligations.CommandsLeaveIdentityAndQueue := by
  refine ⟨fun i s t next => ?_, fun s t i rest queue next => ?_⟩
  · obtain ⟨id, pending, -⟩ := exec_moves next
    exact ⟨id, pending⟩
  · obtain ⟨id, pending, -⟩ := step_moves next
    exact ⟨by rw [pending, queue, List.tail_cons], id⟩

end Sys2Proof.Machine

/-! ## The History Store's cursors (spec chapter 12) -/

namespace Sys2Proof.Machine

/-! ### Sorting -/

section

variable {α : Type} (key : α → Nat)

theorem insertBefore_eq_orderedInsert (a : α) (l : List α) :
    sortBy.insertBefore key a l = l.orderedInsert (fun x y => key x ≤ key y) a := by
  induction l with
  | nil => rfl
  | cons b l ih => rw [sortBy.insertBefore, List.orderedInsert, ih]

/-- The model's sort is the library's insertion sort by the key. -/
theorem sortBy_eq_insertionSort (l : List α) : sortBy key l = l.insertionSort (fun x y => key x ≤ key y) := by
  rw [sortBy, List.foldl_reverse, List.insertionSort]
  congr 1
  funext a l
  exact insertBefore_eq_orderedInsert key a l

theorem sortBy_pairwise (l : List α) : (sortBy key l).Pairwise (fun x y => key x ≤ key y) := by
  have : Std.Total (fun x y => key x ≤ key y) := ⟨fun x y => Nat.le_total (key x) (key y)⟩
  have : IsTrans α (fun x y => key x ≤ key y) := ⟨fun _ _ _ => Nat.le_trans⟩
  rw [sortBy_eq_insertionSort]
  exact List.pairwise_insertionSort _ l

theorem mem_sortBy {l : List α} {a : α} : a ∈ sortBy key l ↔ a ∈ l := by
  rw [sortBy_eq_insertionSort, List.mem_insertionSort]

end

/-! ### Statuses that are not kept -/

/-- A status that is not kept for a resend leaves the lane to what it held before, and is sent (R61). -/
theorem shotas_uncached {c : Command} {r : Req} {s u : State} {st : Nat} {p : List Byte} (ready : Ready c r s)
    (uncached : statusCached st = false) (body : c.body r (s.taken c r) = .done st p u) :
    ∃ before t, shotas c r s = .next t ∧ Reports (u.setLane r.src.endpoint r.lane.toNat before) t := by
  obtain ⟨before, next⟩ := shotas_ready ready
  refine ⟨before, _, next, ?_⟩
  simp only [body, State.conclude, uncached, Reports, settle_bare, respond_bare, Bool.false_eq_true, if_false]

/-! ### HIST_QUERY, HIST_NEXT, HIST_CLOSE and HIST_STATUS (R466–R470) -/

section

variable {r : Req} {s : State} {c : Cursor}

/-- The cursor that a query opens (R466). -/
def State.queried (s : State) (r : Req) : Cursor :=
  { id := s.hs.nextCursor, ep := r.src.endpoint, tier := fld r.payload 0 1, hide := hasBit (fld r.payload 1 1) 0
    mode := fld r.payload 2 1, place := pidAt r.payload 4, types := fld r.payload 12 8, from_ := fld r.payload 20 8
    to_ := fld r.payload 28 8, cutoff := s.now, appended := s.hs.appendSeq, after := none, lastUse := s.clk.mono
    agedTold := false, oldest := s.histOldest (fld r.payload 0 1), gone := [] }

theorem histQueryBody_opens (checked : s.queryRefused r.payload = none) (few : s.hs.cursors.length < 16)
    (fewOwn : (s.hs.cursors.filter (fun c => c.ep == r.src.endpoint)).length < 4) :
    histQueryBody r s = ok (u32 (s.queried r).id ++ u32 0 ++ u64 (s.queried r).cutoff)
      { s with hs.cursors := s.hs.cursors ++ [s.queried r], hs.nextCursor := (s.hs.nextCursor + 1) % pow32 } := by
  have room : ¬ (16 ≤ s.hs.cursors.length ∨ 4 ≤ (s.hs.cursors.filter (fun c => c.ep == r.src.endpoint)).length) := by omega
  simp only [histQueryBody, checked, room, if_false]
  rfl

/-- With no place left the command is answered BUSY (R470). -/
theorem histQueryBody_busy (checked : s.queryRefused r.payload = none) (full : 16 ≤ s.hs.cursors.length) :
    histQueryBody r s = .done stBusy (u16 s.draw.1) s.draw.2 := by
  simp only [histQueryBody, checked, full, true_or, if_true]

/-- A page as a client gets it: the entries, whether they are the last, and their images (Table 12.5). -/
def Cursor.page (c : Cursor) (es all : List Entry) : List Byte :=
  u16 es.length ++ u8 (bit (es.length == all.length)) ++ u8 0 ++ (es.map (fun e => e.bytes c)).flatten

/-- A cursor's entries have been returned. -/
def State.paged (s : State) (c : Cursor) (es : List Entry) : State :=
  es.foldl (fun s e => s.returned c.id c.tier e)
    (({ s.onCursor c.id (fun (x : Cursor) => { x with lastUse := s.clk.mono }) with hs.forced := 0 } : State).countReads c.tier es)

theorem histNextBody_pages (least : 32 ≤ fld r.payload 4 2) (most : fld r.payload 4 2 ≤ 1468)
    (found : s.cursor? r.src.endpoint (fld r.payload 0 4) = some c) :
    let es := takeFitting c (fld r.payload 4 2) (s.cursorEntries c)
    histNextBody r s = ok (c.page es (s.cursorEntries c)) (s.paged c es) := by
  have range : ¬ (fld r.payload 4 2 < 32 ∨ 1468 < fld r.payload 4 2) := by omega
  simp only [histNextBody, range, found, if_false]
  rfl

theorem histNextBody_none (least : 32 ≤ fld r.payload 4 2) (most : fld r.payload 4 2 ≤ 1468)
    (none_ : s.cursor? r.src.endpoint (fld r.payload 0 4) = none) : histNextBody r s = fail stState s := by
  have range : ¬ (fld r.payload 4 2 < 32 ∨ 1468 < fld r.payload 4 2) := by omega
  simp only [histNextBody, range, none_, if_false]

theorem takeFitting_prefix (c : Cursor) (n : Nat) (l : List Entry) : takeFitting c n l <+: l := by
  induction l generalizing n with
  | nil => exact List.prefix_refl _
  | cons e l ih =>
    rw [takeFitting]
    split
    · exact (List.cons_prefix_cons).mpr ⟨rfl, ih _⟩
    · exact List.nil_prefix

/-- What is taken fits (R470). -/
theorem takeFitting_fits (c : Cursor) (n : Nat) (l : List Entry) :
    (((takeFitting c n l).map (fun e => e.bytes c)).flatten).length ≤ n := by
  induction l generalizing n with
  | nil => exact Nat.zero_le n
  | cons e l ih =>
    rw [takeFitting]
    split
    · next fits =>
      have rest := ih (n - (e.bytes c).length)
      rw [List.map_cons, List.flatten_cons, List.length_append]
      omega
    · exact Nat.zero_le n

/-- What a cursor selects of its tier, with the RETRACTED marks, before what it has returned already goes (R466, R468). -/
def State.shownRecs (s : State) (c : Cursor) : List (Stored × Bool) :=
  let marked := ((s.tierRecs c.tier).filter (fun r => s.selects c r)).map (fun r =>
    (r, (s.tierRecs c.tier).any (fun x => decide (x.append < c.appended) && retracts x r)))
  if c.hide then marked.filter (fun e => !e.2 && e.1.rec_.type != 0x0E) else marked

theorem mem_shownRecs {e : Stored × Bool} (shown : e ∈ s.shownRecs c) :
    e.1 ∈ s.tierRecs c.tier ∧ s.selects c e.1 = true := by
  have marked : ∃ r, (r ∈ s.tierRecs c.tier ∧ s.selects c r = true) ∧
      (r, (s.tierRecs c.tier).any (fun x => decide (x.append < c.appended) && retracts x r)) = e := by
    simp only [← List.mem_filter, ← List.mem_map]
    unfold State.shownRecs at shown
    dsimp only at shown
    split at shown
    · exact (List.mem_filter.mp shown).1
    · exact shown
  obtain ⟨r, selected, rfl⟩ := marked
  exact selected

/-- What a cursor still has to return is selected and lies beyond what it returned last (R466, R467). -/
theorem mem_cursorRecs {e : Stored × Bool} (mem : e ∈ s.cursorRecs c) :
    e ∈ s.shownRecs c ∧ ∀ i k, c.after = some (i, k) → i < e.1.index ∨ (i = e.1.index ∧ k < e.1.append) := by
  have left : s.cursorRecs c = sortBy (fun e => e.1.index) (match c.after with
    | none => s.shownRecs c
    | some (i, a) => (s.shownRecs c).filter (fun e => i < e.1.index || (e.1.index == i && a < e.1.append))) := rfl
  rw [left, mem_sortBy] at mem
  split at mem
  · next fresh => exact ⟨mem, fun i k later => by simp [fresh] at later⟩
  · next i a later =>
    obtain ⟨shown, beyond⟩ := List.mem_filter.mp mem
    refine ⟨shown, fun j k same => ?_⟩
    obtain ⟨rfl, rfl⟩ := Prod.mk.inj (Option.some.inj (later.symm.trans same))
    simpa only [Bool.or_eq_true, Bool.and_eq_true, decide_eq_true_eq, beq_iff_eq, eq_comm (a := e.1.index)] using beyond

theorem histCloseBody_closes (found : s.cursor? r.src.endpoint (fld r.payload 0 4) = some c) :
    histCloseBody r s = ok [] { s with hs.cursors := s.hs.cursors.filter (fun x => x.id != c.id) } := by
  simp only [histCloseBody, found]

theorem histCloseBody_none (none_ : s.cursor? r.src.endpoint (fld r.payload 0 4) = none) :
    histCloseBody r s = fail stState s := by
  simp only [histCloseBody, none_]

/-- The estimate of a tier's retention draws a free value at most (log entry 3). -/
theorem retention_draws (s : State) (t : Nat) : ∃ k, (s.retention t).2 = { s with free := k } := by
  simp only [State.retention, apply_ite Prod.snd]
  split
  · exact ⟨s.free, rfl⟩
  · split
    · exact ⟨s.free + 1, rfl⟩
    · exact ⟨s.free, rfl⟩

theorem tierStatus_draws (s : State) (t : Nat) : ∃ k, (s.tierStatus t).2 = { s with free := k } := by
  obtain ⟨k, draws⟩ := retention_draws s t
  obtain ⟨p, tells⟩ : ∃ p, s.tierStatus t = (p, (s.retention t).2) := ⟨_, rfl⟩
  rw [draws] at tells
  exact ⟨k, congrArg Prod.snd tells⟩

@[simp] theorem tierStatus_length (s : State) (t : Nat) : (s.tierStatus t).1.length = 32 := by
  simp [State.tierStatus]

/-- HIST_STATUS answers 128 octets and draws free values at most. -/
theorem histStatusBody_answers (r : Req) (s : State) :
    let z := (((s.tierStatus 0).2.tierStatus 1).2.tierStatus 2).2
    ∃ p, histStatusBody r s = ok p z ∧ p.length = 128 ∧ ∃ k, z = { s with free := k } := by
  refine ⟨_, rfl, by simp, ?_⟩
  obtain ⟨i, first⟩ := tierStatus_draws s 0
  obtain ⟨j, second⟩ := tierStatus_draws (s.tierStatus 0).2 1
  obtain ⟨k, third⟩ := tierStatus_draws ((s.tierStatus 0).2.tierStatus 1).2 2
  exact ⟨k, by rw [third, second, first]⟩

end

/-- Settles O47: the bodies of the four commands past their checks, and what the list of a cursor's records is made of. -/
theorem cursorsReturnWhatTheySelect : Obligations.CursorsReturnWhatTheySelect := by
  refine ⟨fun r s ready checked => ⟨fun few fewOwn => ?_, fun full => ?_⟩,
    fun r s ready least most => ⟨fun c found => ⟨?_, ?_, ?_⟩, fun none_ => ?_⟩,
    fun s c => ⟨sortBy_pairwise _ _, fun e mem => ?_⟩,
    fun r s ready => ⟨fun c found => ?_, fun none_ => ?_⟩, fun r s ready => ?_⟩
  · exact shotas_ok ready (histQueryBody_opens checked few fewOwn)
  · obtain ⟨before, t, next, reports⟩ := shotas_uncached ready rfl (histQueryBody_busy checked full)
    exact ⟨t, next, reports.at (fun s : State => s.hs.cursors)⟩
  · exact shotas_ok ready (histNextBody_pages least most found)
  · exact takeFitting_prefix _ _ _
  · exact takeFitting_fits _ _ _
  · exact shotas_done ready rfl (histNextBody_none least most none_)
  · obtain ⟨shown, beyond⟩ := mem_cursorRecs mem
    exact ⟨(mem_shownRecs shown).1, (mem_shownRecs shown).2, beyond⟩
  · exact shotas_ok ready (histCloseBody_closes found)
  · exact shotas_done ready rfl (histCloseBody_none none_)
  · obtain ⟨p, answers, length, draws⟩ := histStatusBody_answers r (s.taken histStatusCommand r)
    exact ⟨p, shotas_ok ready answers, length, draws⟩

end Sys2Proof.Machine

/-! ## The recorder (spec chapter 13) -/

namespace Sys2Proof.Machine

/-! ### A record enters its region (R481, R485, R488) -/

section

variable (s : State) (r : RecEntry)

@[simp] theorem bump_ev (id idx n : Nat) : (s.bump id idx n).ev = s.ev := by
  unfold State.bump
  split <;> rfl

/-- The newest entry of a list that is cut to its newest ones. -/
theorem getLast?_lastN_append {α : Type} {n : Nat} (some_ : 0 < n) (l : List α) (a : α) :
    (lastN n (l ++ [a])).getLast? = some a := by
  have kept : (l ++ [a]).length - n ≤ l.length := by
    rw [List.length_append, List.length_singleton]
    omega
  rw [lastN, List.drop_append_of_le_length kept, List.getLast?_append, List.getLast?_singleton, Option.some_or]

/-- What a write does to the MRAM's two regions and the next sequence. -/
def Recorder.regions (e : Recorder) : List RecEntry × List RecEntry × Nat := (e.pinned, e.general, e.seq)

@[simp] theorem mirrorWait_regions : (s.mirrorWait r).ev.regions = s.ev.regions := by
  unfold State.mirrorWait
  split <;> rfl

theorem regionPut_pinned (pinned : r.pinned = true) :
    (s.regionPut r).ev.regions = (lastN 4096 (s.ev.pinned ++ [r]), s.ev.general, s.ev.seq) := by
  simp only [State.regionPut, pinned, if_true, Recorder.regions]
  split <;> simp

theorem regionPut_general (general : r.pinned = false) :
    (s.regionPut r).ev.regions = (s.ev.pinned, lastN 61440 (s.ev.general ++ [r]), s.ev.seq) := by
  simp only [State.regionPut, general, Bool.false_eq_true, if_false, Recorder.regions]

/-- The record as it is written first: under the next sequence. -/
def State.numbering (s : State) (r : RecEntry) : RecEntry := { r with seq := s.ev.seq, numbered := true }

theorem numberRecord_fresh (fresh : r.numbered = false) :
    s.numberRecord r = (s.numbering r, { s with ev.seq := (s.ev.seq + 1) % pow32 }.bump 0x8082 (recClass r.event)) := by
  simp only [State.numberRecord, fresh, Bool.false_eq_true, if_false]
  rfl

variable {s r}

theorem toMram_regions (fresh : r.numbered = false) : (s.toMram r).ev.regions =
    (({ s with ev.seq := (s.ev.seq + 1) % pow32 }.bump 0x8082 (recClass r.event)).regionPut (s.numbering r)).ev.regions := by
  rw [State.toMram, numberRecord_fresh s r fresh]
  exact mirrorWait_regions _ _

theorem toMram_pinned (fresh : r.numbered = false) (pinned : r.pinned = true) : (s.toMram r).ev.regions =
    (lastN 4096 (s.ev.pinned ++ [s.numbering r]), s.ev.general, (s.ev.seq + 1) % pow32) := by
  rw [toMram_regions fresh, regionPut_pinned _ (s.numbering r) pinned, bump_ev]

theorem toMram_general (fresh : r.numbered = false) (general : r.pinned = false) : (s.toMram r).ev.regions =
    (s.ev.pinned, lastN 61440 (s.ev.general ++ [s.numbering r]), (s.ev.seq + 1) % pow32) := by
  rw [toMram_regions fresh, regionPut_general _ (s.numbering r) general, bump_ev]

theorem Recorder.regions_eq {e : Recorder} {p g : List RecEntry} {n : Nat} (regions : e.regions = (p, g, n)) :
    e.pinned = p ∧ e.general = g ∧ e.seq = n := by
  simpa [Recorder.regions] using regions

end

/-! ### RECORDER_WRITE, MIRROR_COPY and MRAM_RETRY (R486–R490, R625) -/

section

variable {s : State} {r : RecEntry} {gasp mirrorOk : Bool}

theorem writeRecord_good (works : s.ev.state = 0) (first : s.nextRecord = some (r, gasp)) :
    s.writeRecord true mirrorOk = ((s.dropRecord gasp).toMram r).tellOverflow := by
  simp only [State.writeRecord, works, first, ne_eq, not_true_eq_false, if_false, if_true]

/-- A failed readback is counted, and the record waits (R488). -/
theorem writeRecord_bad (works : s.ev.state = 0) (first : s.nextRecord = some (r, gasp)) (few : s.ev.failRun < 2) :
    s.writeRecord false mirrorOk = { s.bump 0x80F3 with ev.failRun := s.ev.failRun + 1 } := by
  have again : s.ev.failRun + 1 < 3 := by omega
  simp only [State.writeRecord, works, first, again, ne_eq, not_true_eq_false, if_false, if_true, Bool.false_eq_true]

theorem writeRecord_idle (works : s.ev.state = 0) (none_ : s.nextRecord = none) (x y : Bool) : s.writeRecord x y = s := by
  simp only [State.writeRecord, works, none_, ne_eq, not_true_eq_false, if_false]

theorem writeRecord_failed {rest : List RecEntry} (failed : s.ev.state ≠ 0) (waits : s.ev.queue = r :: rest) (x y : Bool) :
    s.writeRecord x y = ((s.dropRecord false).toMirror r y).tellOverflow := by
  simp only [State.writeRecord, failed, waits, ne_eq, not_false_eq_true, if_true]

theorem mirrorCopy_eq (works : s.ev.state = 0) (outside : s.pwr.state ≠ .lastGasp) (waits : s.ev.unmirrored ≠ []) (ok : Bool) :
    s.mirrorCopy ok = if ok then s.mirrorCatchUp else if s.ev.mirrorBehind then s
      else { s with ev.mirrorBehind := true }.record 0x8001 0x11 (s.recorderFault 2 false) := by
  simp [State.mirrorCopy, works, outside, waits]

theorem mramRetry_early (early : s.clk.mono < s.ev.lastRetry + 60 * sec) (ok : Bool) : s.mramRetry ok = s := by
  simp only [State.mramRetry, early, or_true, if_true]

/-- A good retry drains the last-gasp ring into the MRAM, which is written again (R489, R490). -/
theorem mramRetry_good (failed : s.ev.state ≠ 0) (due : s.ev.lastRetry + 60 * sec ≤ s.clk.mono) :
    let b := s.ev.lastGasp.foldl State.toMram { s with ev.lastGasp := [] }
    Reports { b with ev.state := 0, ev.failRun := 0 } (s.mramRetry true) := by
  have come : ¬ (s.ev.state = 0 ∨ s.clk.mono < s.ev.lastRetry + 60 * sec) :=
    not_or.mpr ⟨failed, Nat.not_lt.mpr due⟩
  simp only [State.mramRetry, come, Bool.not_true, Bool.false_eq_true, if_false]
  exact (record_bare _ _ _ _).symm

end

/-! ### REC_READ and REC_STATUS (R491, R492) -/

section

variable {r : Req} {s : State}

theorem recReadBody_range (beyond : 1 < fld r.payload 0 1 ∨ fld r.payload 2 2 = 0 ∨ 22 < fld r.payload 2 2) :
    recReadBody r s = fail stRange s := by
  simp only [recReadBody, beyond, if_true]

/-- A page of the oldest records of a region (Table 13.6). -/
theorem recReadBody_oldest (region : fld r.payload 0 1 ≤ 1) (some_ : 1 ≤ fld r.payload 2 2) (few : fld r.payload 2 2 ≤ 22)
    (oldest : fld r.payload 4 4 = 0xFFFFFFFF) :
    let page := (s.readable (fld r.payload 0 1 == 1)).take (fld r.payload 2 2)
    ∃ p, recReadBody r s = ok p (s.bump 0x80F1 0 (page.countP (fun x => x.badCrc.isSome))) ∧ fld p 0 2 = page.length ∧
      p.drop 16 = (page.map recordBytes).flatten := by
  have passes : ¬ (1 < fld r.payload 0 1 ∨ fld r.payload 2 2 = 0 ∨ 22 < fld r.payload 2 2) := by omega
  intro page
  have short : page.length < 65536 := by
    have cut : page.length ≤ fld r.payload 2 2 := List.length_take_le _ _
    omega
  obtain ⟨head, body, sixteen, count⟩ : ∃ head, recReadBody r s = ok (head ++ (page.map recordBytes).flatten)
      (s.bump 0x80F1 0 (page.countP (fun x => x.badCrc.isSome))) ∧ head.length = 16 ∧ fld head 0 2 = page.length := by
    simp only [recReadBody, passes, oldest, beq_self_eq_true, Bool.true_or, List.filter_true, if_false, if_true]
    refine ⟨_, rfl, by simp, ?_⟩
    simp only [List.append_assoc]
    exact (fld_le_append 2 _ _).trans (Nat.mod_eq_of_lt short)
  refine ⟨_, body, ?_, ?_⟩
  · rw [fld_append_left _ _ (by omega), count]
  · rw [← sixteen, List.drop_left]

theorem recStatusBody_answers (r : Req) (s : State) : ∃ p, recStatusBody r s = ok p s ∧ p.length = 40 :=
  ⟨_, rfl, by simp [regionStatus]⟩

end

/-- Settles O49: the write to a region, the recorder's three events, and the bodies of its two commands. -/
theorem recordsReachTheirRegionInOrder : Obligations.RecordsReachTheirRegionInOrder := by
  refine ⟨fun s r fresh => ⟨?_, fun pinned => ?_, fun general => ?_⟩, fun dt s running => ?_, fun r s => ⟨fun ready => ⟨?_, ?_⟩, fun ready => ?_⟩⟩
  · cases region : r.pinned with
    | true => exact (Recorder.regions_eq (toMram_pinned fresh region)).2.2
    | false => exact (Recorder.regions_eq (toMram_general fresh region)).2.2
  · obtain ⟨written, kept, -⟩ := Recorder.regions_eq (toMram_pinned (s := s) fresh pinned)
    rw [written]
    exact ⟨getLast?_lastN_append (by decide) _ _, kept, lastN_length_le _ _⟩
  · obtain ⟨kept, written, -⟩ := Recorder.regions_eq (toMram_general (s := s) fresh general)
    rw [written]
    exact ⟨getLast?_lastN_append (by decide) _ _, kept, lastN_length_le _ _⟩
  · intro a
    have writes (x y : Bool) {u : State} (effect : a.writeRecord x y = u) : exec (.recorderWrite dt x y) s = .next u.settle :=
      next_of_event (f := fun s => s.writeRecord x y) rfl running effect
    have copies {x : Bool} {u : State} (effect : Reports u (a.mirrorCopy x)) : Leads (.mirrorCopy dt x) s u :=
      leads_of_event_reports (f := fun s => s.mirrorCopy x) rfl running effect
    have retries {x : Bool} {u : State} (effect : Reports u (a.mramRetry x)) : Leads (.mramRetry dt x) s u :=
      leads_of_event_reports (f := fun s => s.mramRetry x) rfl running effect
    refine ⟨fun r gasp works first mirrorOk => ⟨writes _ _ (writeRecord_good works first), fun few =>
        writes _ _ (writeRecord_bad works first few)⟩,
      fun works none_ x y => leads_of_next rfl (writes x y (writeRecord_idle works none_ x y)),
      fun r rest failed waits x y => writes x y (writeRecord_failed failed waits x y),
      fun works outside waits => ⟨copies ?_, fun level => copies ?_⟩, fun failed due => ?_,
      fun early ok => retries (by rw [mramRetry_early early ok]; exact .refl a)⟩
    · rw [mirrorCopy_eq works outside waits, if_pos rfl]
      exact .refl _
    · rw [mirrorCopy_eq works outside waits, if_neg Bool.false_ne_true, level, if_neg Bool.false_ne_true]
      exact (record_bare _ _ _ _).symm
    · obtain ⟨t, next, reports⟩ := retries (mramRetry_good failed due)
      exact ⟨t, next, reports.at (fun s : State => s.ev.state), reports.at (fun s : State => s.ev.failRun),
        reports.at (fun s : State => s.ev.pinned), reports.at (fun s : State => s.ev.general)⟩
  · intro region some_ few oldest
    obtain ⟨p, answers, count, records⟩ := recReadBody_oldest (s := s.taken recReadCommand r) region some_ few oldest
    exact ⟨p, shotas_ok ready answers, count, records⟩
  · exact fun beyond => shotas_done ready rfl (recReadBody_range beyond)
  · obtain ⟨p, answers, length⟩ := recStatusBody_answers r (s.taken recStatusCommand r)
    exact ⟨p, shotas_ok ready answers, length⟩

end Sys2Proof.Machine

/-! ## Performance counters and window meters (spec chapter 13) -/

namespace Sys2Proof.Machine

/-! ### PERF_READ, PERF_SAMPLES and WMETER_READ (R497, R498, R500) -/

section

variable {c : Command} {r : Req} {s u : State}

/-- A command that answers OK sends its response and ends (R61). -/
theorem next_of_ok {p : List Byte} (ready : Ready c r s) (body : c.body r (s.taken c r) = ok p u) :
    shotas c r s = .next ((u.answered r stOk p).respond r.src r.lane.toNat r.seq c.opcode 1 stOk p).settle := by
  obtain ⟨before, next⟩ := shotas_ready ready
  rw [next, body, ok, conclude_done rfl]

@[simp] theorem State.perfEntry_length (s : State) (n : Nat) : (s.perfEntry n).length = 20 := by
  simp [State.perfEntry]

/-- What a counted answer of PERF_READ holds (Table 13.6). -/
def State.perfTable (s : State) (first n : Nat) : List Byte :=
  u16 n ++ u16 0 ++ ((List.range n).map (fun i => s.perfEntry (first + i))).flatten

theorem State.perfTable_length (s : State) (first n : Nat) : (s.perfTable first n).length = 4 + 20 * n := by
  simp [State.perfTable, List.length_flatten, Function.comp_def]
  ring

theorem State.perfTable_count (s : State) (first : Nat) {n : Nat} (few : n ≤ 64) : fld (s.perfTable first n) 0 2 = n := by
  simp only [State.perfTable, List.append_assoc]
  exact (fld_le_append 2 n _).trans (Nat.mod_eq_of_lt (by omega))

theorem perfReadBody_reads (some_ : 1 ≤ fld r.payload 1 1) (within : fld r.payload 0 1 + fld r.payload 1 1 ≤ 64) :
    perfReadBody r s = ok (s.perfTable (fld r.payload 0 1) (fld r.payload 1 1)) s := by
  have passes : ¬ (fld r.payload 1 1 = 0 ∨ 64 < fld r.payload 1 1 ∨ 64 < fld r.payload 0 1 + fld r.payload 1 1) := by omega
  simp only [perfReadBody, passes, if_false]
  rfl

theorem perfReadBody_range
    (beyond : fld r.payload 1 1 = 0 ∨ 64 < fld r.payload 1 1 ∨ 64 < fld r.payload 0 1 + fld r.payload 1 1) :
    perfReadBody r s = fail stRange s := by
  simp only [perfReadBody, beyond, if_true]

/-- The oldest samples are answered and go (R498). -/
theorem perfSamplesBody_takes (some_ : 1 ≤ fld r.payload 0 2) (few : fld r.payload 0 2 ≤ 60) :
    let taken := s.perf.samples.take (fld r.payload 0 2)
    perfSamplesBody r s = ok (u16 taken.length ++ u16 0 ++ (taken.map PerfSampleRec.bytes).flatten)
      { s with perf.samples := s.perf.samples.drop (fld r.payload 0 2) } := by
  have passes : ¬ (fld r.payload 0 2 = 0 ∨ 60 < fld r.payload 0 2) := by omega
  simp only [perfSamplesBody, passes, if_false]

@[simp] theorem State.wmeterEntry_length (s : State) (m : Nat) (w : WindowMeter) : (s.wmeterEntry m w).length = 32 := by
  simp [State.wmeterEntry]

theorem wmeterReadBody_answers (r : Req) {s : State} (fitted : s.perf.meters.length = 16) :
    ∃ p, wmeterReadBody r s = ok p s ∧ fld p 0 2 = 16 ∧ p.length = 4 + 16 * 32 := by
  refine ⟨_, rfl, ?_, ?_⟩
  · simp only [List.append_assoc]
    exact fld_le_append 2 16 _
  · have each : (s.perf.meters.mapIdx s.wmeterEntry).map List.length = List.replicate 16 32 := by
      rw [List.eq_replicate_iff]
      exact ⟨by simp [fitted], by simp [List.mem_mapIdx]⟩
    simp [List.length_flatten, each]

end

/-! ### PERF_SAMPLE (R498) -/

section

variable {s : State} {c : Nat}

theorem perfSample_early (k : SampleCapture) (early : s.sampleDue c = false) : s.perfSample c k = s := by
  simp only [State.perfSample, early, Bool.not_false, if_true]

/-- The state once a counter's due sample has been taken from its count. -/
def State.sampling (s : State) (c : Nat) : State :=
  { s with perf.sinceSample := cput s.perf.sinceSample c (cget s.perf.sinceSample c - s.num 0x8482 c) }

theorem perfSample_due (k : SampleCapture) (due : s.sampleDue c = true) : s.perfSample c k =
    if 256 ≤ s.perf.samples.length then (s.sampling c).bump 0x84F0
    else { s.sampling c with perf.samples := s.perf.samples ++ [{
      counter := c, stamp := s.now
      capture := if perfOfEngine (s.num 0x8480 c) then k else { k with engine := 0xFF } }] } := by
  simp only [State.perfSample, due, Bool.not_true, Bool.false_eq_true, if_false]
  rfl

end

/-! ### WINDOW_METER_BOUNDARY (R500) -/

section

variable {s : State} {m : Nat} {w : WindowMeter}

/-- A window that began on its own boundary ends one window later. -/
theorem WindowMeter.boundary_aligned (aligned : w.windowStart % (w.window * ms) = 0) (tb : Nat) :
    w.boundary w.window tb =
      if w.windowStart + w.window * ms ≤ tb then some (w.windowStart + w.window * ms, false) else none := by
  have own : (w.windowStart / (w.window * ms) + 1) * (w.window * ms) = w.windowStart + w.window * ms := by
    rw [Nat.add_mul, Nat.one_mul, Nat.div_mul_cancel (Nat.dvd_of_mod_eq_zero aligned)]
  simp only [WindowMeter.boundary, own, ne_eq, not_true_eq_false, if_false]

theorem meterBoundary_get (found : s.perf.meters[m]? = some w) (same : s.num 0x8492 m = w.window)
    (aligned : w.windowStart % (w.window * ms) = 0) : (s.meterBoundary m).perf.meters[m]? = some (
      let end_ := w.windowStart + w.window * ms
      if end_ ≤ s.tb then w.close end_ (if s.timeValid then end_ else 0) s.clk.mono else w) := by
  simp only [State.meterBoundary, lmod_getElem?, found, Option.map_some, same, WindowMeter.boundary_aligned aligned]
  by_cases reached : w.windowStart + w.window * ms ≤ s.tb
  · simp only [reached, if_true, Bool.false_eq_true, if_false]
  · simp only [reached, if_false]

/-- A full window gives its bytes as the last one. -/
theorem WindowMeter.close_full (aligned : w.windowStart % (w.window * ms) = 0) (at_ stamp mono : Ns) :
    let x := w.close at_ stamp mono
    x.last = w.bytes ∧ x.bytes = 0 ∧ x.valid = true ∧ x.windowStart = at_ := by
  simp [WindowMeter.close, aligned]

end

/-- Settles O50: the bodies of the three commands, the sample, and the window of a meter at its boundary. -/
theorem performanceIsCountedSampledAndMetered : Obligations.PerformanceIsCountedSampledAndMetered := by
  refine ⟨fun r s ready => ⟨fun some_ within => ?_, fun beyond => ?_⟩, fun r s ready => ?_, fun dt c k s running => ?_,
    fun dt m s running => next_of_event (f := fun s => s.meterBoundary m) rfl running rfl,
    fun s m w found same _ aligned => ⟨fun reached => ?_, fun early => ?_⟩, fun r s ready fitted => ?_⟩
  · exact ⟨_, shotas_ok ready (perfReadBody_reads some_ within), State.perfTable_length _ _ _,
      State.perfTable_count _ _ (by omega)⟩
  · exact shotas_done ready rfl (perfReadBody_range beyond)
  · exact fun some_ few => next_of_ok ready (perfSamplesBody_takes some_ few)
  · have samples {u : State} (effect : (s.begin dt).perfSample c k = u) : exec (.perfSample dt c k) s = .next u.settle :=
      next_of_event (f := fun s => s.perfSample c k) rfl running effect
    exact ⟨fun due room => samples ((perfSample_due k due).trans (if_neg (Nat.not_le.mpr room))),
      fun due full => samples ((perfSample_due k due).trans (if_pos full)), fun early => samples (perfSample_early k early)⟩
  · rw [meterBoundary_get found same aligned]
    exact ⟨_, congrArg some (if_pos reached), WindowMeter.close_full aligned _ _ _⟩
  · rw [meterBoundary_get found same aligned]
    exact congrArg some (if_neg (Nat.not_le.mpr early))
  · obtain ⟨p, answers, count, length⟩ := wmeterReadBody_answers r fitted
    exact ⟨p, shotas_ok ready answers, count, length⟩

end Sys2Proof.Machine

/-! ## Keys and the life cycle (spec chapter 14) -/

namespace Sys2Proof.Machine

/-! ### Slots after a change (R513, R514, R520) -/

section

variable (s : State) (i cause : Nat)

@[simp] theorem raise_ks (opcode unit : Nat) (payload : List Byte) : (s.raise opcode unit payload).ks = s.ks :=
  Reports.at (raise_bare s opcode unit payload).symm State.ks

@[simp] theorem bump_ks (id idx n : Nat) : (s.bump id idx n).ks = s.ks := by
  unfold State.bump
  split <;> rfl

@[simp] theorem keyChanged_ks (old new : Nat) : (s.keyChanged i old new cause).ks = s.ks := raise_ks _ _ _ _

/-- A change of a slot changes no other, for what it tells are reports and the cache of node keys is none of the slots. -/
theorem changeSlot_slots (f : KeySlot → KeySlot) : (s.changeSlot i cause f).ks.slots = lmod s.ks.slots i f := by
  unfold State.changeSlot
  refine (foldl_keeps (fun t : State => t.ks.slots) (fun t j => congrArg KeyStore.slots (keyChanged_ks t j _ _ _)) _ _).trans ?_
  split <;> rfl

theorem slot_changeSlot_other {j : Nat} (f : KeySlot → KeySlot) (other : j ≠ i) : (s.changeSlot i cause f).slot j = s.slot j := by
  have kept : (lmod s.ks.slots i f)[j]? = s.ks.slots[j]? := by
    generalize s.ks.slots = l
    induction l generalizing i j with
    | nil => rfl
    | cons a l ih =>
      cases i with
      | zero => cases j with
        | zero => exact absurd rfl other
        | succ j => rfl
      | succ i => cases j with
        | zero => rfl
        | succ j => simpa [lmod] using ih i fun same => other (congrArg Nat.succ same)
  rw [State.slot, changeSlot_slots, kept, State.slot]

theorem slot_changeSlot_same (f : KeySlot → KeySlot) (held : i < s.ks.slots.length) :
    (s.changeSlot i cause f).slot i = f (s.slot i) := by
  rw [State.slot, changeSlot_slots, lmod_getElem?, State.slot, List.getElem?_eq_getElem held]
  rfl

@[simp] theorem writeSlot_slots_length (k : KeyRecord) : (s.writeSlot i cause k).ks.slots.length = s.ks.slots.length := by
  rw [State.writeSlot, changeSlot_slots, lmod_length]
  rfl

theorem slot_writeSlot_other {j : Nat} (k : KeyRecord) (other : j ≠ i) : (s.writeSlot i cause k).slot j = s.slot j :=
  slot_changeSlot_other s.draw.2 i cause _ other

/-- A record is written over the slot's older one (R520). -/
theorem slot_writeSlot_same (k : KeyRecord) (held : i < s.ks.slots.length) :
    ((s.writeSlot i cause k).slot i).rec_ = k ∧ ((s.writeSlot i cause k).slot i).older = (s.slot i).rec_ := by
  rw [State.writeSlot, slot_changeSlot_same s.draw.2 i cause _ held]
  exact ⟨rfl, rfl⟩

end

/-! ### The commands that write keys (R511, R512, R516–R518, R522) -/

section

variable {r : Req} {s : State} {f : Unit → Result}

theorem keyGate_open (outside : s.pwr.state ≠ .lastGasp) (alone : s.keyBusy r = false) : s.keyGate r f = f () := by
  simp only [State.keyGate, outside, alone, if_false, Bool.false_eq_true]

theorem keyGate_lastGasp (gasp : s.pwr.state = .lastGasp) : s.keyGate r f = fail stState s := by
  simp only [State.keyGate, gasp, if_true]

/-- A slot's children do not stand in the way where there are none, or the command is forced. -/
theorem childless {i : Nat} {forced : Bool} (free : s.childrenOf i = [] ∨ forced = true) :
    ¬ ((!(s.childrenOf i).isEmpty) = true ∧ (!forced) = true) := by
  rcases free with none_ | forced
  · simp [none_]
  · simp [forced]

/-- The record that KEY_WRITE stores (R506, R513). -/
def State.keyWritten (s : State) (p : List Byte) : KeyRecord :=
  { type := fld p 1 1, attrs := fld p 4 4 ||| 16, gen := s.nextGen (fld p 0 1), disabled := false, key := p.drop 8
    parent := none }

theorem keyWriteBody_writes (outside : s.pwr.state ≠ .lastGasp) (alone : s.keyBusy r = false)
    (checked : s.writerCheck r (fld r.payload 0 1) (fld r.payload 4 4) = none) (typed : keyLength (fld r.payload 1 1) ≠ 0)
    (attrs : attrsOk (fld r.payload 1 1) (fld r.payload 4 4) = true)
    (free : s.childrenOf (fld r.payload 0 1) = [] ∨ hasBit (fld r.payload 2 1) 0 = true) :
    keyWriteBody r s = ok (u32 (s.keyWritten r.payload).gen ++ (s.keyWritten r.payload).kcv)
      (s.writeSlot (fld r.payload 0 1) 1 (s.keyWritten r.payload)) := by
  rw [keyWriteBody, keyGate_open outside alone]
  simp only [checked, typed, attrs, childless free, Bool.not_true, Bool.false_eq_true, or_self, if_false]
  rfl

theorem keyEraseBody_erases (outside : s.pwr.state ≠ .lastGasp) (alone : s.keyBusy r = false)
    (checked : s.writerCheck r (fld r.payload 0 1) 0 = none)
    (free : s.childrenOf (fld r.payload 0 1) = [] ∨ hasBit (fld r.payload 1 1) 0 = true) :
    keyEraseBody r s = ok (u32 (s.nextGen (fld r.payload 0 1))) (s.eraseSlot (fld r.payload 0 1) 2) := by
  rw [keyEraseBody, keyGate_open outside alone]
  simp only [checked, childless free, if_false]

theorem keyDisableBody_changes (outside : s.pwr.state ≠ .lastGasp) (alone : s.keyBusy r = false)
    (checked : s.writerCheck r (fld r.payload 0 1) 0 = none) (enable : fld r.payload 1 1 ≤ 1)
    (holds : (s.slot (fld r.payload 0 1)).rec_.type ≠ 0)
    (free : fld r.payload 1 1 = 1 ∨ s.childrenOf (fld r.payload 0 1) = [] ∨ hasBit (fld r.payload 2 1) 0 = true) :
    keyDisableBody r s = ok [] (s.changeSlot (fld r.payload 0 1) (if fld r.payload 1 1 = 0 then 3 else 4) (fun k =>
      { k with rec_ := { k.rec_ with disabled := fld r.payload 1 1 = 0 }, older := k.rec_ })) := by
  have unhindered : ¬ (fld r.payload 1 1 = 0 ∧ (!(s.childrenOf (fld r.payload 0 1)).isEmpty) = true ∧
      (!hasBit (fld r.payload 2 1) 0) = true) := by
    rcases free with enables | free
    · simp [enables]
    · exact fun hindered => childless free hindered.2
  rw [keyDisableBody, keyGate_open outside alone]
  simp only [checked, Nat.not_lt.mpr enable, holds, unhindered, if_false]

/-- The record that KEY_DERIVE stores (R517, R518). -/
def State.keyDerived (s : State) (p : List Byte) : KeyRecord :=
  { type := fld p 2 1, attrs := fld p 4 4 ||| 16, gen := s.nextGen (fld p 1 1), disabled := false
    key := kdf (s.slot (fld p 0 1)).rec_.key (slice p 12 (fld p 3 1)) (p.drop (12 + fld p 3 1)) (keyLength (fld p 2 1))
    parent := some (fld p 0 1, (s.slot (fld p 0 1)).rec_.gen) }

/-- The checks of KEY_DERIVE beyond the writer's: the parent, the fields, the attributes, and the chain (R518). -/
structure DerivePasses (p : List Byte) (s : State) : Prop where
  fitted : fld p 0 1 < s.slotsFitted
  parent : s.slotState (fld p 0 1) = 1 ∧ hasBit (s.slot (fld p 0 1)).rec_.attrs 12 = true ∧
    hasBit (s.slot (fld p 0 1)).rec_.attrs (8 + s.ks.lifecycle) = true
  fields : 1 ≤ fld p 2 1 ∧ fld p 2 1 ≤ 3 ∧ 1 ≤ fld p 3 1 ∧ fld p 3 1 ≤ 32 ∧ (p.drop (12 + fld p 3 1)).length ≤ 32 ∧
    ∀ b ∈ slice p 12 (fld p 3 1), b.toNat < 0x80
  attrs : attrsOk (fld p 2 1) (fld p 4 4) = true ∧ ([0, 1, 2, 3] : List Nat).any (fun b =>
    hasBit (fld p 4 4) b && !hasBit (s.slot (fld p 0 1)).rec_.attrs b) = false
  chain : (s.ancestry 64 (fld p 0 1)).contains (fld p 1 1) = false ∧ (s.ancestry 64 (fld p 0 1)).length < 4 ∧
    s.childrenOf (fld p 1 1) = []

theorem State.slotsFitted_le (s : State) : s.slotsFitted ≤ 64 := by
  unfold State.slotsFitted
  split <;> decide

theorem keyDeriveBody_derives (outside : s.pwr.state ≠ .lastGasp) (alone : s.keyBusy r = false)
    (checked : s.writerCheck r (fld r.payload 1 1) (fld r.payload 4 4) = none) (passes : DerivePasses r.payload s) :
    keyDeriveBody r s = ok (u32 (s.keyDerived r.payload).gen ++ (s.keyDerived r.payload).kcv)
      (s.writeSlot (fld r.payload 1 1) 5 (s.keyDerived r.payload)) := by
  obtain ⟨fitted, ⟨active, parent, alive⟩, ⟨typed, type, named, label, context, ascii⟩, ⟨attrs, inherited⟩, acyclic, short, free⟩ := passes
  have inside : ¬ 64 ≤ fld r.payload 0 1 := Nat.not_le.mpr (Nat.lt_of_lt_of_le fitted s.slotsFitted_le)
  have fields : ¬ (fld r.payload 2 1 = 0 ∨ 3 < fld r.payload 2 1 ∨ fld r.payload 3 1 = 0 ∨ 32 < fld r.payload 3 1 ∨
      32 < (r.payload.drop (12 + fld r.payload 3 1)).length ∨
      (slice r.payload 12 (fld r.payload 3 1)).any (fun b => 0x80 ≤ b.toNat) = true) := by
    have plain : (slice r.payload 12 (fld r.payload 3 1)).any (fun b => 0x80 ≤ b.toNat) = false :=
      List.any_eq_false.mpr fun b here => by simpa using ascii b here
    simp only [plain, Bool.false_eq_true, or_false]
    omega
  have parentOk : (!decide (s.slotState (fld r.payload 0 1) = 1 ∧ hasBit (s.slot (fld r.payload 0 1)).rec_.attrs 12 = true ∧
      hasBit (s.slot (fld r.payload 0 1)).rec_.attrs (8 + s.ks.lifecycle) = true)) = false := by
    simp [active, parent, alive]
  rw [keyDeriveBody, keyGate_open outside alone]
  simp only [checked, inside, Nat.not_le.mpr fitted, parentOk, fields, attrs, inherited, acyclic, Nat.not_le.mpr short, free,
    Bool.not_true, Bool.false_eq_true, or_self, List.isEmpty_nil, if_false]
  rfl

/-! In LAST-GASP no key is changed (R522; log entry 98). -/

theorem keyWriteBody_lastGasp (gasp : s.pwr.state = .lastGasp) : keyWriteBody r s = fail stState s := by
  rw [keyWriteBody, keyGate_lastGasp gasp]

theorem keyEraseBody_lastGasp (gasp : s.pwr.state = .lastGasp) : keyEraseBody r s = fail stState s := by
  rw [keyEraseBody, keyGate_lastGasp gasp]

theorem keyDisableBody_lastGasp (gasp : s.pwr.state = .lastGasp) : keyDisableBody r s = fail stState s := by
  rw [keyDisableBody, keyGate_lastGasp gasp]

theorem keyDeriveBody_lastGasp (gasp : s.pwr.state = .lastGasp) : keyDeriveBody r s = fail stState s := by
  rw [keyDeriveBody, keyGate_lastGasp gasp]

theorem attestBody_attests (few : (s.ks.attests.filter (fun t => decide (s.clk.mono < t + sec))).length < s.num 0x9005)
    (usable : s.keyUsable (s.num 0x9002) 3 = true) :
    attestBody r s = ok (s.attestFields ++ hmac (s.slot (s.num 0x9002)).rec_.key (r.payload ++ s.attestFields))
      ({ s with ks.attests := s.ks.attests.filter (fun t => decide (s.clk.mono < t + sec)) ++ [s.clk.mono] }.bump 0x90F3) := by
  simp only [attestBody, Nat.not_le.mpr few, usable, Bool.not_true, Bool.false_eq_true, if_false]

end

/-- Settles O51: the bodies of the key commands past their checks, and a slot after it is written. -/
theorem keysAreWrittenErasedDisabledDerived : Obligations.KeysAreWrittenErasedDisabledDerived := by
  refine ⟨fun r s ready => ⟨fun outside alone checked typed attrs free => ?_, fun gasp => ?_⟩,
    fun r s ready outside alone checked free => ?_,
    fun r s => ⟨fun ready gasp => ?_, fun ready gasp => ?_, fun ready gasp => ?_⟩,
    fun r s ready outside alone checked enable holds free => ?_,
    fun r s ready outside alone checked fitted parent fields attrs chain => ?_,
    fun s i cause k held => ?_, fun r s => ⟨fun ready => ?_, fun ready few usable => ?_⟩⟩
  · exact shotas_ok ready (keyWriteBody_writes outside alone checked typed attrs free)
  · exact shotas_done ready rfl (keyWriteBody_lastGasp gasp)
  · exact shotas_ok ready (keyEraseBody_erases outside alone checked free)
  · exact shotas_done ready rfl (keyEraseBody_lastGasp gasp)
  · exact shotas_done ready rfl (keyDisableBody_lastGasp gasp)
  · exact shotas_done ready rfl (keyDeriveBody_lastGasp gasp)
  · exact shotas_ok ready (keyDisableBody_changes outside alone checked enable holds free)
  · exact shotas_ok ready (keyDeriveBody_derives outside alone checked ⟨fitted, parent, fields, attrs, chain⟩)
  · obtain ⟨written, older⟩ := slot_writeSlot_same s i cause k held
    exact ⟨written, older, fun j other => slot_writeSlot_other s i cause k other⟩
  · exact shotas_ok ready rfl
  · exact shotas_ok ready (attestBody_attests few usable)

/-! ### The life cycle (R527, R528) -/

section

variable {r : Req} {s : State} {i : Nat}

/-- Table 14.5. -/
theorem lifecycleAllows_iff (new confirm : Nat) : s.lifecycleAllows new confirm = true ↔
    (s.ks.lifecycle = 0 ∧ new = 1 ∧ s.slotState (s.num 0x9002) = 1) ∨
    (s.ks.lifecycle = 1 ∧ new = 2 ∧ s.slotState (s.num 0x9002) = 1 ∧ s.slotState (s.num 0x9003) = 1) ∨
    (s.ks.lifecycle = 2 ∧ new = 1) ∨ (s.ks.lifecycle < 3 ∧ new = 3 ∧ confirm = 0x5245) := by
  unfold State.lifecycleAllows
  dsimp only
  split
  case h_7 provision commission withdraw retire0 retire1 retire2 =>
    refine iff_of_false Bool.false_ne_true ?_
    rintro (⟨old, given, -⟩ | ⟨old, given, -⟩ | ⟨old, given⟩ | ⟨old, given, -⟩)
    · exact provision old given
    · exact commission old given
    · exact withdraw old given
    · rcases (by omega : s.ks.lifecycle = 0 ∨ s.ks.lifecycle = 1 ∨ s.ks.lifecycle = 2) with old | old | old
      · exact retire0 old given
      · exact retire1 old given
      · exact retire2 old given
  all_goals simp_all

theorem lifecycleSetBody_stays (alive : s.ks.lifecycle ≠ 3) (same : fld r.payload 0 1 = s.ks.lifecycle) :
    lifecycleSetBody r s = ok (u8 s.ks.lifecycle ++ u8 (fld r.payload 0 1) ++ u16 0) s := by
  simp only [lifecycleSetBody, alive, same, ne_eq, not_false_eq_true, and_self, if_true]

theorem lifecycleSetBody_judges (moves : ¬ (s.ks.lifecycle ≠ 3 ∧ fld r.payload 0 1 = s.ks.lifecycle)) :
    lifecycleSetBody r s = if s.lifecycleAllows (fld r.payload 0 1) (fld r.payload 2 2) = true then
      ok (u8 s.ks.lifecycle ++ u8 (fld r.payload 0 1) ++ u16 0) (s.setLifecycle (fld r.payload 0 1))
    else fail stState s := by
  simp only [lifecycleSetBody, moves, if_false]

theorem retireKeys_lifecycle (s : State) : s.retireKeys.ks.lifecycle = s.ks.lifecycle :=
  congrArg (fun x => x.2.1) (State.retireKeys_still s)

/-- The life cycle is the one that was set (R527). -/
theorem setLifecycle_lifecycle (s : State) (new : Nat) : (s.setLifecycle new).ks.lifecycle = new := by
  unfold State.setLifecycle
  dsimp only
  split
  · rw [retireKeys_lifecycle, raise_ks]
  · rw [raise_ks]

/-- The turn of slot `i` when the module is retired (R528). -/
def State.retireSlot (s : State) (i : Nat) : State :=
  if (s.slot i).rec_.type ≠ 0 ∧ !hasBit (s.slot i).rec_.attrs 11 then s.eraseSlot i 7 else s

theorem retireSlot_length (s : State) (i : Nat) : (s.retireSlot i).ks.slots.length = s.ks.slots.length := by
  unfold State.retireSlot State.eraseSlot
  split
  · exact writeSlot_slots_length _ _ _ _
  · rfl

theorem slot_retireSlot_other (s : State) {i j : Nat} (other : j ≠ i) : (s.retireSlot i).slot j = s.slot j := by
  unfold State.retireSlot State.eraseSlot
  split
  · exact slot_writeSlot_other s i 7 _ other
  · rfl

/-- The slots that have not had their turn stand as they are. -/
theorem slot_retireSlots_other {l : List Nat} (unnamed : i ∉ l) : (l.foldl State.retireSlot s).slot i = s.slot i := by
  induction l generalizing s with
  | nil => rfl
  | cons j l ih =>
    obtain ⟨here, later⟩ := not_or.mp (List.mem_cons.not.mp unnamed)
    rw [List.foldl_cons, ih later, slot_retireSlot_other s here]

/-- Each slot named once has its turn as it stands before. -/
theorem slot_retireSlots {l : List Nat} (once : l.Nodup) (named : i ∈ l) :
    ∃ t : State, (l.foldl State.retireSlot s).slot i = (t.retireSlot i).slot i ∧ t.slot i = s.slot i ∧
      t.ks.slots.length = s.ks.slots.length := by
  induction l generalizing s with
  | nil => cases named
  | cons j l ih =>
    obtain ⟨fresh, once⟩ := List.nodup_cons.mp once
    by_cases here : i = j
    · subst here
      exact ⟨s, slot_retireSlots_other fresh, rfl, rfl⟩
    · obtain ⟨t, turn, before, length⟩ := ih (s := s.retireSlot j) once ((List.mem_cons.mp named).resolve_left here)
      exact ⟨t, turn, before.trans (slot_retireSlot_other s here), length.trans (retireSlot_length s j)⟩

/-- A retired module's slots: those without U_RETIRED are erased, those with it stand (R528). -/
theorem slot_retireKeys (fitted : i < s.slotsFitted) (held : i < s.ks.slots.length) :
    ((s.slot i).rec_.type ≠ 0 → hasBit (s.slot i).rec_.attrs 11 = false →
      (s.retireKeys.slot i).rec_ = { KeyRecord.empty with gen := s.nextGen i }) ∧
    (hasBit (s.slot i).rec_.attrs 11 = true → s.retireKeys.slot i = s.slot i) := by
  obtain ⟨t, turn, before, length⟩ := slot_retireSlots (s := s) List.nodup_range (List.mem_range.mpr fitted)
  have turn : s.retireKeys.slot i = (t.retireSlot i).slot i := turn
  rw [turn, ← before]
  refine ⟨fun typed leaves => ?_, fun stays => ?_⟩
  · have erased : t.retireSlot i = t.writeSlot i 7 { KeyRecord.empty with gen := t.nextGen i } := by
      simp only [State.retireSlot, typed, leaves, ne_eq, not_false_eq_true, Bool.not_false, and_self, if_true]
      rfl
    rw [erased, (slot_writeSlot_same t i 7 _ (length ▸ held)).1, State.nextGen, State.nextGen, before]
  · simp only [State.retireSlot, stays, Bool.not_true, Bool.false_eq_true, and_false, if_false]

theorem slot_setLifecycle_retired (s : State) (i : Nat) : ∃ t : State, (s.setLifecycle 3).slot i = t.retireKeys.slot i ∧
    t.ks.slots = s.ks.slots ∧ t.id = s.id := by
  refine ⟨_, rfl, ?_, ?_⟩
  · rw [raise_ks]
  · exact Reports.at (raise_bare _ _ _ _).symm State.id

end

/-! ### SHUFFLE (R524, R525) -/

/-- The working copy of a slot under its new mask, where it is given one (R524). -/
def KeySlot.remasked (k : KeySlot) (mono : Ns) : Option (List Byte) → KeySlot
  | some (b :: m) => { k with mask := b :: m, maskedAt := mono }
  | _ => k

@[simp] theorem KeySlot.remasked_rec (k : KeySlot) (mono : Ns) (m : Option (List Byte)) : (k.remasked mono m).rec_ = k.rec_ := by
  unfold KeySlot.remasked
  split <;> rfl

theorem slot_shuffled (s : State) (masks : List (List Byte)) (i : Nat) :
    (s.shuffled masks).slot i = ((s.ks.slots[i]?).map (fun k => k.remasked s.clk.mono masks[i]?)).getD .empty := by
  rw [State.slot, State.shuffled]
  simp only [bump_ks, List.getElem?_mapIdx]
  rfl

/-- Settles O52: Table 14.5, the slots of a retired module by their turns, and the masks. -/
theorem lifeCycleSetFollowsItsTable : Obligations.LifeCycleSetFollowsItsTable := by
  refine ⟨fun r s ready => ?_, fun s fits i fitted => ?_, fun dt masks s running => ⟨?_, fun i b m held given => ?_, fun i => ?_⟩⟩
  · intro a old new active allowed
    have table : a.lifecycleAllows new (fld r.payload 2 2) = true ↔ allowed := lifecycleAllows_iff _ _
    refine ⟨fun alive same => shotas_ok ready (lifecycleSetBody_stays alive same), fun allows => ⟨?_, setLifecycle_lifecycle a new⟩,
      fun refused moves => ?_⟩
    · have moves : ¬ (old ≠ 3 ∧ new = old) := by omega
      exact shotas_ok ready ((lifecycleSetBody_judges moves).trans (if_pos (table.mpr allows)))
    · have moves : ¬ (old ≠ 3 ∧ new = old) := by omega
      exact shotas_done ready rfl ((lifecycleSetBody_judges moves).trans (if_neg (table.not.mpr refused)))
  · obtain ⟨t, retired, slots, id⟩ := slot_setLifecycle_retired s i
    have same : t.slot i = s.slot i := by rw [State.slot, slots, State.slot]
    have same' : t.slotsFitted = s.slotsFitted :=
      congrArg (fun x : Ident => if (x.order == .vkm16C) = true then 32 else 64) id
    have fitted' : i < t.slotsFitted := same'.symm ▸ fitted
    have held : i < t.ks.slots.length := slots ▸ Nat.lt_of_lt_of_le fitted fits
    have keys := slot_retireKeys fitted' held
    rwa [same, ← retired, show t.nextGen i = s.nextGen i by rw [State.nextGen, same, State.nextGen]] at keys
  · exact leads_of_event (f := fun s => s.shuffled masks) rfl running rfl
  · rw [slot_shuffled, List.getElem?_eq_getElem held, given]
    rfl
  · rw [slot_shuffled, State.slot]
    cases (s.begin dt).ks.slots[i]? with
    | none => rfl
    | some k => exact KeySlot.remasked_rec k _ _

end Sys2Proof.Machine

/-! ## Images and updates (spec chapter 15): the commands -/

namespace Sys2Proof.Machine

/-! ### Commands that go on after their response -/

/-- A command that answers OK sends its response, ends, and then does what it does after it (R61). -/
theorem next_of_doneThen {c : Command} {r : Req} {s u : State} {p : List Byte} {after : State → State} (ready : Ready c r s)
    (body : c.body r (s.taken c r) = .doneThen stOk p u after) : shotas c r s =
      .next (after ((u.answered r stOk p).respond r.src r.lane.toNat r.seq c.opcode 1 stOk p)).settle := by
  obtain ⟨before, next⟩ := shotas_ready ready
  rw [next, body]
  have concludes (x : State) : x.conclude c r before (.doneThen stOk p u after) = after (x.conclude c r before (.done stOk p u)) :=
    rfl
  rw [concludes, conclude_done rfl]

/-! ### Arming (R549–R551, R557) -/

section

variable {r : Req} {s : State} {since t : Ns} {kind flags id at_ : Nat} {chain pending : Bool} {st : Nat}

/-- What the checks of R549 come to: a refusal with a status that is kept for a resend, or an arm that takes effect at its
instant or, if that is too early and the arm is immediate, at the earliest one. -/
theorem armVerdict_cases (s : State) (since : Ns) (kind flags id at_ : Nat) (chain : Bool) :
    (∃ st, s.armVerdict since kind flags id at_ chain = .refused st ∧ statusCached st = true) ∨
    ∃ pending, s.armVerdict since kind flags id at_ chain = .armed (max at_ (since + s.armLead)) pending ∧ kind < 5 ∧
      (at_ < since + s.armLead → hasBit flags 0 = true) := by
  generalize verdict : s.armVerdict since kind flags id at_ chain = v
  unfold State.armVerdict at verdict
  generalize (if kind = 0 then s.inactive.state == 1 && s.inactive.image.id == id
    else s.up.images.any (fun i => i.kind == kind && i.id == id)) = holds at verdict
  dsimp only at verdict
  split at verdict
  · exact .inl ⟨stRange, verdict.symm, rfl⟩
  next inRange =>
    split at verdict
    · exact .inl ⟨stState, verdict.symm, rfl⟩
    · split at verdict
      · exact .inl ⟨stTooLate, verdict.symm, rfl⟩
      next inTime =>
        refine .inr ⟨!holds, verdict.symm, Nat.not_le.mp fun beyond => inRange (.inl beyond), fun early => ?_⟩
        by_contra strict
        exact inTime ⟨early, by simpa using strict⟩

theorem armVerdict_refused_cached (refused : s.armVerdict since kind flags id at_ chain = .refused st) :
    statusCached st = true := by
  obtain ⟨st', verdict, cached⟩ | ⟨pending', verdict, -⟩ := armVerdict_cases s since kind flags id at_ chain
  · exact ArmVerdict.refused.inj (verdict.symm.trans refused) ▸ cached
  · simp [verdict] at refused

theorem armVerdict_armed (armed : s.armVerdict since kind flags id at_ chain = .armed t pending) :
    t = max at_ (since + s.armLead) ∧ kind < 5 ∧ (at_ < since + s.armLead → hasBit flags 0 = true) := by
  obtain ⟨st', verdict, -⟩ | ⟨pending', verdict, passes⟩ := armVerdict_cases s since kind flags id at_ chain
  · simp [verdict] at armed
  · exact ⟨(ArmVerdict.armed.inj (verdict.symm.trans armed)).1.symm, passes⟩

@[simp] theorem raise_up (s : State) (opcode unit : Nat) (payload : List Byte) : (s.raise opcode unit payload).up = s.up :=
  Reports.at (raise_bare s opcode unit payload).symm State.up

@[simp] theorem updateState_up (s : State) (kind event id : Nat) : (s.updateState kind event id).up = s.up := raise_up _ _ _ _

@[simp] theorem bump_up (s : State) (id idx n : Nat) : (s.bump id idx n).up = s.up := by
  unfold State.bump
  split <;> rfl

/-- An arm stands in place of an earlier one of its kind (R550). -/
theorem tget_arm (s : State) (kind id : Nat) (t : Ns) (immediate pending rollback : Bool) :
    tget (s.arm kind id t immediate pending rollback).up.arms kind =
      some { imageId := id, instant := t, immediate := immediate, pending := pending, rollback := rollback } := by
  unfold State.arm
  dsimp only
  split
  · exact tget_tput_same _ _ _
  · rw [updateState_up]
    exact tget_tput_same _ _ _

variable {p : List Byte}

theorem updateArmBody_refused (refused : s.armVerdict (s.admittedTb r) (fld r.payload 0 1) (fld r.payload 1 1) (fld r.payload 4 4)
    (fld r.payload 8 8) false = .refused st) : updateArmBody r s = fail st s := by
  simp only [updateArmBody, refused]

theorem updateArmBody_armed (armed : s.armVerdict (s.admittedTb r) (fld r.payload 0 1) (fld r.payload 1 1) (fld r.payload 4 4)
    (fld r.payload 8 8) false = .armed t pending) :
    updateArmBody r s = .doneThen stOk (u64 t ++ u8 (bit pending) ++ zeros 3)
      (s.arm (fld r.payload 0 1) (fld r.payload 4 4) t (hasBit (fld r.payload 1 1) 0) pending false)
      (fun s => s.passArm (fld r.payload 0 1) (fld r.payload 1 1) (fld r.payload 4 4) (fld r.payload 8 8)) := by
  simp only [updateArmBody, armed]

/-- CHAIN_ARM answers a refusal in its payload (Table 15.6; log entry 43). -/
theorem chainArmBody_refused (refused : s.armVerdict (s.admittedTb r) (fld r.payload 0 1) (fld r.payload 1 1) (fld r.payload 4 4)
    (fld r.payload 8 8) true = .refused st) :
    chainArmBody r s = ok (u8 (if st = stTooLate then 2 else 3) ++ zeros 3 ++ u64 0) s := by
  simp only [chainArmBody, refused]

theorem chainArmBody_armed (armed : s.armVerdict (s.admittedTb r) (fld r.payload 0 1) (fld r.payload 1 1) (fld r.payload 4 4)
    (fld r.payload 8 8) true = .armed t pending) :
    chainArmBody r s = .doneThen stOk (u8 (bit pending) ++ zeros 3 ++ u64 t)
      (s.arm (fld r.payload 0 1) (fld r.payload 4 4) t (hasBit (fld r.payload 1 1) 0) pending false)
      (fun s => s.passArm (fld r.payload 0 1) (fld r.payload 1 1) (fld r.payload 4 4) (fld r.payload 8 8)) := by
  simp only [chainArmBody, armed]

/-- UPDATE_ROLLBACK arms the firmware of the inactive slot (R557). -/
theorem updateRollbackBody_armed (stamped : fld r.payload 4 8 ≠ 0) (verified : s.inactive.state = 1)
    (fresh : s.num 0x9880 0 ≤ s.inactive.image.epoch)
    (armed : s.armVerdict (s.admittedTb r) 0 (fld r.payload 1 1) s.inactive.image.id (fld r.payload 4 8) false = .armed t pending) :
    updateRollbackBody r s = .doneThen stOk (u64 t) (s.arm 0 s.inactive.image.id t (hasBit (fld r.payload 1 1) 0) false true)
      (fun x => x.passArm 0 (fld r.payload 1 1) s.inactive.image.id (fld r.payload 4 8)) := by
  simp only [updateRollbackBody, stamped, verified, Nat.not_lt.mpr fresh, armed, ne_eq, not_true_eq_false, or_self, if_false]

/-- UPDATE_DISARM drops the arm of its kind and no other. -/
theorem updateDisarmBody_drops {x : Arm} (inRange : fld r.payload 0 1 < 5) (stands : tget s.up.arms (fld r.payload 0 1) = some x) :
    ∃ u, updateDisarmBody r s = ok [] u ∧ u.up.arms = tdel s.up.arms (fld r.payload 0 1) ∧ u.up.images = s.up.images := by
  simp only [updateDisarmBody, Nat.not_le.mpr inRange, stands, if_false]
  refine ⟨_, rfl, ?_⟩
  split <;> exact ⟨rfl, rfl⟩

theorem updateDisarmBody_none (inRange : fld r.payload 0 1 < 5) (none_ : tget s.up.arms (fld r.payload 0 1) = none) :
    updateDisarmBody r s = fail stState s := by
  simp only [updateDisarmBody, Nat.not_le.mpr inRange, none_, if_false]

end

/-! ### Erasing and listing (Table 15.6) -/

section

variable {r : Req} {s : State}

theorem imageEraseBody_unknown (unknown : s.imageStates.filter (fun e => e.1.id == fld r.payload 0 4) = []) :
    imageEraseBody r s = fail stRange s := by
  simp only [imageEraseBody, unknown, List.isEmpty_nil, if_true]

theorem imageEraseBody_erases (known : s.imageStates.filter (fun e => e.1.id == fld r.payload 0 4) ≠ [])
    (free : (s.imageStates.filter (fun e => e.1.id == fld r.payload 0 4)).any (fun e =>
      e.2 == 2 || e.2 == 3 || s.imageLoaded e.1) = false)
    (unarmed : s.up.arms.any (fun e => e.2.imageId == fld r.payload 0 4) = false) :
    imageEraseBody r s = ok [] (s.eraseImage (fld r.payload 0 4)).cardOn := by
  simp only [imageEraseBody, List.isEmpty_iff, known, free, unarmed, Bool.false_eq_true, or_self, if_false]

theorem eraseImage_leaves_none (s : State) (id : Nat) : ∀ i ∈ (s.eraseImage id).up.images, i.id ≠ id := fun i left => by
  have kept := (List.mem_filter.mp left).2
  simpa using kept

theorem imageListBody_lists (r : Req) (s : State) :
    ∃ p, imageListBody r s = ok p s ∧ fld p 0 2 = s.imageStates.length % 65536 := by
  refine ⟨_, rfl, ?_⟩
  simp only [List.append_assoc]
  exact fld_le_append 2 _ _

theorem State.firmwareState_lt (s : State) : s.firmwareState < 256 := by
  unfold State.firmwareState
  (repeat' split) <;> decide

/-- UPDATE_STATUS answers Table 15.6. -/
theorem updateStatusBody_answers (r : Req) (s : State) : ∃ p, updateStatusBody r s = ok p s ∧ p.length = 24 ∧
    fld p 9 1 = s.firmwareState ∧ fld p 8 1 = s.up.active % 256 := by
  refine ⟨_, rfl, by simp, ?_, ?_⟩
  · simp only [List.append_assoc]
    rw [fld_append_right _ _ (by simp), fld_append_right _ _ (by simp)]
    simp only [u64_length, u8_length]
    exact (fld_le_append 1 _ _).trans (Nat.mod_eq_of_lt s.firmwareState_lt)
  · simp only [List.append_assoc]
    rw [fld_append_right _ _ (by simp)]
    simp only [u64_length]
    exact fld_le_append 1 _ _

end

/-! ### The Grand Chain and the card (R541, R543, R548) -/

section

variable {r : Req} {s : State}

theorem chainFetchBody_answers {i : Image} (found : s.held.find? (fun i => i.id == fld r.payload 0 4) = some i)
    (some_ : 1 ≤ fld r.payload 8 2) (few : fld r.payload 8 2 ≤ 1024)
    (inside : fld r.payload 4 4 + fld r.payload 8 2 ≤ i.payload.length) :
    chainFetchBody r s = ok (u32 (fld r.payload 0 4) ++ u32 (fld r.payload 4 4) ++ u16 (fld r.payload 8 2) ++ u16 0 ++
      slice i.payload (fld r.payload 4 4) (fld r.payload 8 2)) s := by
  have passes : ¬ (fld r.payload 8 2 = 0 ∨ 1024 < fld r.payload 8 2 ∨
      i.payload.length < fld r.payload 4 4 + fld r.payload 8 2) := by omega
  simp only [chainFetchBody, found, passes, if_false]

variable {files : List ImageFile}

/-- The card as SD_SCAN finds it, with the lane that waits for its answer. -/
def cardAsked (files : List ImageFile) (r : Req) : CardRead := CardRead.start files (some (r.src.endpoint, r.lane.toNat))

theorem sdScanBody_reads (allowed : s.cardAllowed = true) (free : s.up.card = none) : sdScanBody files r s =
    let x := s.cardRun (cardAsked files r) (cardAsked files r).left
    if x.1.left = [] ∧ x.2.fromCard = false then .done x.1.answer.1 x.1.answer.2 x.2
    else .wait { x.2 with up.card := some x.1 } := by
  simp only [sdScanBody, allowed, free, Bool.not_true, Bool.false_eq_true, if_false, Option.isSome_none, List.isEmpty_iff,
    Bool.not_eq_true']
  rfl

theorem CardRead.answer_cached (c : CardRead) : statusCached c.answer.1 = true := by
  unfold CardRead.answer
  split <;> rfl

end

/-- Settles O53: the bodies of the commands of images and updates past their checks. -/
theorem updateCommandsArmDisarmAndErase : Obligations.UpdateCommandsArmDisarmAndErase := by
  refine ⟨fun r s => ⟨fun ready => ⟨fun t pending armed => ?_, fun st refused => ?_⟩,
      fun ready => ⟨fun t pending armed => ?_, fun st refused => ?_⟩,
      fun ready inRange => ⟨fun x stands => ?_, fun none_ => ?_⟩⟩,
    fun s kind id flags at_ since t pending chain armed => ?_,
    fun r s ready stamped verified fresh t pending armed => next_of_doneThen ready (updateRollbackBody_armed stamped verified fresh armed),
    fun r s ready => ⟨fun unknown => ?_, fun known free unarmed => ⟨?_, eraseImage_leaves_none _ _⟩⟩,
    fun r s => ⟨fun ready => ?_, fun ready => ?_, fun ready allowed free quiet => ?_, fun files ready allowed free => ?_,
      fun ready => ?_, fun ready => ?_⟩⟩
  · exact next_of_doneThen ready (updateArmBody_armed armed)
  · exact shotas_done ready (armVerdict_refused_cached refused) (updateArmBody_refused refused)
  · exact next_of_doneThen ready (chainArmBody_armed armed)
  · exact shotas_ok ready (chainArmBody_refused refused)
  · obtain ⟨u, drops, arms, images⟩ := updateDisarmBody_drops inRange stands
    obtain ⟨t, next, reports⟩ := shotas_ok ready drops
    have up : t.up = u.up := reports.at State.up
    exact ⟨t, next, by rw [up, arms, tget_tdel_same], fun k other => by rw [up, arms, tget_tdel_other _ other], by rw [up, images]⟩
  · exact shotas_done ready rfl (updateDisarmBody_none inRange none_)
  · obtain ⟨instant, inRange, immediate⟩ := armVerdict_armed armed
    exact ⟨instant, inRange, immediate, tget_arm s kind id t _ pending false⟩
  · exact shotas_done ready rfl (imageEraseBody_unknown unknown)
  · exact shotas_ok ready (imageEraseBody_erases known free unarmed)
  · refine ⟨fun b verdict => shotas_ok ready ?_, fun b verdict => shotas_ok ready ?_, fun b verdict => shotas_ok ready ?_,
      fun b n verdict => shotas_ok ready ?_, fun b q verdict => next_of_doneThen ready ?_⟩
    all_goals
      show chainOfferBody r _ = _
      simp only [chainOfferBody, verdict]
  · exact fun i found some_ few inside => shotas_ok ready (chainFetchBody_answers found some_ few inside)
  · exact shotas_ok ready ((sdScanBody_reads allowed free).trans (if_pos ⟨rfl, quiet⟩))
  · refine ⟨fun done quiet => ?_, fun goesOn => ?_⟩
    · exact shotas_done ready (CardRead.answer_cached _) ((sdScanBody_reads allowed free).trans (if_pos ⟨done, quiet⟩))
    · refine shotas_wait ready ((sdScanBody_reads allowed free).trans (if_neg fun ended => ?_))
      rcases goesOn with left | reading
      · exact left ended.1
      · exact Bool.false_ne_true (ended.2.symm.trans reading)
  · obtain ⟨p, answers, count⟩ := imageListBody_lists r (s.taken imageListCommand r)
    exact ⟨p, shotas_ok ready answers, count⟩
  · obtain ⟨p, answers, length, state, active⟩ := updateStatusBody_answers r (s.taken updateStatusCommand r)
    exact ⟨p, shotas_ok ready answers, length, state, active⟩

end Sys2Proof.Machine

/-! ## Images and updates (spec chapter 15): the events -/

namespace Sys2Proof.Machine

/-! ### Accepting an image (R535, R539, R541, R550) -/

section

variable (s : State) (i : Image)

/-- What telling, offering and arming leave alone: the receipt, the store and the card. -/
def Update.shelf (u : Update) : Option Receipt × List Image × Option CardRead := (u.receipt, u.images, u.card)

@[simp] theorem send_up (dst : Source) (express : Bool) (bytes : List Byte) : (s.send dst express bytes).up = s.up :=
  Reports.at (send_bare s dst express bytes).symm State.up

theorem chainSend_shelf (m : Mac) (opcode : Nat) (payload : List Byte) :
    (s.chainSend m opcode payload).up.shelf = s.up.shelf := by
  unfold State.chainSend State.peerPut
  split
  · rw [send_up]
    rfl
  · rfl

@[simp] theorem offerDownstream_shelf : (s.offerDownstream i).up.shelf = s.up.shelf := by
  unfold State.offerDownstream
  split
  · exact chainSend_shelf _ _ _ _
  · rfl

@[simp] theorem armMissed_arms (kind : Nat) (x : Arm) : (s.armMissed kind x).up.arms = tdel s.up.arms kind := by
  unfold State.armMissed
  rw [updateState_up, bump_up]
  split <;> rfl

@[simp] theorem armMissed_shelf (kind : Nat) (x : Arm) : (s.armMissed kind x).up.shelf = s.up.shelf := by
  unfold State.armMissed
  rw [updateState_up, bump_up]
  split <;> rfl

@[simp] theorem resolveArm_shelf : (s.resolveArm i).up.shelf = s.up.shelf := by
  unfold State.resolveArm
  split
  · rfl
  · split
    · rfl
    · split
      · rw [updateState_up]
        rfl
      · exact armMissed_shelf _ _ _

/-- An accepted image ends its receipt and, but for firmware, stands in the store; the card stays (R535). -/
theorem acceptImage_shelf : (s.acceptImage i).up.shelf =
    (none, if i.kind = 0 then s.up.images else s.up.images ++ [{ i with accepted := true }], s.up.card) := by
  have kind : ({ i with accepted := true } : Image).kind = i.kind := rfl
  unfold State.acceptImage
  dsimp only
  rw [resolveArm_shelf]
  split
  all_goals
    simp only [offerDownstream_shelf, updateState_up, kind]
    split <;> rfl

theorem acceptImage_card : (s.acceptImage i).up.card = s.up.card := congrArg (fun x => x.2.2) (acceptImage_shelf s i)

end

/-! ### IMAGE_RECEIVED (R535) -/

section

variable {s : State} {x : Receipt} {ok : Bool}

/-- Check 5 of R535, and for firmware the readback. -/
def Receipt.good (x : Receipt) (ok : Bool) : Bool :=
  decide (sha256 x.image.payload = x.image.digest) && (x.image.kind != 0 || ok)

/-- A receipt that has ended: accepted, or dropped and counted. -/
def State.judged (s : State) (x : Receipt) (ok : Bool) : State :=
  if x.good ok then s.acceptImage x.image else { s with up.receipt := none }.imageFailed x.image.kind x.image.id

theorem imageReceived_none (none_ : s.up.receipt = none) : s.imageReceived ok = s := by
  simp only [State.imageReceived, none_]

theorem imageReceived_peer (received : s.up.receipt = some x) (fetched : x.from_ ≠ none) (whole : x.image.complete = true) :
    s.imageReceived ok = (s.judged x ok).cardOn := by
  obtain ⟨m, from_⟩ := Option.ne_none_iff_exists'.mp fetched
  simp only [State.imageReceived, received, from_, whole, Bool.not_true, Bool.false_eq_true, and_false, if_false]
  split
  · contradiction
  · rfl

/-- A card's file counts as accepted with its image. -/
theorem imageReceived_card {c : CardRead} (received : s.up.receipt = some x) (read : x.from_ = none) (card : s.up.card = some c)
    (good : x.good ok = true) : s.imageReceived ok =
      ({ s.acceptImage x.image with up.card := some { c with accepted := c.accepted + 1, failed := c.failed } } : State).cardOn := by
  have check : (decide (sha256 x.image.payload = x.image.digest) && (x.image.kind != 0 || ok)) = true := good
  simp only [State.imageReceived, received, read, check, acceptImage_card, card, Option.isSome_none, Bool.false_eq_true, false_and,
    if_false, if_true, Bool.not_true, Bool.or_false, bit]

end

/-! ### The events as they act (R542, R547, R550, R554, R596) -/

section

variable {dt : Ns} {s u : State}

/-- What CHAIN_RECEIVE_TIMEOUT does: a receipt that has stalled stops and keeps what it holds (R542). -/
theorem chainReceiveTimeout_leads {x : Receipt} (running : (s.begin dt).running = true)
    (received : (s.begin dt).up.receipt = some x) (fetched : x.from_ ≠ none) (part : x.image.complete = false)
    (effect : (if x.lastFetch + 60 * sec ≤ (s.begin dt).clk.mono then
      { s.begin dt with up.receipt := none
                        up.stopped := (s.begin dt).up.stopped ++ [{ x with stoppedAt := some (s.begin dt).clk.mono }] }.cardOn
      else s.begin dt) = u) : Leads (.chainReceiveTimeout dt) s u := by
  have exec_eq : exec (.chainReceiveTimeout dt) s = execChainReceiveTimeout dt s := rfl
  unfold execChainReceiveTimeout at exec_eq
  refine leads_of_event exec_eq running ?_
  simp only [received, Option.isSome_iff_ne_none, ne_eq, fetched, not_false_eq_true, part, Bool.not_false, true_and, effect]

/-- What is left of the stopped receipts (R542). -/
theorem partialImageExpiry_leads (running : (s.begin dt).running = true) : ∃ l, Leads (.partialImageExpiry dt) s
    { s.begin dt with up.stopped := l } ∧ ∀ x, x ∈ l ↔ x ∈ (s.begin dt).up.stopped ∧
      ∀ at_, x.stoppedAt = some at_ → (s.begin dt).clk.mono < at_ + 86400 * sec := by
  have exec_eq : exec (.partialImageExpiry dt) s = execPartialImageExpiry dt s := rfl
  unfold execPartialImageExpiry at exec_eq
  refine ⟨_, leads_of_event exec_eq running rfl, fun x => ?_⟩
  rw [List.mem_filter]
  refine and_congr_right fun _ => ?_
  cases x.stoppedAt <;> simp

theorem armMissed_leads {kind : Nat} {x : Arm} (running : (s.begin dt).running = true)
    (stands : tget (s.begin dt).up.arms kind = some x) (pending : x.pending = true)
    (effect : (if x.instant ≤ (s.begin dt).tb then (s.begin dt).armMissed kind x else s.begin dt) = u) :
    Leads (.armMissed dt kind) s u := by
  have exec_eq : exec (.armMissed dt kind) s = execArmMissed dt kind s := rfl
  unfold execArmMissed at exec_eq
  refine leads_of_event exec_eq running ?_
  simp only [stands, pending, true_and, effect]

/-- The selector has turned, with the final output-chain cycle due (Table 15.5). -/
def State.selecting (s : State) : State :=
  if s.up.selectorTurned then s else { s with oc.due := true, up.selectorTurned := true }

theorem switchOver_near {at_ : Ns} (armed : s.switchAt = some at_) (near : at_ ≤ s.tb + 50 * ms) :
    s.switchOver = if at_ ≤ s.tb then s.selecting.enterReset 6 else s.selecting := by
  have tb : s.selecting.tb = s.tb := by
    unfold State.selecting
    split <;> rfl
  have switched : s.switchOver = if at_ ≤ s.selecting.tb then s.selecting.enterReset 6 else s.selecting := by
    simp only [State.switchOver, armed, Nat.not_lt.mpr near, if_false]
    rfl
  rw [switched, tb]

theorem switchOver_far {at_ : Ns} (armed : s.switchAt = some at_) (far : s.tb + 50 * ms < at_) : s.switchOver = s := by
  simp only [State.switchOver, armed, far, if_true]

theorem switchOver_none (none_ : s.switchAt = none) : s.switchOver = s := by
  simp only [State.switchOver, none_]

/-- The epoch floor follows the firmware that has been confirmed, and does not fall (R539). -/
def State.raiseFloor (s : State) : State :=
  if s.num 0x9880 0 < s.running_.epoch then s.setValue 0x9880 0 (.num s.running_.epoch) else s

theorem raiseFloor_num (s : State) : s.num 0x9880 0 ≤ s.raiseFloor.num 0x9880 0 := by
  unfold State.raiseFloor
  split
  · next below =>
    rw [State.num, State.num, State.value_setValue_same]
    exact Nat.le_of_lt below
  · exact Nat.le_refl _

/-- The trial is over (R539). -/
def State.endTrial (s : State) : State := { s with up.trialSince := none, up.trialWatchdogs := 0 }

theorem confirmTrial_over {t : Ns} (trial : s.up.trialSince = some t) (ended : t + s.num 0x9806 * sec ≤ s.clk.mono) :
    Reports s.endTrial.raiseFloor s.confirmTrial := by
  simp only [State.confirmTrial, trial, Nat.not_lt.mpr ended, if_false]
  exact (raise_bare _ _ _ _).symm

/-- TRIAL_TIMEOUT of a trial that is over confirms it. -/
theorem trialTimeout_confirms {t : Ns} (running : (s.begin dt).running = true) (trial : (s.begin dt).up.trialSince = some t)
    (ended : t + (s.begin dt).num 0x9806 * sec ≤ (s.begin dt).clk.mono) :
    ∃ u, exec (.trialTimeout dt) s = .next u ∧ u.up.trialSince = none ∧ (s.begin dt).num 0x9880 0 ≤ u.num 0x9880 0 := by
  obtain ⟨u, next, reports⟩ := leads_of_event_reports (i := .trialTimeout dt) rfl running (confirmTrial_over trial ended)
  have up : u.up = (s.begin dt).endTrial.raiseFloor.up := reports.at State.up
  refine ⟨u, next, ?_, ?_⟩
  · rw [up, State.raiseFloor]
    split <;> rfl
  · have same : (s.begin dt).endTrial.num 0x9880 0 = (s.begin dt).num 0x9880 0 := State.num_congr rfl rfl rfl _ _
    rw [reports.num, ← same]
    exact raiseFloor_num _

theorem confirmTrial_early {t : Ns} (trial : s.up.trialSince = some t) (early : s.clk.mono < t + s.num 0x9806 * sec) :
    s.confirmTrial = s := by
  simp only [State.confirmTrial, trial, early, if_true]

/-- CARD_INSERT reads an allowed card, and counts another (R547). -/
theorem cardInsert_leads {files : List ImageFile} (running : (s.begin dt).running = true)
    (effect : (if (s.begin dt).cardAllowed = true then { s.begin dt with up.card := some (CardRead.start files none) }.cardOn
      else (s.begin dt).bump 0x98F4) = u) : Leads (.cardInsert dt files) s u := by
  have exec_eq : exec (.cardInsert dt files) s = execCardInsert dt files s := rfl
  unfold execCardInsert at exec_eq
  refine leads_of_event exec_eq running (Eq.trans ?_ effect)
  cases (s.begin dt).cardAllowed <;> simp only [Bool.not_true, Bool.not_false, Bool.false_eq_true, if_true, if_false]

theorem cardRemoved_none (none_ : s.up.card = none) : s.cardRemoved = s := by
  simp only [State.cardRemoved, none_]

/-- The image that was being read from the card fails (R596). -/
theorem cardRemoved_fails {c : CardRead} {x : Receipt} (card : s.up.card = some c) (alone : c.waiter = none)
    (received : s.up.receipt = some x) (read : x.from_ = none) :
    s.cardRemoved = ({ s with up.card := none, up.receipt := none }.imageFailed x.image.kind x.image.id) := by
  simp only [State.cardRemoved, card, received, read, alone, Option.isSome_none, Bool.false_eq_true, if_false]

theorem rollBack_up (s : State) (k : Nat) : (s.rollBack k).up.active = 1 - s.up.active ∧ (s.rollBack k).up.trialSince = none := by
  rw [State.rollBack, State.enterReset_up, updateState_up, bump_up]
  exact ⟨rfl, rfl⟩

/-- What an event of every power state leaves, where its effect is known. -/
theorem leads_of_always {i : Instr} {f : State → State} (exec_eq : exec i s = always dt f s) (effect : f (s.begin dt) = u) :
    Leads i s u := by
  subst effect
  rw [Leads, exec_eq]
  exact always_leads dt f s

theorem trialRunTimeout_leads (effect : (if (s.begin dt).powered = true ∧ (s.begin dt).up.trialSince.isSome = true ∧
      (!(s.begin dt).up.ranSince) = true ∧ (s.begin dt).up.startAt + 10 * sec ≤ (s.begin dt).clk.mono then
        (s.begin dt).rollBack 4 else s.begin dt) = u) : Leads (.trialRunTimeout dt) s u := leads_of_always rfl effect

end

/-- Settles O54: the received image, the receipts, the arms, the switch-over, the trial and the card, each by its event's cases. -/
theorem updatesAreReceivedSwitchedAndTried : Obligations.UpdatesAreReceivedSwitchedAndTried := by
  refine ⟨fun dt s running => ?_, fun s i => ⟨congrArg Prod.fst (acceptImage_shelf s i), fun node => ?_⟩, fun dt s => ?_⟩
  · intro a
    have receives {ok : Bool} {u : State} (effect : a.imageReceived ok = u) : Leads (.imageReceived dt ok) s u :=
      leads_of_event (f := fun s => s.imageReceived ok) rfl running effect
    have switches {u : State} (effect : a.switchOver = u) : Leads (.switchOver dt) s u := leads_of_event rfl running effect
    refine ⟨fun none_ ok => receives (imageReceived_none none_),
      fun x received fetched whole ok good => receives ((imageReceived_peer received fetched whole).trans (congrArg _ (if_pos good))),
      fun x received fetched whole ok bad => receives ((imageReceived_peer received fetched whole).trans
        (congrArg _ (if_neg (Bool.eq_false_iff.mp bad)))),
      fun x c received read card ok good => receives (imageReceived_card received read card good),
      fun x received fetched part => ⟨fun stalled => chainReceiveTimeout_leads running received fetched part (if_pos stalled),
        fun early => chainReceiveTimeout_leads running received fetched part (if_neg (Nat.not_le.mpr early))⟩, ?_,
      fun kind x stands pending => ⟨fun come => armMissed_leads running stands pending (if_pos come),
        fun early => armMissed_leads running stands pending (if_neg (Nat.not_le.mpr early))⟩,
      fun kind x => by rw [armMissed_arms, tget_tdel_same], fun at_ armed => ?_,
      fun none_ => switches (switchOver_none none_), fun t trial => ⟨fun ended => ?_, fun early => ?_⟩,
      fun files => ⟨fun allowed => ?_, fun barred => ?_⟩, fun none_ => ?_, fun c x card alone received read => ?_⟩
    · obtain ⟨l, ⟨t, next, reports⟩, left⟩ := partialImageExpiry_leads running
      have up : t.up = { a.up with stopped := l } := reports.at State.up
      exact ⟨t, next, by rw [up], fun x => by rw [up]; exact left x⟩
    · intro b
      refine ⟨fun come => ?_, fun early near => ?_, fun far => switches (switchOver_far armed far)⟩
      · exact switches ((switchOver_near armed (Nat.le_trans come (Nat.le_add_right _ _))).trans (if_pos come))
      · exact switches ((switchOver_near armed near).trans (if_neg (Nat.not_le.mpr early)))
    · exact trialTimeout_confirms running trial ended
    · exact leads_of_event rfl running (confirmTrial_early trial early)
    · exact cardInsert_leads running (if_pos allowed)
    · exact cardInsert_leads running (if_neg (Bool.eq_false_iff.mp barred))
    · exact leads_of_event rfl running (cardRemoved_none none_)
    · exact leads_of_event rfl running (cardRemoved_fails card alone received read)
  · have images : (s.acceptImage i).up.images = s.up.images ++ [{ i with accepted := true }] :=
      (congrArg (fun x => x.2.1) (acceptImage_shelf s i)).trans (if_neg node)
    rw [images]
    exact List.mem_append_right _ (List.mem_singleton_self _)
  · intro a
    refine ⟨fun powered trial stopped late => ⟨trialRunTimeout_leads (if_pos ?_), rollBack_up a 4⟩,
      fun goesOn => trialRunTimeout_leads (if_neg fun due => ?_)⟩
    · exact ⟨powered, Option.isSome_iff_ne_none.mpr trial, by rw [stopped]; rfl, late⟩
    · obtain ⟨-, trial, stopped, late⟩ := due
      rcases goesOn with none_ | ran | early
      · rw [none_] at trial
        exact Bool.false_ne_true trial
      · rw [ran] at stopped
        exact Bool.false_ne_true stopped
      · exact Nat.not_le.mpr early late

end Sys2Proof.Machine

/-! ## Clock, power and reset (spec chapter 16): the supplies, the pins and the power states -/

namespace Sys2Proof.Machine

/-! ### The passing of time and LAST-GASP (R577, Table 16.5) -/

section

variable (s : State)

@[simp] theorem perfPass_clk (dt : Ns) : (s.perfPass dt).clk = s.clk :=
  foldl_keeps State.clk (fun _ _ => by split <;> [rfl; (split <;> rfl)]) _ s

@[simp] theorem perfPass_pwr (dt : Ns) : (s.perfPass dt).pwr = s.pwr :=
  foldl_keeps State.pwr (fun _ _ => by split <;> [rfl; (split <;> rfl)]) _ s

@[simp] theorem elapse_mono (dt : Ns) : (s.elapse dt).clk.mono = s.clk.mono + dt := by
  unfold State.elapse
  split
  · exact congrArg (fun c : Clock => c.mono + dt) (perfPass_clk s dt)
  · rfl

@[simp] theorem elapse_pwr (dt : Ns) : (s.elapse dt).pwr = s.pwr := by
  unfold State.elapse
  split
  · exact perfPass_pwr s dt
  · rfl

@[simp] theorem gaspCopy_mono : s.gaspCopy.clk.mono = s.clk.mono := by
  unfold State.gaspCopy State.meterCheckpoint
  dsimp only
  split <;> rfl

@[simp] theorem gaspCopy_power : s.gaspCopy.pwr.state = s.pwr.state := by
  unfold State.gaspCopy State.meterCheckpoint
  dsimp only
  split <;> rfl

/-- Step 3 of Table 16.5, where it falls before `finish`. -/
def State.gaspThree (s : State) (finish : Ns) : State :=
  if s.pwr.lastGaspStep < 3 ∧ s.pwr.lastGaspSince + 400 * ms ≤ finish then
    (s.elapse (s.pwr.lastGaspSince + 400 * ms - s.clk.mono)).gaspCopy
  else s

/-- Step 4 of Table 16.5 at `four`, where it falls before `finish`. -/
def State.gaspFour (s : State) (four finish : Ns) : State :=
  if four ≤ finish then (s.elapse (four - s.clk.mono)).enterHold else s

theorem gasp_eq (dt : Ns) : s.gasp dt =
    ((s.gaspThree (s.clk.mono + dt)).gaspFour (s.pwr.lastGaspSince + 500 * ms) (s.clk.mono + dt)).elapse
      (s.clk.mono + dt -
        ((s.gaspThree (s.clk.mono + dt)).gaspFour (s.pwr.lastGaspSince + 500 * ms) (s.clk.mono + dt)).clk.mono) := rfl

variable {s}

theorem elapse_until_le {at_ finish : Ns} (now_ : s.clk.mono ≤ finish) (within : at_ ≤ finish) :
    (s.elapse (at_ - s.clk.mono)).clk.mono ≤ finish := by
  rw [elapse_mono]
  exact (Nat.le_total at_ s.clk.mono).elim (fun past => by rw [Nat.sub_eq_zero_of_le past]; exact now_)
    fun ahead => by rw [Nat.add_sub_cancel' ahead]; exact within

theorem gaspThree_mono_le {finish : Ns} (now_ : s.clk.mono ≤ finish) : (s.gaspThree finish).clk.mono ≤ finish := by
  unfold State.gaspThree
  split
  · next due =>
    rw [gaspCopy_mono]
    exact elapse_until_le now_ due.2
  · exact now_

theorem gaspFour_mono_le {four finish : Ns} (now_ : s.clk.mono ≤ finish) : (s.gaspFour four finish).clk.mono ≤ finish := by
  unfold State.gaspFour
  split
  · next due => exact elapse_until_le now_ due
  · exact now_

theorem gaspThree_power (finish : Ns) : (s.gaspThree finish).pwr.state = s.pwr.state := by
  unfold State.gaspThree
  split
  · rw [gaspCopy_power, elapse_pwr]
  · rfl

theorem gaspFour_power (four finish : Ns) :
    (s.gaspFour four finish).pwr.state = if four ≤ finish then .hold else s.pwr.state := by
  unfold State.gaspFour
  split <;> rfl

theorem gasp_mono (dt : Ns) : (s.gasp dt).clk.mono = s.clk.mono + dt := by
  rw [gasp_eq, elapse_mono]
  exact Nat.add_sub_cancel' (gaspFour_mono_le (gaspThree_mono_le (Nat.le_add_right _ _)))

theorem gasp_power (dt : Ns) : (s.gasp dt).pwr.state =
    if s.pwr.lastGaspSince + 500 * ms ≤ s.clk.mono + dt then .hold else s.pwr.state := by
  rw [gasp_eq, elapse_pwr, gaspFour_power, gaspThree_power]

theorem begin_mono (dt : Ns) : (s.begin dt).clk.mono = s.clk.mono + dt := by
  unfold State.begin State.pass
  split
  · exact gasp_mono dt
  · exact elapse_mono _ dt

/-- LAST-GASP stands in HOLD once 500 ms have passed (log entry 39). -/
theorem begin_power_of_lastGasp (gasping : s.pwr.state = .lastGasp) (dt : Ns) :
    (s.begin dt).pwr.state = .hold ↔ s.pwr.lastGaspSince + 500 * ms ≤ s.clk.mono + dt := by
  have passes : s.begin dt = ({ s with out := [] } : State).gasp dt := if_pos gasping
  have power : (s.begin dt).pwr.state = if s.pwr.lastGaspSince + 500 * ms ≤ s.clk.mono + dt then .hold else s.pwr.state := by
    rw [passes, gasp_power]
  rw [power, gasping]
  split
  · next due => exact iff_of_true rfl due
  · next early => exact iff_of_false Power.noConfusion early

end

/-! ### Entering a power state (R571, R576, R577, R580) -/

section

variable {s : State}

/-- POWER_STATE is told of a change that has taken place. -/
theorem powerState_reports (s : State) (old new : Power) (cause : Nat) : Reports s (s.powerState old new cause) :=
  (raise_bare _ _ _ _).symm

theorem enterLastGasp_power (s : State) (cause : Nat) :
    (s.enterLastGasp cause).pwr.state = .lastGasp ∧ (s.enterLastGasp cause).pwr.lastGaspSince = s.clk.mono :=
  ⟨(powerState_reports _ _ _ _).at (fun s : State => s.pwr.state),
    (powerState_reports _ _ _ _).at (fun s : State => s.pwr.lastGaspSince)⟩

theorem brownOut_unpowered (down : s.powered = false) : s.brownOut = s := by
  rw [State.brownOut, down]
  rfl

@[simp] theorem bump_pwr (s : State) (id idx n : Nat) : (s.bump id idx n).pwr = s.pwr := by
  unfold State.bump
  split <;> rfl

theorem brownOut_off (up : s.powered = true) : s.brownOut.pwr.state = .off := by
  rw [State.brownOut, up]
  rfl

theorem enterReset_pendingStart_congr {t : State} (same : s.pwr.pendingStart = t.pwr.pendingStart) (k : Nat) :
    (s.enterReset k).pwr.pendingStart = (t.enterReset k).pwr.pendingStart := by
  simp only [State.enterReset, same]

/-- A brown-out that ends a LAST-GASP is counted first, which leaves the pending start alone. -/
theorem brownOut_pendingStart (up : s.powered = true) : s.brownOut.pwr.pendingStart = (s.enterReset 1).pwr.pendingStart := by
  have counted (ms_ : Nat) : ((s.bump 0xA0F0).setCounter 0xA02A 0 ms_).pwr.pendingStart = s.pwr.pendingStart :=
    congrArg Supervisor.pendingStart (bump_pwr s _ _ _)
  simp only [State.brownOut, up, Bool.not_true, Bool.false_eq_true, if_false]
  refine enterReset_pendingStart_congr ?_ 1
  split
  · exact counted _
  · rfl

/-- The slow domain's loss forgets the RTC, and its start is a power-on (R571, R574). -/
theorem loseSlow_forgets (kept : s.pwr.slowLost = false) : s.loseSlow.pwr.slowLost = true ∧ s.loseSlow.rtc.valid = false ∧
    s.loseSlow.pwr.pendingStart = some 0 ∧ s.loseSlow.pwr.opSeconds = s.pwr.opCopy := by
  have pending : (s.enterReset 0).pwr.pendingStart = some 0 := by
    unfold State.enterReset
    cases s.pwr.pendingStart with
    | none => rfl
    | some j => exact congrArg some (Nat.min_zero j)
  rw [State.loseSlow, kept]
  exact ⟨rfl, rfl, pending, rfl⟩

theorem awake_hold (hold : s.pwr.state = .hold) : s.awake = false := by rw [State.awake, hold]; rfl
theorem awake_lastGasp (gasping : s.pwr.state = .lastGasp) : s.awake = false := by rw [State.awake, gasping]; rfl
theorem powered_hold (hold : s.pwr.state = .hold) : s.powered = false := by rw [State.powered, hold]

end

/-! ### The commands (R579, R584) -/

section

variable {r : Req} {s : State}

theorem powerHoldBody_key (key : fld r.payload 0 2 = 0x484C) : powerHoldBody r s =
    if s.pwr.state = .lastGasp then fail stState s else .doneThen stOk [] s (fun s => s.enterLastGasp 4) :=
  if_neg (not_not_intro key)

theorem powerHoldBody_noKey (noKey : fld r.payload 0 2 ≠ 0x484C) : powerHoldBody r s = fail stRange s := if_pos noKey

theorem Power.code_lt (p : Power) : p.code < 256 := by cases p <;> decide

theorem powerStatusBody_answers (r : Req) (s : State) : ∃ p, powerStatusBody r s = ok p s ∧ p.length = 24 ∧
    fld p 0 1 = s.pwr.state.code ∧ fld p 4 2 = s.pwr.vinMv % 65536 := by
  refine ⟨_, rfl, ?_, ?_, ?_⟩
  · simp
  · simp only [List.append_assoc]
    exact (fld_le_append 1 _ _).trans (Nat.mod_eq_of_lt (Power.code_lt _))
  · simp only [List.append_assoc]
    rw [fld_append_right _ _ (by simp), fld_append_right _ _ (by simp), fld_append_right _ _ (by simp),
      fld_append_right _ _ (by simp)]
    simp only [u8_length]
    exact fld_le_append 2 _ _

end

/-! ### The events (R571, R575–R581, R609) -/

section

variable {dt : Ns} {s u : State}

theorem lastGaspEntry_low {v : Nat} (awake : (s.begin dt).awake = true) (low : v < 4400)
    (effect : (if v < 4000 then ({ s.begin dt with pwr.vinMv := v } : State).brownOut
      else ({ s.begin dt with pwr.vinMv := v } : State).enterLastGasp 3) = u) : Leads (.lastGaspEntry dt v) s u :=
  leads_of_always rfl ((if_pos ⟨awake, low⟩).trans effect)

theorem lastGaspEntry_else {v : Nat} (else_ : 4400 ≤ v ∨ (s.begin dt).awake = false) :
    Leads (.lastGaspEntry dt v) s (s.begin dt) :=
  leads_of_always rfl (if_neg fun due => else_.elim (Nat.not_le.mpr due.2)
    fun down => Bool.false_ne_true (down.symm.trans due.1))

theorem brownOut_leads (v : Nat) (effect : (if v < 4000 then ({ s.begin dt with pwr.vinMv := v } : State).brownOut
    else s.begin dt) = u) : Leads (.brownOut dt v) s u := leads_of_always rfl effect

theorem slowDomainLost_leads (effect : (if (s.begin dt).pwr.vinMv < 4000 then (s.begin dt).brownOut.loseSlow
    else s.begin dt) = u) : Leads (.slowDomainLost dt) s u := leads_of_always rfl effect

/-- VIN_BELOW_4V: the main domain browns out or, in HOLD, its VIN is lost; then the slow domain may lose VBAT (R571, R579). -/
def State.vinGone (s : State) (b : Nat) : State :=
  let t := if s.brownOut.pwr.state = .hold then { s.brownOut with pwr.vinLost := true } else s.brownOut
  if b < 1800 then t.loseSlow else t

theorem vinBelow4v_leads {v b : Nat} (within : b ≤ 4000) (effect : (if v < 4000 then
    ({ s.begin dt with pwr.vinMv := v, pwr.vbatMv := b } : State).vinGone b else s.begin dt) = u) :
    Leads (.vinBelow4v dt v b) s u := by
  have exec_eq : exec (.vinBelow4v dt v b) s = execVinBelow4v dt v b s := rfl
  have allowed : beyond 0 b 0 = false := by simpa [beyond] using within
  rw [execVinBelow4v, allowed, if_neg Bool.false_ne_true] at exec_eq
  exact leads_of_always exec_eq effect

theorem vinGone_down (s : State) (b : Nat) (else_ : s.pwr.state ≠ .hold) :
    s.vinGone b = if b < 1800 then s.brownOut.loseSlow else s.brownOut := by
  have left : s.brownOut.pwr.state ≠ .hold := by
    cases up : s.powered with
    | true => rw [brownOut_off up]; exact Power.noConfusion
    | false => rwa [brownOut_unpowered up]
  simp only [State.vinGone, left, if_false]

theorem vinGone_hold (s : State) (b : Nat) (hold : s.pwr.state = .hold) : s.vinGone b =
    if b < 1800 then ({ s with pwr.vinLost := true } : State).loseSlow else { s with pwr.vinLost := true } := by
  simp only [State.vinGone, brownOut_unpowered (powered_hold hold), hold, if_true]

theorem vinReturn_leads {v : Nat} (within : v ≤ 6500) (effect : (if 4550 ≤ v ∧ (s.begin dt).pwr.state = .hold ∧
    ((!(s.begin dt).pwr.holdByCommand) = true ∨ (s.begin dt).pwr.vinLost = true) then
      ({ s.begin dt with pwr.vinMv := v } : State).enterReset 7
    else { s.begin dt with pwr.vinMv := v }) = u) : Leads (.vinReturn dt v) s u := by
  have exec_eq : exec (.vinReturn dt v) s = execVinReturn dt v s := rfl
  have allowed : beyond v 0 0 = false := by simpa [beyond] using within
  rw [execVinReturn, allowed, if_neg Bool.false_ne_true] at exec_eq
  refine leads_of_always exec_eq ?_
  exact effect

theorem nreset_leads {low : Ns} (effect : (if low < 10 * us then s.begin dt
    else if (s.begin dt).awake then (s.begin dt).enterReset 2
    else if (s.begin dt).pwr.state = .hold ∧ (s.begin dt).pwr.holdByCommand = true then (s.begin dt).enterReset 7
    else s.begin dt) = u) : Leads (.nreset dt low) s u := by
  have exec_eq : exec (.nreset dt low) s = execNreset dt low s := rfl
  rw [execNreset] at exec_eq
  exact leads_of_always exec_eq effect

theorem fatalRecord_up (s : State) : s.fatalRecord.up = s.up := by
  simp only [State.fatalRecord, State.toLastGasp, State.draw]

/-- The watchdog writes its record; in a trial the second one since the switch-over rolls back (R581, log entry 45). -/
theorem watchdog_leads (up : (s.begin dt).powered = true) (effect : (if (s.begin dt).fatalRecord.up.trialSince.isNone then
      (s.begin dt).fatalRecord.enterReset 3
    else if 1 ≤ (s.begin dt).fatalRecord.up.trialWatchdogs then (s.begin dt).fatalRecord.rollBack 3
    else ({ (s.begin dt).fatalRecord with up.trialWatchdogs := (s.begin dt).fatalRecord.up.trialWatchdogs + 1 } :
      State).enterReset 3) = u) : Leads (.watchdog dt) s u := by
  have exec_eq : exec (.watchdog dt) s = execWatchdog dt s := rfl
  rw [execWatchdog] at exec_eq
  refine leads_of_always exec_eq ?_
  simp only [up, Bool.not_true, Bool.false_eq_true, if_false, effect]

theorem watchdog_unpowered (down : (s.begin dt).powered = false) : Leads (.watchdog dt) s (s.begin dt) := by
  have exec_eq : exec (.watchdog dt) s = execWatchdog dt s := rfl
  rw [execWatchdog] at exec_eq
  refine leads_of_always exec_eq ?_
  simp only [down, Bool.not_false, if_true]

theorem quietEntry_leads (running : (s.begin dt).running = true) (run : (s.begin dt).pwr.state = .run)
    (due : (s.begin dt).quietDue = true) :
    Leads (.quietEntry dt) s (({ s.begin dt with pwr.state := .quiet } : State).bump 0xA0F2) :=
  (leads_of_event rfl running (if_pos ⟨run, due⟩)).butFor (powerState_reports _ _ _ _)

theorem quietExit_leads (running : (s.begin dt).running = true) (quiet : (s.begin dt).pwr.state = .quiet)
    (ended : (s.begin dt).quietDue = false) : Leads (.quietExit dt) s { s.begin dt with pwr.state := .run } :=
  (leads_of_event rfl running (if_pos ⟨quiet, by rw [ended]; rfl⟩)).butFor (powerState_reports _ _ _ _)

theorem quietExit_stays (running : (s.begin dt).running = true) (due : (s.begin dt).quietDue = true) :
    Leads (.quietExit dt) s (s.begin dt) :=
  leads_of_event rfl running (if_neg fun ends => by
    rw [due] at ends
    exact Bool.false_ne_true ends.2)

end

theorem beyond_vin {v : Nat} (above : 6500 < v) : beyond v 0 0 = true := by simpa [beyond] using above
theorem beyond_vbat {b : Nat} (above : 4000 < b) : beyond 0 b 0 = true := by simpa [beyond] using above
theorem beyond_vpa {v : Nat} (above : 6500 < v) : beyond 0 0 v = true := by simpa [beyond] using above

/-- Settles O55: each command, supply, pin and watchdog event by the branches of its effect; LAST-GASP's end by what passes
in `State.gasp`. -/
theorem powerStatesFollowTheSupplies : Obligations.PowerStatesFollowTheSupplies := by
  refine ⟨fun r s => ⟨fun ready => ?_, fun ready => ?_⟩, enterLastGasp_power,
    fun s dt => ⟨begin_mono dt, fun gasping => begin_power_of_lastGasp gasping dt⟩,
    fun s up => ⟨brownOut_off up, brownOut_pendingStart up⟩, fun s kept => loseSlow_forgets kept, fun dt s => ?_⟩
  · intro a
    refine ⟨fun key free => next_of_doneThen ready ((powerHoldBody_key key).trans (if_neg free)),
      fun key gasping => shotas_done ready rfl ((powerHoldBody_key key).trans (if_pos gasping)),
      fun noKey => shotas_done ready rfl (powerHoldBody_noKey noKey)⟩
  · obtain ⟨p, body, length, code, vin⟩ := powerStatusBody_answers r (s.taken powerStatusCommand r)
    exact ⟨p, shotas_ok ready body, length, code, vin⟩
  · intro a
    refine ⟨fun v awake good low => lastGaspEntry_low awake low (if_neg (Nat.not_lt.mpr good)),
      fun v awake low => lastGaspEntry_low awake (Nat.lt_trans low (by decide)) (if_pos low), fun v => lastGaspEntry_else,
      fun v low => brownOut_leads v (if_pos low), fun v good => brownOut_leads v (if_neg (Nat.not_lt.mpr good)),
      fun v b within low else_ => vinBelow4v_leads within ((if_pos low).trans (vinGone_down _ b else_)),
      fun v b within low hold => vinBelow4v_leads within ((if_pos low).trans (vinGone_hold _ b hold)),
      fun v b within good => vinBelow4v_leads within (if_neg (Nat.not_lt.mpr good)),
      fun v b above => if_pos (beyond_vbat above), fun low => slowDomainLost_leads (if_pos low),
      fun good => slowDomainLost_leads (if_neg (Nat.not_lt.mpr good)), fun v within => ⟨fun good hold ends => ?_, fun stays => ?_⟩,
      fun v above => if_pos (beyond_vin above), fun low long => ⟨fun awake => ?_, fun hold held => ?_, fun gasping => ?_⟩,
      fun low short => nreset_leads (if_pos short), fun up none_ => ?_, fun up trial second => ?_, fun up trial first => ?_,
      watchdog_unpowered, quietEntry_leads, quietExit_leads, quietExit_stays⟩
    · exact vinReturn_leads within (if_pos ⟨good, hold, ends.imp_left fun lost => by rw [lost]; rfl⟩)
    · refine vinReturn_leads within (if_neg fun ends => ?_)
      obtain ⟨good, hold, lost⟩ := ends
      rcases stays with low | else_ | ⟨held, kept⟩
      · exact Nat.not_le.mpr low good
      · exact else_ hold
      · rw [held, kept] at lost
        exact lost.elim Bool.false_ne_true Bool.false_ne_true
    · exact nreset_leads ((if_neg (Nat.not_lt.mpr long)).trans (if_pos awake))
    · refine nreset_leads ((if_neg (Nat.not_lt.mpr long)).trans ((if_neg ?_).trans (if_pos ⟨hold, held⟩)))
      rw [awake_hold hold]
      exact Bool.false_ne_true
    · refine nreset_leads ((if_neg (Nat.not_lt.mpr long)).trans ((if_neg ?_).trans (if_neg fun hold => ?_)))
      · rw [awake_lastGasp gasping]
        exact Bool.false_ne_true
      · exact Power.noConfusion (gasping.symm.trans hold.1)
    · refine watchdog_leads up (if_pos ?_)
      rw [fatalRecord_up, none_]
      rfl
    · refine watchdog_leads up ((if_neg ?_).trans (if_pos ?_)) <;> rw [fatalRecord_up]
      · rwa [Option.isNone_iff_eq_none]
      · exact second
    · refine watchdog_leads up ((if_neg ?_).trans ((if_neg ?_).trans ?_)) <;> rw [fatalRecord_up]
      · rwa [Option.isNone_iff_eq_none]
      · rw [first]
        decide
      · rw [first]

end Sys2Proof.Machine

/-! ## Clock, power and reset (spec chapter 16): the RTC, the counts and the pins -/

namespace Sys2Proof.Machine

/-! ### RTC_SET (R566) -/

section

variable {r : Req} {s : State} {v : Nat × Nat}

/-- A value waits for its load, with the commands that gave it and the ones before it. -/
def RtcSetReq.asked (s : State) (r : Req) : RtcSetReq :=
  { value := r.payload.take 7, at_ := s.secondEdge, class_ := classCode r.src
    waiters := (match s.rtc.set with | some x => x.waiters | none => []) ++ [(r.src.endpoint, r.lane.toNat)] }

theorem rtcSetBody_waits (parsed : rtcParse (r.payload.take 7) = some v) (from2020 : rtcEpoch ≤ (v.1 : Int)) :
    rtcSetBody r s = if s.timeValid then fail stState s else .wait { s with rtc.set := some (RtcSetReq.asked s r) } := by
  have allowed : beforeRtc v.1 = false := decide_eq_false (Int.not_lt.mpr from2020)
  simp only [rtcSetBody, parsed, allowed, Bool.false_eq_true, if_false]
  rfl

theorem rtcSetBody_invalid (invalid : rtcParse (r.payload.take 7) = none) : rtcSetBody r s = fail stRange s := by
  simp only [rtcSetBody, invalid]

end

/-! ### The RTC's second (R565, R566, R568) -/

section

variable {s : State} {x : RtcSetReq}

/-- A rollover is due, and the slow domain is there to see it. -/
theorem rtcSecond_due (kept : s.pwr.slowLost = false) (due : s.rtc.secondAt + sec - ms ≤ s.clk.mono) : s.rtcSecond =
    match s.rtc.set with
    | some x => if x.at_ ≤ s.clk.mono then s.rtcLoad x else s.rtcTick
    | none => if s.rtc.load ∧ s.timeValid then s.rtcDisciplined else s.rtcTick :=
  if_neg fun stays => stays.elim (fun lost => Bool.false_ne_true (kept.symm.trans lost)) (Nat.not_lt.mpr due)

theorem rtcSecond_set (kept : s.pwr.slowLost = false) (due : s.rtc.secondAt + sec - ms ≤ s.clk.mono)
    (asked : s.rtc.set = some x) : s.rtcSecond = if x.at_ ≤ s.clk.mono then s.rtcLoad x else s.rtcTick := by
  simp only [rtcSecond_due kept due, asked]

theorem rtcSecond_free (kept : s.pwr.slowLost = false) (due : s.rtc.secondAt + sec - ms ≤ s.clk.mono)
    (free : s.rtc.set = none) :
    s.rtcSecond = if s.rtc.load = true ∧ s.timeValid = true then s.rtcDisciplined else s.rtcTick := by
  simp only [rtcSecond_due kept due, free]

theorem rtcSecond_lost (lost : s.pwr.slowLost = true) : s.rtcSecond = s := if_pos (.inl lost)

/-- The RTC counts on, and its weekday counter advances as a day ends (R565). -/
theorem rtcTick_counts (inside : s.rtc.seconds + 1 ≠ rtcWrap) :
    s.rtcTick.rtc.seconds = s.rtc.seconds + 1 ∧ s.rtcTick.rtc.secondAt = s.clk.mono ∧
    ((s.rtc.seconds + 1) % 86400 = 0 → s.rtcTick.rtc.weekday = (s.rtc.weekday + 1) % 7) ∧
    ((s.rtc.seconds + 1) % 86400 ≠ 0 → s.rtcTick.rtc.weekday = s.rtc.weekday) := by
  have next : (if s.rtc.seconds + 1 = rtcWrap then rtcEpoch.toNat else s.rtc.seconds + 1) = s.rtc.seconds + 1 := if_neg inside
  refine ⟨next, rfl, fun midnight => ?_, fun within => ?_⟩ <;> simp only [State.rtcTick, next]
  · exact if_pos midnight
  · exact if_neg within

end

/-! ### The slow domain's counts and wakes (R570, R574) -/

section

variable {dt : Ns} {s u : State}

/-- One more operating second; on a full minute the two counts are copied to MRAM (R574). -/
def State.opSecond (s : State) : State :=
  let n := (s.pwr.opSeconds + 1) % pow32
  let t := { s with pwr.opSeconds := n, pwr.opSecondAt := s.pwr.opSecondAt + sec }
  if n % 60 = 0 then { t with pwr.opCopy := n, pwr.cyclesCopy := s.pwr.cycles } else t

theorem operatingSecond_leads (effect : (if (!(s.begin dt).powered) = true ∨ (s.begin dt).clk.mono < (s.begin dt).pwr.opSecondAt + sec then
    s.begin dt else (s.begin dt).opSecond) = u) : Leads (.operatingSecond dt) s u := by
  have exec_eq : exec (.operatingSecond dt) s = execOperatingSecond dt s := rfl
  rw [execOperatingSecond] at exec_eq
  exact leads_of_always exec_eq effect

theorem opSecond_counts (s : State) : s.opSecond.pwr.opSeconds = (s.pwr.opSeconds + 1) % pow32 ∧
    s.opSecond.pwr.opSecondAt = s.pwr.opSecondAt + sec ∧
    (s.opSecond.pwr.opSeconds % 60 = 0 → s.opSecond.pwr.opCopy = s.opSecond.pwr.opSeconds) := by
  unfold State.opSecond
  dsimp only
  split
  · exact ⟨rfl, rfl, fun _ => rfl⟩
  · next between => exact ⟨rfl, rfl, fun full => absurd full between⟩

theorem periodicWake_leads (effect : (if (!(s.begin dt).wakeDue) = true then s.begin dt
    else if (s.begin dt).awake then ({ s.begin dt with pwr.wokeAt := (s.begin dt).rtcNs } : State).bump 0xA0F1
    else if (s.begin dt).pwr.state = .hold ∧ (s.begin dt).pwr.holdByCommand = true ∧ ((s.begin dt).slowValue 0xA013).int ≠ 0 ∧
        4550 ≤ (s.begin dt).pwr.vinMv then
      ({ s.begin dt with pwr.wokeAt := (s.begin dt).rtcNs } : State).enterReset 7
    else { s.begin dt with pwr.wokeAt := (s.begin dt).rtcNs }) = u) : Leads (.periodicWake dt) s u := by
  have exec_eq : exec (.periodicWake dt) s = execPeriodicWake dt s := rfl
  rw [execPeriodicWake] at exec_eq
  exact leads_of_always exec_eq effect

end

/-! ### Discipline (R568) -/

section

variable {dt : Ns} {s u : State}

/-- The RTC has kept near network time: its error is noted and the trim follows the frequency (R568). -/
def State.trimmed (s : State) : State :=
  let error := s.rtcUtc - s.utcNs
  let interval : Int := (s.clk.mono - s.rtc.lastCompare : Nat)
  let f := (error - s.rtc.lastError) * 10000000 / interval
  let trim := s.int 0xA011
  { s with rtc.lastCompare := s.clk.mono, rtc.lastError := error }.setValue 0xA011 0
    (.num (clampTo (-500) 500 (trim + Int.tdiv (f - trim) 16)))

theorem rtcDiscipline_leads (running : (s.begin dt).running = true) (effect :
    (if (!(s.begin dt).timeValid) = true ∨ (!(s.begin dt).rtc.valid) = true ∨ (s.begin dt).rtc.load = true ∨
      (s.begin dt).clk.mono < (s.begin dt).rtc.lastCompare + 1024 * sec then s.begin dt
    else if 100 * ms ≤ ((s.begin dt).rtcUtc - (s.begin dt).utcNs).natAbs then { s.begin dt with rtc.load := true }
    else (s.begin dt).trimmed) = u) : Leads (.rtcDiscipline dt) s u := by
  have exec_eq : exec (.rtcDiscipline dt) s = execRtcDiscipline dt s := rfl
  rw [execRtcDiscipline] at exec_eq
  exact leads_of_event exec_eq running effect

theorem rtcDiscipline_due (running : (s.begin dt).running = true) (timed : (s.begin dt).timeValid = true)
    (valid : (s.begin dt).rtc.valid = true) (free : (s.begin dt).rtc.load = false)
    (due : (s.begin dt).rtc.lastCompare + 1024 * sec ≤ (s.begin dt).clk.mono)
    (effect : (if 100 * ms ≤ ((s.begin dt).rtcUtc - (s.begin dt).utcNs).natAbs then { s.begin dt with rtc.load := true }
      else (s.begin dt).trimmed) = u) : Leads (.rtcDiscipline dt) s u := by
  refine rtcDiscipline_leads running ((if_neg ?_).trans effect)
  rw [timed, valid, free]
  exact fun stays => by
    rcases stays with stays | stays | stays | early
    · exact Bool.false_ne_true stays
    · exact Bool.false_ne_true stays
    · exact Bool.false_ne_true stays
    · exact Nat.not_lt.mpr due early

end

/-! ### Samples of pins and supplies (R572, R595, R612) -/

section

variable {dt : Ns} {s : State}

theorem vpaChange_leads {v : Nat} (within : v ≤ 6500) : Leads (.vpaChange dt v) s { s.begin dt with pwr.vpaMv := v } := by
  have exec_eq : exec (.vpaChange dt v) s = execVpaChange dt v s := rfl
  have allowed : beyond 0 0 v = false := by simpa [beyond] using within
  rw [execVpaChange, allowed, if_neg Bool.false_ne_true] at exec_eq
  exact leads_of_always exec_eq rfl

theorem vbatSample_leads {v : Nat} (running : (s.begin dt).running = true) (within : v ≤ 4000) :
    Leads (.vbatSample dt v) s { s.begin dt with pwr.vbatMv := v, pwr.vbatShown := v } := by
  have exec_eq : exec (.vbatSample dt v) s = execVbatSample dt v s := rfl
  have allowed : beyond 0 v 0 = false := by simpa [beyond] using within
  rw [execVbatSample, allowed, if_neg Bool.false_ne_true] at exec_eq
  exact leads_of_event exec_eq running rfl

theorem photoChange_leads (running : (s.begin dt).running = true) (dark : Bool) : Leads (.photoChange dt dark) s
    (if (s.begin dt).plan.photo.dark = dark then { s.begin dt with io.photoDark := dark }
      else { s.begin dt with io.photoDark := dark, plan.photo.dark := dark, plan.photo.since := (s.begin dt).clk.mono }) := by
  have exec_eq : exec (.photoChange dt dark) s = execPhotoChange dt dark s := rfl
  rw [execPhotoChange] at exec_eq
  exact leads_of_event exec_eq running rfl

theorem rtcTempCorrection_leads (celsius : Int) (kept : (s.begin dt).pwr.slowLost = false) :
    Leads (.rtcTempCorrection dt celsius) s { s.begin dt with
      rtc.celsius := celsius
      rtc.correction := curveAt ((s.begin dt).slowValue 0xA010).bytes celsius + (s.begin dt).int 0xA011 } := by
  have exec_eq : exec (.rtcTempCorrection dt celsius) s = execRtcTempCorrection dt celsius s := rfl
  rw [execRtcTempCorrection] at exec_eq
  exact leads_of_always exec_eq (if_neg (by rw [kept]; exact Bool.false_ne_true))

end

/-- Settles O57: the RTC's commands and its second, discipline, the slow domain's events and the samples, each by its branches. -/
theorem theClockRunsIsSetAndDisciplined : Obligations.TheClockRunsIsSetAndDisciplined := by
  refine ⟨fun r s => ⟨fun ready => shotas_ok ready rfl, fun ready => ?_⟩, fun dt s => ?_, fun s inside => rtcTick_counts inside,
    fun dt s running => ?_⟩
  · intro a
    refine ⟨fun v parsed from2020 => ⟨fun free => ?_, fun timed => ?_⟩,
      fun invalid => shotas_done ready rfl (rtcSetBody_invalid invalid)⟩
    · exact shotas_wait ready ((rtcSetBody_waits parsed from2020).trans (if_neg (Bool.eq_false_iff.mp free)))
    · exact shotas_done ready rfl ((rtcSetBody_waits parsed from2020).trans (if_pos timed))
  · intro a
    have ticks {u : State} (effect : a.rtcSecond = u) : Leads (.rtcSecond dt) s u := leads_of_always rfl effect
    have wakes (due : a.wakeDue = true) : ¬(!a.wakeDue) = true := by rw [due]; exact Bool.false_ne_true
    refine ⟨fun kept due => ⟨fun x asked come => ?_, fun x asked early => ?_, fun free load timed => ?_, fun free stays => ?_⟩,
      fun lost => ticks (rtcSecond_lost lost), fun celsius kept => rtcTempCorrection_leads celsius kept, fun up due => ?_,
      fun stays => operatingSecond_leads (if_pos ?_), fun rest => periodicWake_leads (if_pos (by rw [rest]; rfl)),
      fun due awake => periodicWake_leads ((if_neg (wakes due)).trans (if_pos awake)), fun due hold held enabled good => ?_,
      fun v => vpaChange_leads, fun v above => if_pos (beyond_vpa above), fun v above => if_pos (beyond_vbat above)⟩
    · exact ticks ((rtcSecond_set kept due asked).trans (if_pos come))
    · exact ticks ((rtcSecond_set kept due asked).trans (if_neg (Nat.not_le.mpr early)))
    · exact ticks ((rtcSecond_free kept due free).trans (if_pos ⟨load, timed⟩))
    · refine ticks ((rtcSecond_free kept due free).trans (if_neg fun both => ?_))
      exact stays.elim (fun none_ => Bool.false_ne_true (none_.symm.trans both.1)) fun never =>
        Bool.false_ne_true (never.symm.trans both.2)
    · obtain ⟨t, next, reports⟩ := operatingSecond_leads (s := s) (dt := dt) (if_neg (not_or.mpr
        ⟨by rw [up]; exact Bool.false_ne_true, Nat.not_lt.mpr due⟩))
      obtain ⟨seconds, at_, copied⟩ := opSecond_counts a
      have left : (t.pwr.opSeconds, t.pwr.opSecondAt, t.pwr.opCopy) =
          (a.opSecond.pwr.opSeconds, a.opSecond.pwr.opSecondAt, a.opSecond.pwr.opCopy) :=
        reports.at (fun s : State => (s.pwr.opSeconds, s.pwr.opSecondAt, s.pwr.opCopy))
      obtain ⟨leftSeconds, left⟩ := Prod.mk.inj left
      obtain ⟨leftAt, leftCopy⟩ := Prod.mk.inj left
      refine ⟨t, next, ?_⟩
      rw [leftSeconds, leftAt, leftCopy]
      exact ⟨seconds, at_, copied⟩
    · exact stays.imp_left fun down => by rw [down]; rfl
    · refine periodicWake_leads ((if_neg (wakes due)).trans ((if_neg ?_).trans (if_pos ⟨hold, held, enabled, good⟩)))
      rw [awake_hold hold]
      exact Bool.false_ne_true
  · intro a
    refine ⟨fun timed valid free due => ⟨fun far => ?_, fun near => ?_⟩, fun early => ?_, fun v => vbatSample_leads running,
      fun isOpen => leads_of_event (f := fun s => { s with io.doorOpen := isOpen }) rfl running rfl,
      photoChange_leads running⟩
    · exact rtcDiscipline_due running timed valid free due (if_pos far)
    · obtain ⟨t, next, reports⟩ := rtcDiscipline_due running timed valid free due (if_neg (Nat.not_le.mpr near))
      exact ⟨t, next, reports.at (fun s : State => s.rtc.lastCompare), reports.at (fun s : State => s.rtc.lastError)⟩
    · exact rtcDiscipline_leads running (if_pos (.inr (.inr (.inr early))))

end Sys2Proof.Machine

/-! ## Resets and START (spec chapter 16) -/

namespace Sys2Proof.Machine

/-! ### The standing of a start

What a start settles of the supervisor and of the link; the units that start after them leave it alone. -/

/-- The power state, the last reset, the pending start, the binding, and that no session stands. -/
def State.standing (s : State) : Power × Nat × Option Nat × Bool × Bool :=
  (s.pwr.state, s.pwr.lastReset, s.pwr.pendingStart, s.link.bound, s.link.sessions.isEmpty)

theorem bare_standing (s : State) : s.bare.standing = s.standing := by
  simp only [State.standing, State.bare, List.isEmpty_map]

theorem Reports.standing {s t : State} (agree : Reports s t) : t.standing = s.standing :=
  (bare_standing t).symm.trans ((agree.at State.standing).trans (bare_standing s))

theorem ButForQueues.standing {s t : State} (agree : ButForQueues s t) : t.standing = s.standing := by
  obtain ⟨_, _, agree⟩ := agree
  exact agree.standing

section

variable (s : State)

@[simp] theorem bump_standing (id idx n : Nat) : (s.bump id idx n).standing = s.standing := (bump_butForQueues s id idx n).standing

@[simp] theorem record_standing (event unit : Nat) (data : List Byte) : (s.record event unit data).standing = s.standing :=
  Reports.standing (record_bare s event unit data).symm

@[simp] theorem raise_standing (opcode unit : Nat) (payload : List Byte) : (s.raise opcode unit payload).standing = s.standing :=
  Reports.standing (raise_bare s opcode unit payload).symm

@[simp] theorem histFrom_standing (graph flow : Nat) (r : HistRec) : (s.histFrom graph flow r).standing = s.standing :=
  Reports.standing (histFrom_bare s graph flow r).symm

@[simp] theorem respond_standing (dst : Source) (lane : Nat) (seq : Seq32) (opcode flags st : Nat) (p : List Byte) :
    (s.respond dst lane seq opcode flags st p).standing = s.standing :=
  Reports.standing (respond_bare s dst lane seq opcode flags st p).symm

@[simp] theorem put_standing (q : Nat) (it : Item) : (s.put q it).standing = s.standing := (put_butForQueues s q it).standing

@[simp] theorem setQueue_standing (q : Nat) (x : Queue) : (s.setQueue q x).standing = s.standing := rfl

@[simp] theorem onSession_standing (ep : Endpoint) (f : Session → Session) : (s.onSession ep f).standing = s.standing := by
  simp only [State.standing, State.onSession, List.isEmpty_map]

@[simp] theorem setLane_standing (ep : Endpoint) (n : Nat) (l : Lane) : (s.setLane ep n l).standing = s.standing := onSession_standing _ _ _

/-! ### The light plan's commands -/

@[simp] theorem offer_standing (q : Nat) (it : Item) : (s.offer q it).standing = s.standing := by
  unfold State.offer
  split <;> simp

@[simp] theorem push03_standing (graph flow : Nat) (origin : Ns) (c : DriveCmd) : (s.push03 graph flow origin c).standing = s.standing := by
  rw [State.push03, histFrom_standing]
  split <;> simp

@[simp] theorem setLive_standing (l : List DriveCmd) : (s.setLive l).standing = s.standing := rfl

@[simp] theorem revise_standing (graph flow : Nat) (origin : Ns) (old new : DriveCmd) :
    (s.revise graph flow origin old new).standing = s.standing := by
  have revised (t : State) (l : List Revision) : ({ t with bs.revisions := l } : State).standing = t.standing := rfl
  unfold State.revise
  dsimp only
  split
  · rfl
  · rw [revised, apply_ite State.standing, histFrom_standing, push03_standing, setQueue_standing, ite_self, setLive_standing]

@[simp] theorem reviseLater_standing (graph flow : Nat) (origin : Ns) (p : Pid) :
    (s.reviseLater graph flow origin p).standing = s.standing := by
  unfold State.reviseLater
  split
  · rfl
  · refine foldl_keeps State.standing (fun s c => ?_) _ s
    split
    · exact revise_standing _ _ _ _ _ _
    · rfl

@[simp] theorem issue_standing (graph flow : Nat) (origin : Ns) (c : DriveCmd) : (s.issue graph flow origin c).standing = s.standing := by
  rw [State.issue, reviseLater_standing]
  split <;> simp

@[simp] theorem noteMoved_standing (p : Pid) (asked given : Ns) : (s.noteMoved p asked given).standing = s.standing := by
  unfold State.noteMoved
  split <;> rfl

@[simp] theorem emitGood_standing (graph flow : Nat) (origin : Ns) (want : DriveCmd) :
    (s.emitGood graph flow origin want).1.standing = s.standing := by
  unfold State.emitGood
  dsimp only
  split
  · rfl
  · split
    · rfl
    · split
      · rfl
      · simp

@[simp] theorem planLate_standing (discarded recovered : Nat) : (s.planLate discarded recovered).standing = s.standing := by
  unfold State.planLate
  dsimp only
  split
  · exact raise_standing _ _ _ _
  · rfl

@[simp] theorem discarded_standing (c : DriveCmd) : (s.discarded c).standing = s.standing := by
  simp only [State.discarded, State.recover, apply_ite State.standing, planLate_standing, emitGood_standing, bump_standing, ite_self]

@[simp] theorem emit_standing (graph flow : Nat) (origin : Ns) (want : DriveCmd) :
    (s.emit graph flow origin want).1.standing = s.standing := by
  unfold State.emit
  split <;> simp

@[simp] theorem coreDrainFrom_standing (l : List DriveCmd) : (s.coreDrainFrom l).standing = s.standing := by
  induction l generalizing s with
  | nil => rfl
  | cons c rest ih =>
    unfold State.coreDrainFrom
    split
    · rfl
    · exact (ih _).trans (emit_standing _ _ _ _ _)

@[simp] theorem coreTakes_standing (cs : List DriveCmd) : (s.coreTakes cs).standing = s.standing := coreDrainFrom_standing _ _

@[simp] theorem finish_standing (ep : Endpoint) (n st : Nat) (p : List Byte) : (s.finish ep n st p).standing = s.standing := by
  have rated (t : State) (rate : Nat) : ({ t with link.uartRate := rate } : State).standing = t.standing := rfl
  unfold State.finish
  dsimp only
  split
  · split
    · rfl
    · split
      · rw [rated, respond_standing, setLane_standing]
      · rw [respond_standing, setLane_standing]
  · rfl

@[simp] theorem answerHeld_standing (w : Option (Endpoint × Nat × List Byte)) : (s.answerHeld w).standing = s.standing := by
  unfold State.answerHeld
  split
  · exact finish_standing _ _ _ _ _
  · rfl

@[simp] theorem refillFrom_standing (l : List (Item × Option (Endpoint × Nat × List Byte))) : (s.refillFrom l).standing = s.standing := by
  induction l generalizing s with
  | nil => rfl
  | cons e rest ih =>
    unfold State.refillFrom
    split
    · rfl
    · rw [ih, answerHeld_standing]
      split <;> simp

@[simp] theorem planChange_standing (cs : List DriveCmd) (waiter : Option (Endpoint × Nat × List Byte)) :
    (s.planChange cs waiter).standing = s.standing := by
  unfold State.planChange
  split
  · exact refillFrom_standing _ _
  · rw [answerHeld_standing, coreTakes_standing]

@[simp] theorem demandNow_standing (c : Nat) : (s.demandNow c).standing = s.standing := by
  unfold State.demandNow
  dsimp only
  split <;> rfl

@[simp] theorem switch_standing (c : Nat) (on : Bool) : (s.switch c on).standing = s.standing := by
  rw [State.switch, State.hist, histFrom_standing, raise_standing]
  exact bump_standing _ _ _ _

@[simp] theorem follow_standing (c : Nat) : (s.follow c).standing = s.standing := by
  have onCircuit (f : ChainCircuit → ChainCircuit) : (s.onCircuit c f).standing = s.standing := rfl
  simp only [State.follow, apply_ite State.standing, onCircuit, switch_standing, ite_self]

@[simp] theorem demandAll_standing : s.demandAll.standing = s.standing := by
  unfold State.demandAll State.followAll
  split
  · exact foldl_keeps State.standing demandNow_standing _ _
  · exact (foldl_keeps State.standing follow_standing _ _).trans (foldl_keeps State.standing demandNow_standing _ _)

@[simp] theorem resolveNights_standing : s.resolveNights.standing = s.standing := by
  have resolved (t : State) (n : List Night) (l : List Ns) :
      ({ t with plan.nights := n, plan.issued := l } : State).standing = t.standing := rfl
  have counted (t : State) (day : Int) : (t.resolved day).2.standing = t.standing := bump_standing _ _ _ _
  unfold State.resolveNights
  split
  · rfl
  · dsimp only
    rw [demandAll_standing, State.relaunch, planChange_standing, resolved, counted, counted]

@[simp] theorem startLight_standing : s.startLight.standing = s.standing := by
  unfold State.startLight
  split
  · exact resolveNights_standing s
  · rw [demandAll_standing, State.relaunch, planChange_standing]

/-! ### Keys -/

@[simp] theorem changeSlot_standing (i cause : Nat) (f : KeySlot → KeySlot) : (s.changeSlot i cause f).standing = s.standing := by
  unfold State.changeSlot
  refine (foldl_keeps State.standing (fun _ _ => raise_standing _ _ _ _) _ _).trans ?_
  split <;> rfl

@[simp] theorem eraseSlot_standing (i cause : Nat) : (s.eraseSlot i cause).standing = s.standing := changeSlot_standing _ _ _ _

@[simp] theorem retireKeys_standing : s.retireKeys.standing = s.standing := by
  refine foldl_keeps State.standing (fun s i => ?_) _ s
  split
  · exact eraseSlot_standing _ _ _
  · rfl

@[simp] theorem recoverSlot_standing (x : Nat × Bool) : (s.recoverSlot x).standing = s.standing := by
  unfold State.recoverSlot
  dsimp only
  split
  · rfl
  · rw [record_standing, changeSlot_standing]

@[simp] theorem startKeys_standing (found : StartReport) : (s.startKeys found).standing = s.standing := by
  have cleared (t : State) : ({ t with ks.attests := [], ks.cache := [] } : State).standing = t.standing := rfl
  unfold State.startKeys
  dsimp only
  have masked (t : State) (l : List Nat) : (l.foldl (fun (s : State) i =>
      s.draw.2.onSlot i (fun k => { k with mask := le 32 s.draw.1, maskedAt := s.clk.mono })) t).standing = t.standing := by
    refine foldl_keeps State.standing (fun t i => ?_) l t
    rfl
  have abandoned (t : State) (l : List Nat) : (l.foldl (fun (s : State) i =>
      (s.bump 0x90F1).record 0x9002 0x12 (u8 i ++ zeros 3 ++ u32 (s.slot i).rec_.gen)) t).standing = t.standing :=
    foldl_keeps State.standing (fun _ _ => (record_standing _ _ _ _).trans (bump_standing _ _ _ _)) l t
  have recovered (t : State) (l : List (Nat × Bool)) : (l.foldl State.recoverSlot t).standing = t.standing :=
    foldl_keeps State.standing recoverSlot_standing l t
  split
  · rw [retireKeys_standing, cleared, masked, abandoned, recovered]
  · rw [cleared, masked, abandoned, recovered]

/-! ### The History Store -/

@[simp] theorem onTier_standing (t : Nat) (f : Tier → Tier) : (s.onTier t f).standing = s.standing := rfl

@[simp] theorem eraseOldest_standing (t : Nat) : (s.eraseOldest t).standing = s.standing := by
  unfold State.eraseOldest
  split <;> rfl

@[simp] theorem shrinkTier_standing (t : Nat) : (s.shrinkTier t).standing = s.standing :=
  foldl_keeps State.standing (fun s _ => eraseOldest_standing s t) _ _

@[simp] theorem makeRoom_standing (t : Nat) : (s.makeRoom t).standing = s.standing := by
  unfold State.makeRoom
  dsimp only
  split
  · rfl
  · split
    · split
      · rfl
      · rw [onTier_standing, shrinkTier_standing]
    · exact eraseOldest_standing s t

@[simp] theorem openBlock_standing (t : Nat) : (s.openBlock t).standing = s.standing := makeRoom_standing s t

@[simp] theorem appendTo_standing (t : Nat) (r : HistRec) : (s.appendTo t r).standing = s.standing := by
  have opened (c : Bool) : (if c then s else s.openBlock t).standing = s.standing := by split <;> simp
  unfold State.appendTo
  dsimp only
  rw [bump_standing, bump_standing, bump_standing, onTier_standing]
  exact opened _

@[simp] theorem append_standing (r : HistRec) : (s.append r).standing = s.standing := by
  have noted (t : State) (g : Table Nat) : ({ t with hs.gapSeconds := g } : State).standing = t.standing := rfl
  unfold State.append
  dsimp only
  split
  · exact appendTo_standing _ _ _
  · split
    · rw [bump_standing, appendTo_standing]
    · rw [raise_standing, noted, bump_standing, appendTo_standing]

@[simp] theorem histRestart_standing : s.histRestart.standing = s.standing := foldl_keeps State.standing (fun _ _ => append_standing _ _) _ _

/-! ### Updates -/

@[simp] theorem updateState_standing (kind event id : Nat) : (s.updateState kind event id).standing = s.standing := raise_standing _ _ _ _

@[simp] theorem armMissed_standing (kind : Nat) (x : Arm) : (s.armMissed kind x).standing = s.standing := by
  unfold State.armMissed
  dsimp only
  rw [updateState_standing, bump_standing]
  split <;> rfl

@[simp] theorem startArms_standing : s.startArms.standing = s.standing := by
  refine foldl_keeps State.standing (fun s e => ?_) _ s
  dsimp only
  split
  · rfl
  · split
    · rfl
    · exact armMissed_standing _ _ _

@[simp] theorem setPort_standing (p : Port) (x : RingPort) : (s.setPort p x).standing = s.standing := by
  cases p <;> rfl

@[simp] theorem launch_standing (express : Bool) (at_ tol : Ns) (dst : Dest) (etherType : BitVec 16) (supervision : Bool)
    (lsdu : List Byte) : (s.launch express at_ tol dst etherType supervision lsdu).standing = s.standing := by
  have ported (t : State) (p : Port) (f : RingPort → RingPort) : (t.onPort p f).standing = t.standing := setPort_standing _ _ _
  have sequenced (t : State) (n : BitVec 16) : ({ t with ring.seq := n } : State).standing = t.standing := rfl
  unfold State.launch
  dsimp only
  rw [sequenced, ported, ported]

@[simp] theorem fetch_standing : s.fetch.standing = s.standing := by
  unfold State.fetch
  split
  · rfl
  · split
    · rfl
    · split
      · rfl
      · split
        · rfl
        · exact launch_standing _ _ _ _ _ _ _ _

/-- A turned selector boots the new firmware into its trial (R538). -/
def State.switched (s : State) : State :=
  if s.up.selectorTurned then
    let s := { s with up.active := 1 - s.up.active, up.selectorTurned := false, up.arms := tdel s.up.arms 0
                      up.trialSince := some s.clk.mono, up.trialWatchdogs := 0, up.fwVerified := false }
    s.updateState 0 5 s.running_.id
  else s

theorem bootFirmware_eq (found : StartReport) : s.bootFirmware found =
    if found.badFirmwareCopies.dedup.length < 3 then s.switched.bump 0x98F3 0 found.badFirmwareCopies.dedup.length
    else { s.switched with up.active := 1 - s.switched.up.active, up.trialSince := none }.updateState 0 7 s.switched.running_.id :=
  rfl

@[simp] theorem switched_standing : s.switched.standing = s.standing := by
  unfold State.switched
  dsimp only
  split
  · exact updateState_standing _ _ _ _
  · rfl

/-- The boot loader leaves the power state as it was (R538). -/
@[simp] theorem bootFirmware_standing (found : StartReport) : (s.bootFirmware found).standing = s.standing := by
  rw [bootFirmware_eq]
  split
  · exact (bump_standing _ _ _ _).trans (switched_standing s)
  · exact (updateState_standing _ _ _ _).trans (switched_standing s)

end

end Sys2Proof.Machine

/-! ## START: what it leaves of the supervisor and the link (spec chapter 16) -/

namespace Sys2Proof.Machine

/-! ### The engines' self-test (R228)

A start has emptied every engine, so that none has work to give back as it retires. -/

section

variable {s : State}

/-- No engine has work. -/
def State.enginesRest (s : State) : Prop := ∀ e, (s.engine e).cur = none ∧ (s.engine e).next = none

theorem enginesRest_setEngine (rest : s.enginesRest) {e : Nat} {x : Engine} (empty : x.cur = none ∧ x.next = none) :
    (s.setEngine e x).enginesRest := by
  intro j
  by_cases same : j = e
  · subst same
    rw [State.engine, State.setEngine]
    dsimp only
    rw [lset, lmod_getElem?]
    cases s.fe.engines[j]? with
    | none => exact ⟨rfl, rfl⟩
    | some _ => exact empty
  · rw [State.engine, State.setEngine]
    dsimp only
    rw [lset_get_other _ _ same]
    exact rest j

theorem giveBack_rest {e : Nat} (rest : s.enginesRest) :
    (s.giveBack e).1 = s.setEngine e { s.engine e with cur := none, next := none, old := none } := by
  obtain ⟨cur, next⟩ := rest e
  simp only [State.giveBack, cur, next]

theorem Reports.enginesRest {t : State} (agree : Reports s t) (rest : s.enginesRest) : t.enginesRest := fun e => by
  have same : t.engine e = s.engine e := agree.at (fun s : State => s.engine e)
  rw [same]
  exact rest e

theorem bump_enginesRest (rest : s.enginesRest) (id idx n : Nat) : (s.bump id idx n).enginesRest := by
  unfold State.bump
  split <;> exact rest

/-- An engine without work retires, and its unit's report is all that follows. -/
theorem retire_rest {e kind : Nat} (rest : s.enginesRest) :
    (s.retire e kind).1.enginesRest ∧ (s.retire e kind).1.standing = s.standing := by
  have retires (x : Engine) (empty : x.cur = none ∧ x.next = none) :
      ((((s.setEngine e x).giveBack e).1.bump 0x48F0).engineState e).enginesRest ∧
      ((((s.setEngine e x).giveBack e).1.bump 0x48F0).engineState e).standing = s.standing := by
    have rests := enginesRest_setEngine (e := e) rest empty
    rw [giveBack_rest rests]
    exact ⟨Reports.enginesRest (raise_bare _ _ _ _).symm (bump_enginesRest (enginesRest_setEngine rests ⟨rfl, rfl⟩) _ _ _),
      (raise_standing _ _ _ _).trans (bump_standing _ _ _ _)⟩
  exact retires _ (rest e)

theorem retireFailed_rest (l : List Nat) (rest : s.enginesRest) : (l.foldl (fun s e =>
    if 16 ≤ e ∨ (s.engine e).state ≠ 0 then s else (s.retire e 3).1) s).standing = s.standing := by
  induction l generalizing s with
  | nil => rfl
  | cons e l ih =>
    rw [List.foldl_cons]
    split
    · exact ih rest
    · obtain ⟨next, same⟩ := retire_rest (e := e) (kind := 3) rest
      exact (ih next).trans same

theorem startEngines_standing (s : State) (k : Nat) (found : StartReport) : (s.startEngines k found).standing = s.standing := by
  unfold State.startEngines
  refine retireFailed_rest _ fun e => ?_
  rw [State.engine, List.getElem?_map]
  cases s.fe.engines[e]? <;> exact ⟨rfl, rfl⟩

end

/-! ### The units' starts -/

section

variable (s : State) (k : Nat) (found : StartReport)

@[simp] theorem enterSlot_standing (g : Nat) (new : SlotState) (cause : Nat) : (s.enterSlot g new cause).standing = s.standing :=
  raise_standing _ _ _ _

theorem startSlot_standing (g : Nat) (x : GraphSlot) : (s.startSlot g x).standing = s.standing := by
  have slotted (t : State) (y : GraphSlot) : (t.setSlot g y).standing = t.standing := rfl
  have loaded (t : State) (y : GraphInfo) (code : List Byte) : (t.loadGraph g y code).standing = t.standing := rfl
  have told (t : State) (old new : SlotState) (cause : Nat) : (t.graphState g old new cause).standing = t.standing :=
    raise_standing _ _ _ _
  unfold State.startSlot
  split
  · rfl
  · split
    · rw [enterSlot_standing, slotted]
    · dsimp only
      rw [apply_ite State.standing, told, slotted, loaded, ite_self]

theorem startGraphs_standing : s.startGraphs.standing = s.standing :=
  foldl_keeps State.standing (fun (t : State) (e : GraphSlot × Nat) => startSlot_standing t e.2 e.1) _ _

theorem startFlows_standing : (s.startFlows k found).standing = s.standing := by
  unfold State.startFlows
  dsimp only
  rw [apply_ite State.standing, setQueue_standing, ite_self]
  rfl

theorem startTime_standing : s.startTime.standing = s.standing := by
  unfold State.startTime
  dsimp only
  split <;> rfl

theorem startParams_standing : (s.startParams k found).standing = s.standing := rfl

theorem startRecorder_standing : (s.startRecorder k found).standing = s.standing := rfl

/-- The link starts without a session and unbound (R582). -/
theorem startLink_standing : s.startLink.standing = (s.pwr.state, s.pwr.lastReset, s.pwr.pendingStart, false, true) := rfl

theorem startPlan_standing : s.startPlan.standing = s.standing := rfl

theorem startMesh_standing : (s.startMesh k found).standing = s.standing := by
  unfold State.startMesh
  dsimp only
  split <;> rfl

theorem startMeter_standing : (s.startMeter k found).standing = s.standing := by
  unfold State.startMeter
  dsimp only
  split <;> rfl

theorem startChain_standing : s.startChain.standing = s.standing := rfl

theorem startRing_standing : (s.startRing k found).standing = s.standing := rfl

theorem startUpdates_standing : s.startUpdates.standing = s.standing := rfl

@[simp] theorem recordReset_standing : s.recordReset.standing = s.standing := by
  unfold State.recordReset
  dsimp only
  split <;> simp

/-- The power state and the counts of the start itself. -/
def State.startPower (s : State) (k : Nat) : State :=
  let gasping := s.pwr.state == Power.lastGasp
  let at_ := if s.powered then s.pwr.opSecondAt else s.pwr.opSecondAt + (s.clk.mono - s.pwr.downAt)
  { s.bump 0xA080 k with
    pwr.state := if gasping then Power.lastGasp else Power.run, pwr.lastReset := k, pwr.opSecondAt := at_
    pwr.offByBrownOut := false, pwr.pendingStart := none, pwr.holdByCommand := gasping && s.pwr.holdByCommand
    pwr.vinLost := false, pwr.idleSince := none, pwr.vbatShown := 0, pwr.coreReduced := false }

/-- A power cycle is counted (R574). -/
def State.startCycle (s : State) (k : Nat) : State :=
  if coldStart k then
    let n := (s.pwr.cycles + 1) % pow32
    { s with pwr.cycles := n, pwr.cyclesCopy := n, pwr.opCopy := s.pwr.opSeconds }
  else s

/-- A loss of the slow domain is recorded (R571). -/
def State.startSlow (s : State) : State :=
  if s.pwr.slowLost then
    { s with pwr.slowLost := false }.record 0xA003 0x16 (u32 s.pwr.opSeconds ++ u32 s.pwr.cycles)
  else s

/-- A LAST-GASP cut short is recorded (R577). -/
def State.startGasp (s : State) : State :=
  match s.pwr.shortGasp with
  | some (n, step) => { s with pwr.shortGasp := none }.record 0xA004 0x16 (u16 n ++ u8 step ++ u8 0)
  | none => s

theorem startCounts_eq : s.startCounts k = ((s.startPower k).startCycle k).startSlow.startGasp := rfl

/-- The start's kind is the last reset, nothing is pending, and the module runs unless it gasps (R580). -/
theorem startPower_standing : (s.startPower k).standing =
    (if s.pwr.state = .lastGasp then .lastGasp else .run, k, none, s.link.bound, s.link.sessions.isEmpty) := by
  have kept : (s.bump 0xA080 k).link = s.link := by
    unfold State.bump
    split <;> rfl
  simp only [State.startPower, State.standing, kept, beq_iff_eq]

theorem startCycle_standing : (s.startCycle k).standing = s.standing := by
  unfold State.startCycle
  split <;> rfl

theorem startSlow_standing : s.startSlow.standing = s.standing := by
  unfold State.startSlow
  split
  · exact record_standing _ _ _ _
  · rfl

theorem startGasp_standing : s.startGasp.standing = s.standing := by
  unfold State.startGasp
  split
  · exact record_standing _ _ _ _
  · rfl

theorem startCounts_standing : (s.startCounts k).standing =
    (if s.pwr.state = .lastGasp then .lastGasp else .run, k, none, s.link.bound, s.link.sessions.isEmpty) := by
  rw [startCounts_eq, startGasp_standing, startSlow_standing, startCycle_standing, startPower_standing]

/-! ### The whole start -/

/-- The units that start before the supervisor's counts. -/
def State.startUnits (s : State) (k : Nat) (found : StartReport) : State :=
  let s := (s.startTime.startParams k found).startLink.startRecorder k found
  let s := ((s.startFlows k found).startEngines k found).startGraphs
  ((s.startPlan.startMesh k found).startMeter k found).startChain.startRing k found

theorem startUnits_standing : (s.startUnits k found).standing =
    (s.pwr.state, s.pwr.lastReset, s.pwr.pendingStart, false, true) := by
  have timed : (s.startTime.startParams k found).standing = s.standing :=
    (startParams_standing _ k found).trans (startTime_standing s)
  have supervised {t u : State} (same : t.standing = u.standing) :
      (t.pwr.state, t.pwr.lastReset, t.pwr.pendingStart, false, true) =
        (u.pwr.state, u.pwr.lastReset, u.pwr.pendingStart, false, true) :=
    congrArg (fun x : Power × Nat × Option Nat × Bool × Bool => (x.1, x.2.1, x.2.2.1, false, true)) same
  rw [State.startUnits, startRing_standing, startChain_standing, startMeter_standing, startMesh_standing, startPlan_standing,
    startGraphs_standing, startEngines_standing, startFlows_standing, startRecorder_standing, startLink_standing]
  exact supervised timed

theorem starts_eq : s.starts k found =
    (let t := (((s.startUnits k found).startCounts k).recordReset.startKeys found).startUpdates
    (if coldStart k then t.histRestart else t).startArms.startLight.fetch) := rfl

/-- A start leaves its kind as the last reset, nothing pending, no session and no binding (R580, R582). -/
theorem starts_standing : (s.starts k found).standing =
    (if s.pwr.state = .lastGasp then .lastGasp else .run, k, none, false, true) := by
  have units := startUnits_standing s k found
  have power : (s.startUnits k found).pwr.state = s.pwr.state := congrArg (fun x => x.1) units
  have bound : (s.startUnits k found).link.bound = false := congrArg (fun x => x.2.2.2.1) units
  have sessions : (s.startUnits k found).link.sessions.isEmpty = true := congrArg (fun x => x.2.2.2.2) units
  rw [starts_eq]
  dsimp only
  rw [fetch_standing, startLight_standing, startArms_standing, apply_ite State.standing, histRestart_standing, ite_self,
    startUpdates_standing, startKeys_standing, recordReset_standing, startCounts_standing, power, bound, sessions]

end

/-! ### START and the pending kind (R582) -/

section

variable {s : State} {found : StartReport} {p : Nat}

/-- The kind a start takes: the pending one, or a power-on after a loss of the slow domain. -/
def State.startKind (s : State) (p : Nat) : Nat := if s.pwr.slowLost then 0 else p

theorem start_pending (pending : s.pwr.pendingStart = some p) (good : 4550 ≤ s.pwr.vinMv) : s.start found =
    if found.runs then (s.bootFirmware found).starts (s.startKind p) found
    else { s.bootFirmware found with
           pwr.state := if (s.bootFirmware found).pwr.state = .lastGasp then Power.lastGasp else Power.run
           up.startAt := (s.bootFirmware found).clk.mono, up.ranSince := false } := by
  simp only [State.start, pending, Nat.not_lt.mpr good, if_false]
  rfl

theorem start_none (stays : s.pwr.pendingStart = none ∨ s.pwr.vinMv < 4550) : s.start found = s := by
  unfold State.start
  split
  · rfl
  · next q pending =>
    exact if_pos (stays.resolve_left fun none_ => Option.some_ne_none q (pending.symm.trans none_))

theorem bootFirmware_power (s : State) (found : StartReport) : (s.bootFirmware found).pwr.state = s.pwr.state :=
  congrArg Prod.fst (bootFirmware_standing s found)

theorem standing_eq {s : State} {power : Power} {k : Nat} {pending : Option Nat} {bound empty : Bool}
    (stands : s.standing = (power, k, pending, bound, empty)) : s.pwr.state = power ∧ s.pwr.lastReset = k ∧
      s.pwr.pendingStart = pending ∧ s.link.bound = bound ∧ s.link.sessions.isEmpty = empty := by
  simpa only [State.standing, Prod.mk.injEq] using stands

theorem enterReset_alone (s : State) (k : Nat) (alone : s.pwr.pendingStart = none) :
    (s.enterReset k).pwr.pendingStart = some k := by
  simp only [State.enterReset, alone]

theorem enterReset_lower (s : State) (k : Nat) {j : Nat} (pending : s.pwr.pendingStart = some j) :
    (s.enterReset k).pwr.pendingStart = some (min j k) := by
  simp only [State.enterReset, pending]

end

/-- Settles O56: a reset's kind by what was pending, and START by its pending kind, its supply and its firmware. -/
theorem twoCausesTakeTheLowestCode : Obligations.TwoCausesTakeTheLowestCode := by
  refine ⟨fun s k => ⟨enterReset_alone s k, fun j => enterReset_lower s k, fun alone => ⟨?_, ?_⟩⟩, fun dt found s => ?_⟩
  · exact enterReset_lower _ 1 (enterReset_alone s 6 alone)
  · exact enterReset_lower _ 6 (enterReset_alone s 1 alone)
  · intro a
    have starts {u : State} (effect : a.start found = u) : Leads (.start dt found) s u :=
      leads_of_always (f := fun s => s.start found) rfl effect
    refine ⟨fun p pending good runs => ?_, fun p pending good fails => ?_, fun stays => starts (start_none stays)⟩
    · intro k
      have leads := starts ((start_pending pending good).trans (if_pos runs))
      refine ⟨leads, ?_⟩
      obtain ⟨t, next, reports⟩ := leads
      obtain ⟨power, lastReset, pendingStart, bound, sessions⟩ := standing_eq (reports.standing.trans (starts_standing _ k found))
      refine ⟨t, next, lastReset, pendingStart, fun awake => ?_, List.isEmpty_iff.mp sessions, bound⟩
      rw [power, bootFirmware_power, if_neg awake]
    · exact starts ((start_pending pending good).trans (if_neg (Bool.eq_false_iff.mp fails)))

end Sys2Proof.Machine
